-- ==== Sys2Proof/Word.lean ====
section
/-! DEFINITION. The word types of the device: a byte, the register words, and the sparse maps that hold every
addressed store of the model in one canonical form. -/
namespace Sys2Proof

abbrev Byte := BitVec 8
abbrev Word32 := BitVec 32
abbrev Word64 := BitVec 64
/-- A vector register of 1,024 bytes (Table 3.1). -/
abbrev VReg := BitVec 8192
/-- A predicate register, one bit per byte of a vector register (Table 3.1). -/
abbrev PReg := BitVec 1024

/-- A store of values by number: the listed keys rise strictly and no listed value equals what an unlisted key
reads as. -/
abbrev Sparse (V : Type) := List (Nat × V)

end Sys2Proof
end

