-- ==== Sys2Proof/Syntax.lean ====
section
/-! DEFINITION. The commands of the block, one constructor per row of the opcode table, and the types of their operands. -/
namespace Sys2Proof

/-- The fields of a Runen instruction below CLASS and OP, which the command itself fixes (Table 3.3). -/
structure Fields where
  ge : Bool
  pred : BitVec 3
  pn : Bool
  mod : BitVec 15
  d : BitVec 8
  a : BitVec 8
  b : BitVec 8
  c : BitVec 8
  imm : BitVec 64
  deriving DecidableEq, Repr

/-- The ECC outcome of a memory line that an operation reads: the line, and whether the error is uncorrectable. -/
structure LineUpset where
  line : Nat
  bad : Bool
  deriving DecidableEq, Repr

/-- A context switch's save on an array: what it finds of errors in the accumulator lines it reads (R157). -/
structure SwitchSave where
  array : Nat
  corrected : List Nat
  uncorrectable : List Nat
  deriving DecidableEq, Repr

/-- The conduit whose head entry is taken, and the ECC outcomes of the operand-cache lines that a PUT then reads (R201). -/
structure EntryTake where
  conduit : Nat
  upsets : List LineUpset
  deriving DecidableEq, Repr

/-- The buffer of a debug read of accumulator lines, and what the read finds of errors in them (R157). -/
structure DebugBuffer where
  buf : Nat
  corrected : List Nat
  uncorrectable : List Nat
  deriving DecidableEq, Repr

/-- The place of a transfer among its array's transfers in flight, and the ECC outcomes of the lines that it reads (R201). -/
structure TransferEnd where
  index : Nat
  upsets : List LineUpset
  deriving DecidableEq, Repr

/-- What checks find while an MMA runs (R156, R157): units whose group sum was recomputed, whether a recomputation
failed again, accumulator lines corrected and lines found uncorrectable. -/
structure MmaUpset where
  recomputed : List Nat
  permanent : Bool
  corrected : List Nat
  uncorrectable : List Nat
  deriving DecidableEq, Repr


/-- A segment of a DATA frame (Table 7.8).  `marks` are the offsets, within the operation, of poisoned lines' first
bytes that a fragment with POISON set carries. -/
structure ZrtSeg where
  kind : Nat
  sub : Nat
  part : Nat
  first : Bool
  last : Bool
  opId : Nat
  addr : Word64
  len : Nat
  off : Nat
  operand : Word64
  data : List Byte
  marks : List Nat
  deriving DecidableEq, Repr

/-- What follows the header of a ZRT frame, by its TYPE (Table 7.7, R259, R262, R266, R267): segments; SACK blocks;
BOOT_ID and epoch; the closed path's sending and receiving vent, its epoch and RX_APPLIED. -/
inductive ZrtBody where
  | data (segs : List ZrtSeg)
  | ack (sacks : List (Nat × Nat))
  | opening (boot epoch : Nat)
  | openAck (boot epoch : Nat)
  | close (svent rvent epoch rx : Nat)
  | closeAck (svent rvent epoch rx : Nat)
  | probe
  | probeReply
  deriving DecidableEq, Repr

/-- A ZRT frame (R257, R258): the header's fields, the CE mark of its IP packet, and whether its UDP checksum, VERSION
and TYPE are right. -/
structure ZrtFrame where
  sumOk : Bool
  versionOk : Bool
  ce : Bool
  ecnEcho : Bool
  ackNow : Bool
  retx : Bool
  src : Nat
  dst : Nat
  svent : Nat
  rvent : Nat
  group : Nat
  epoch : Nat
  psn : Nat
  ackPsn : Nat
  ts : Nat
  tsEcho : Nat
  body : ZrtBody
  deriving DecidableEq, Repr

/-- What an access does to one HBM line (R206, R209, R213): a read; a write of bytes from an offset in the line, of
data that may itself be poisoned; an add-on-write of values of a format from an offset on. -/
inductive LineOp where
  | read
  | write (off : Nat) (data : List (BitVec 8)) (poison : Bool)
  | add (off fmt : Nat) (data : List (BitVec 8))
  deriving DecidableEq, Repr

/-- What the checks of an HBM line find when it is read (R207, R208, R441): nothing; an error that ECC corrects; an
uncorrectable error that the one re-read finds clean or correctable; one that recurs; or no uncorrectable error and an
integrity tag that does not match. -/
inductive LineCheck where
  | clean | corrected | cleanReread | uncorrectable | badTag
  deriving DecidableEq, Repr

/-- The non-finite report of a chunk or of a partial sum (R289): KIND, the bucket element and the ring position named. -/
structure PlmReport where
  kind : Nat
  elem : Nat
  pos : Nat
  deriving DecidableEq, Repr

/-- A re-shard descriptor (R296), whose layout in memory the manual does not give: RESHARD_ID, the new ring, this device's
new position, for each old position where its state is read from, and the state arrays of each bucket as (bucket, element
width in bytes, OLD base, NEW base). -/
structure PlmReshard where
  id : Nat
  ring : List (Nat × Nat)
  newPos : Nat
  sources : List (Nat × Nat)
  arrays : List (Nat × Nat × Nat × Nat)
  deriving DecidableEq, Repr

/-- The SecTAG of a received frame (R373, R374): its association number, packet number, and whether its ICV is right. -/
structure SecTag where
  an : Nat
  pn : Nat
  icvOk : Bool
  deriving DecidableEq, Repr

/-- Where a received frame's destination address points (Table 11.2 row 3). -/
inductive FrameDst where
  | mine | broadcast | classGroup | other
  deriving DecidableEq, Repr

/-- A recovery frame (Table 15.4): MAGIC and VERSION right or not, TYPE, SEQ, OFFSET and the data. -/
structure RecoveryFrame where
  magicOk : Bool
  type : Nat
  seq : Nat
  off : Nat
  data : List (BitVec 8)
  deriving DecidableEq, Repr

/-- A frame of row 9 of Table 11.2: an ARP request, an IPv6 Neighbor Solicitation or an Echo Request, each for an address of the vent and
answered by firmware (R363); or any other, with the MAC address it gives if it answers firmware's resolution of the port's next hop. -/
inductive NeighbourFrame where
  | arpRequest | solicitation | echo
  | answer (hop : Option Nat)
  deriving DecidableEq, Repr

/-- What a received frame carries, by the rows of Table 11.2: MAC control; a UDP datagram to a port (whether to the vent's own
address, and whether an IP fragment) with a ZRT frame; a PTP message (whether an event message; messageType, domainNumber,
sequenceId); EAPOL, with the association number of a key that it lets MKA agree on, if one; a frame of row 9; LLDP; a recovery frame; anything else. -/
inductive FrameBody where
  | macControl
  | udp (port : Nat) (mine frag : Bool) (f : ZrtFrame)
  | ptp (event : Bool) (msgType domain seq : Nat)
  | eapol (sak : Option Nat)
  | neighbour (k : NeighbourFrame)
  | lldp
  | recovery (f : RecoveryFrame)
  | other
  deriving DecidableEq, Repr

/-- A received Ethernet frame: FCS, length, the FEC codewords corrected and uncorrectable and the symbol errors of each lane since the frame
before it (R360), SecTAG, destination, VLAN tag, whether the port's receive buffer is full, and what it carries. -/
structure RxFrame where
  fcsOk : Bool
  len : Nat
  fecCorr : Nat
  fecUncorr : Nat
  symErr : List Nat
  sec : Option SecTag
  dst : FrameDst
  vid : Option Nat
  full : Bool
  body : FrameBody
  deriving DecidableEq, Repr

/-- Who accesses a register (R8): a PCIe function, a fumarole core, or the sinter. -/
inductive Requester where
  | fn (f : Nat)
  | core (c : Nat)
  | sinter
  deriving DecidableEq, Repr

/-- The sender of a service call: the partition, its TAG, whether the call came inside the partition's SPDM session
(R435), and whether a head forwarded it (R393). -/
structure Caller where
  part : Nat
  tag : Nat
  session : Bool
  forwarded : Bool
  deriving DecidableEq, Repr

/-- Under whose key a signature verifies. -/
inductive Signer where
  | nobody | owner | mehrop
  deriving DecidableEq, Repr

/-- A signed command (R429): under whose key its signature verifies, and the DeviceID digest and the nonce it names. -/
structure Signed where
  signer : Signer
  device : Nat
  nonce : Nat
  deriving DecidableEq, Repr

/-- A debug token (Table 13.9): its fields, under whose key its signature verifies, and its SHA-384 digest. -/
structure Token where
  format : Nat
  kind : Nat
  scope : Nat
  uses : Nat
  sig : Signed
  encKey : Nat
  digest : Nat
  deriving DecidableEq, Repr

/-- An ownership voucher with the owner public key it goes with (R429): whether Mehrop's signature verifies, the DeviceID
digest and the digest of the key that it names, and the digest of the key presented. -/
structure Voucher where
  mehrop : Bool
  device : Nat
  names : Nat
  owner : Nat
  deriving DecidableEq, Repr

/-- A firmware image as the checks of R488 see it: the number of the first check of 1, 2, and the zero fields that fails
(0: none); MIN_STEPPING, SVN, VERSION, DIGEST as numbers, the log format it writes, whether its sinter component differs from
the one that ran last, and which items of Table 15.3 it migrates. -/
structure FwImage where
  badCheck : Nat
  minStepping : Nat
  svn : Nat
  version : Nat
  digest : Nat
  sinterChanged : Bool
  migrates : Nat
  deriving DecidableEq, Repr

/-- An owner approval (R488): whether the owner's signature verifies, and the DIGEST it names. -/
structure Approval where
  owner : Bool
  digest : Nat
  deriving DecidableEq, Repr

/-- A cartridge label as it is written (R503, Table 15.6): the group storage key under which it is encrypted, the owner key
digest, the group tag, ORIGIN and the bind count. -/
structure CrtLabel where
  key : Nat
  owner : Nat
  group : Nat
  origin : Nat
  binds : Nat
  deriving DecidableEq, Repr

/-- A drive in the bay: CRT_ID, the first of R502's checks that it fails (0: none, 1 chain, 2 product, 3 challenge), its label,
the images in its recovery area with their sequence numbers, and what its health log reads: Percentage Used, Data Units Written,
and whether it reports itself read-only. -/
structure Drive where
  id : Word64
  fails : Nat
  label : Option CrtLabel
  images : List (Nat × FwImage)
  used : Nat
  units : Nat
  readOnly : Bool
  deriving DecidableEq, Repr

/-- A group record (R391): device number, group tag, rack code, the head's device number and the addresses of its vents. -/
structure GroupRecord where
  dev : Nat
  tag : Nat
  rack : Nat
  head : Nat
  headMacs : List Nat
  deriving DecidableEq, Repr

/-- A member of the group as SVC_GROUP_SET is given it: its group record, its role (Table 12.4), failure domain, MAC address of
its vent 0, first 16 bytes of the digest of its identity certificate, and for each local vent the remote vent that its path entry
names, with the IP address. -/
structure Member where
  record : GroupRecord
  role : Nat
  fdom : Nat
  mac : Nat
  identity : List (BitVec 8)
  paths : List (Nat × Nat × List (BitVec 8))
  deriving DecidableEq, Repr

/-- What an SPDM request can carry beyond its code (R433): nothing; a number (a slot, a session, a block index); whether
the owner key authenticated the requester, and how a KEY_EXCHANGE arrived. -/
structure SpdmArgs where
  session : Option Nat
  num : Nat
  ownerAuth : Bool
  valid : Bool
  deriving DecidableEq, Repr

/-- A path entry that SVC_ZRT_PEER_SET is given (Table 7.6): local vent, remote vent, flags, window, UDP port and address. -/
structure PathEntry where
  vent : Nat
  rvent : Nat
  ipv6 : Bool
  jumbo : Bool
  ecn : Bool
  window : Nat
  port : Nat
  ip : List (BitVec 8)
  deriving DecidableEq, Repr

/-- What firmware finds of a lost device's step (R349): whether a surviving bank has committed it, the surviving positions
whose ESCROW completed OK, and for each survivor the commit increments it holds beyond those it accounts for; and whether what R439 asks
of the replacement holds: the two sinters have authenticated each other, the measurement blocks agree, and it holds a partition of the
same JOB. -/
structure StepFinding where
  committed : Bool
  escrows : Nat
  surplus : List Nat
  migrates : Bool
  deriving DecidableEq, Repr

/-- New grants of a partition (SVC_PART_GRANT, R399): each is given or left as it is; PEERS as a number of 256 bits. -/
structure PartGrant where
  part : Nat
  hbmGib : Option Nat
  larrays : Option Nat
  geyCount : Option Nat
  conduits : Option Nat
  plumes : Option Nat
  peers : Option Nat
  deriving DecidableEq, Repr

/-- The destination of an event stream (R35, R36): the device-wide conduit of TOP_EVT_DEST, or a partition's event conduit. -/
inductive EvtDest where
  | device
  | part (p : Nat)
  deriving DecidableEq, Repr

/-- A PCIe configuration request to a function (R475, R401, R412): a read, or a write of MSI-X Enable, of the MSI-X Function Mask,
of the power state (`true`: D3hot), or of VF Enable to 1. -/
inductive ConfigReq where
  | read
  | msixEnable (on : Bool)
  | functionMask (on : Bool)
  | power (d3hot : Bool)
  | vfEnable
  deriving DecidableEq, Repr

/-- What SVC_VNT_SET is given of a vent, and what firmware's resolution finds: VNT_CTL's AN_EN, PMD and MODE, the MAC address, VNT_MAC_CFG,
the IP addresses, start thresholds by queue, and the next hop of each port, where it resolves. -/
structure VentSetup where
  vent : Nat
  ctl : BitVec 32
  mac : BitVec 64
  macCfg : BitVec 32
  ip4 : BitVec 32
  ip6Hi : BitVec 64
  ip6Lo : BitVec 64
  thresh : List (Nat × BitVec 32)
  hops : List (Option Nat)
  deriving DecidableEq, Repr

/-- A command. -/
inductive Instr where
  /-- NOP (R93): Runen CTL instruction that does nothing and completes in class S1. -/
  | nop (n : Nat) (f : Fields)
  /-- JMP (R106): Unconditional branch by a signed offset of 16-byte instructions, starting a new group at the target. -/
  | jmp (n : Nat) (f : Fields)
  /-- JMPR (R106): Branch to the address held in a scalar register, starting a new group at the target. -/
  | jmpr (n : Nat) (f : Fields)
  /-- BR_EQ (R106): Branch taken when two scalars are equal. -/
  | brEq (n : Nat) (f : Fields)
  /-- BR_NE (R106): Branch taken when two scalars differ. -/
  | brNe (n : Nat) (f : Fields)
  /-- BR_LT (R106): Branch taken when the first scalar is less than the second, signed. -/
  | brLt (n : Nat) (f : Fields)
  /-- BR_GE (R106): Branch taken when the first scalar is at least the second, signed. -/
  | brGe (n : Nat) (f : Fields)
  /-- BR_LTU (R106): Branch taken when the first scalar is less than the second, unsigned. -/
  | brLtu (n : Nat) (f : Fields)
  /-- BR_GEU (R106): Branch taken when the first scalar is at least the second, unsigned. -/
  | brGeu (n : Nat) (f : Fields)
  /-- HALT (R107): Stops the array with reason HALT once its group has committed and released operations complete, unless the wake latch is set. -/
  | halt (n : Nat) (f : Fields)
  /-- BRK (R107): Stops the array with reason BRK and reports its code in ARRAY_STOPPED. -/
  | brk (n : Nat) (f : Fields)
  /-- YIELD (R107): Commits and stops issue until any pending preemption of the array has been carried out. -/
  | yield (n : Nat) (f : Fields)
  /-- ADD (R105): Scalar addition modulo 2^64. -/
  | add (n : Nat) (f : Fields)
  /-- SUB (R105): Scalar subtraction modulo 2^64. -/
  | sub (n : Nat) (f : Fields)
  /-- MUL (R105): Scalar multiplication, low 64 bits. -/
  | mul (n : Nat) (f : Fields)
  /-- MULH (R105): High 64 bits of the signed 128-bit product. -/
  | mulh (n : Nat) (f : Fields)
  /-- AND (R105): Scalar bitwise AND. -/
  | and (n : Nat) (f : Fields)
  /-- OR (R105): Scalar bitwise OR. -/
  | or (n : Nat) (f : Fields)
  /-- XOR (R105): Scalar bitwise XOR. -/
  | xor (n : Nat) (f : Fields)
  /-- SHL (R105): Scalar shift left by the low 6 bits of the count. -/
  | shl (n : Nat) (f : Fields)
  /-- SHR (R105): Scalar logical shift right by the low 6 bits of the count. -/
  | shr (n : Nat) (f : Fields)
  /-- SRA (R105): Scalar arithmetic shift right by the low 6 bits of the count. -/
  | sra (n : Nat) (f : Fields)
  /-- MIN (R105): Signed scalar minimum. -/
  | min (n : Nat) (f : Fields)
  /-- MAX (R105): Signed scalar maximum. -/
  | max (n : Nat) (f : Fields)
  /-- MINU (R105): Unsigned scalar minimum. -/
  | minu (n : Nat) (f : Fields)
  /-- MAXU (R105): Unsigned scalar maximum. -/
  | maxu (n : Nat) (f : Fields)
  /-- MOVI (R105): Places the immediate in a scalar register. -/
  | movi (n : Nat) (f : Fields)
  /-- SLT (R105): Signed set-less-than into a scalar register. -/
  | slt (n : Nat) (f : Fields)
  /-- SLTU (R105): Unsigned set-less-than into a scalar register. -/
  | sltu (n : Nat) (f : Fields)
  /-- AADD (R105): Adds a scalar or immediate to an address register. -/
  | aadd (n : Nat) (f : Fields)
  /-- AMOV (R105): Copies an address or scalar register into an address register. -/
  | amov (n : Nat) (f : Fields)
  /-- ASET (R105): Sets an address register from the immediate. -/
  | aset (n : Nat) (f : Fields)
  /-- AFAB (R105): Builds a fabric address from a local address, device number and partition. -/
  | afab (n : Nat) (f : Fields)
  /-- SMOV (R105): Copies an address register into a scalar register. -/
  | smov (n : Nat) (f : Fields)
  /-- SREG_RD (R85): Reads a special register by number into a scalar register. -/
  | sregRd (n : Nat) (f : Fields)
  /-- SREG_WR (R85): Writes a special register by number; RO targets are ignored. -/
  | sregWr (n : Nat) (f : Fields)
  /-- VL_SET (R167): Sets VL to the smaller of the source and 256 and returns the new VL. -/
  | vlSet (n : Nat) (f : Fields)
  /-- OC_LOAD (R108): Copies strided rows from HBM into the operand cache, released at commit. -/
  | ocLoad (n : Nat) (f : Fields)
  /-- OC_STORE (R108): Copies packed operand-cache rows to strided HBM rows, released at commit. -/
  | ocStore (n : Nat) (f : Fields)
  /-- OC_PREF (R108): As OC.LOAD with HBM reads in the bubble service class. -/
  | ocPref (n : Nat) (f : Fields)
  /-- OC_EVICT (R108): As OC.STORE, then sets the source operand-cache range to zero. -/
  | ocEvict (n : Nat) (f : Fields)
  /-- VLD (R109): Loads VL lanes of a vector register from the operand cache. -/
  | vld (n : Nat) (f : Fields) (u : List LineUpset)
  /-- VST (R109): Stores VL lanes of a vector register to the operand cache. -/
  | vst (n : Nat) (f : Fields)
  /-- SLD (R109): Loads 1, 2, 4 or 8 bytes into a scalar register. -/
  | sld (n : Nat) (f : Fields) (u : List LineUpset)
  /-- SST (R109): Stores 1, 2, 4 or 8 bytes of a scalar register. -/
  | sst (n : Nat) (f : Fields)
  /-- PLD (R109): Loads a 128-byte predicate register. -/
  | pld (n : Nat) (f : Fields) (u : List LineUpset)
  /-- PST (R109): Stores a 128-byte predicate register. -/
  | pst (n : Nat) (f : Fields)
  /-- MMA (R133): Adds a tile product into an accumulator slot or entries, group sum by group sum in ascending K. -/
  | mma (n : Nat) (f : Fields) (u : List LineUpset) (m : MmaUpset)
  /-- ACC_OPEN (R144): Opens a closed accumulation group over named slots or entries and marks its lines zero. -/
  | accOpen (n : Nat) (f : Fields)
  /-- ACC_CLOSE (R145): Waits for earlier operations on the group, marks its lines zero and closes it. -/
  | accClose (n : Nat) (f : Fields)
  /-- ACC_DRAIN (R151): Queues a drain that converts slot or entry elements and writes them to HBM or the operand cache. -/
  | accDrain (n : Nat) (f : Fields)
  /-- DRAIN_START (R150): A queued drain begins reading rows once the updates it waits for have landed. -/
  | drainStart (n : Nat) (corrected uncorrectable : List Nat)
  /-- VADD (R172): Vector addition of active elements. -/
  | vadd (n : Nat) (f : Fields)
  /-- VSUB (R172): Vector subtraction of active elements. -/
  | vsub (n : Nat) (f : Fields)
  /-- VMUL (R172): Vector multiplication of active elements. -/
  | vmul (n : Nat) (f : Fields)
  /-- VFMA (R172): Vector fused multiply-add with one rounding. -/
  | vfma (n : Nat) (f : Fields)
  /-- VFMS (R172): Vector fused multiply-subtract with one rounding. -/
  | vfms (n : Nat) (f : Fields)
  /-- VMIN (R172): Vector IEEE minimum. -/
  | vmin (n : Nat) (f : Fields)
  /-- VMAX (R172): Vector IEEE maximum. -/
  | vmax (n : Nat) (f : Fields)
  /-- VABS (R172): Vector absolute value. -/
  | vabs (n : Nat) (f : Fields)
  /-- VNEG (R172): Vector negation. -/
  | vneg (n : Nat) (f : Fields)
  /-- VAND (R172): Vector bitwise AND. -/
  | vand (n : Nat) (f : Fields)
  /-- VOR (R172): Vector bitwise OR. -/
  | vor (n : Nat) (f : Fields)
  /-- VXOR (R172): Vector bitwise XOR. -/
  | vxor (n : Nat) (f : Fields)
  /-- VSHL (R172): Vector INT32 shift left. -/
  | vshl (n : Nat) (f : Fields)
  /-- VSHR (R172): Vector INT32 arithmetic shift right. -/
  | vshr (n : Nat) (f : Fields)
  /-- VSEL (R172): Vector select by a predicate. -/
  | vsel (n : Nat) (f : Fields)
  /-- VDUP (R172): Broadcasts a scalar into active elements. -/
  | vdup (n : Nat) (f : Fields)
  /-- VDIV (R172): Correctly rounded vector division. -/
  | vdiv (n : Nat) (f : Fields)
  /-- VRCP (R172): Correctly rounded vector reciprocal. -/
  | vrcp (n : Nat) (f : Fields)
  /-- VSQRT (R172): Correctly rounded vector square root. -/
  | vsqrt (n : Nat) (f : Fields)
  /-- VRSQ (R172): Correctly rounded vector reciprocal square root. -/
  | vrsq (n : Nat) (f : Fields)
  /-- VEXP2 (R172): Correctly rounded vector base-2 exponential. -/
  | vexp2 (n : Nat) (f : Fields)
  /-- VLOG2 (R172): Correctly rounded vector base-2 logarithm. -/
  | vlog2 (n : Nat) (f : Fields)
  /-- VCMP_EQ (R172): Vector equality compare into a predicate. -/
  | vcmpEq (n : Nat) (f : Fields)
  /-- VCMP_LT (R172): Vector less-than compare into a predicate. -/
  | vcmpLt (n : Nat) (f : Fields)
  /-- VCMP_LE (R172): Vector less-or-equal compare into a predicate. -/
  | vcmpLe (n : Nat) (f : Fields)
  /-- PERM (R176): Permutes elements by index, filling out-of-range indices with VFILL. -/
  | perm (n : Nat) (f : Fields)
  /-- SHUF (R177): Applies a fixed shuffle pattern over one or two sources. -/
  | shuf (n : Nat) (f : Fields)
  /-- PACK (R178): Narrows elements by taking one half of their bits. -/
  | pack (n : Nat) (f : Fields)
  /-- UNPACK (R179): Widens half-width elements by zero, sign or high placement. -/
  | unpack (n : Nat) (f : Fields)
  /-- BCAST_ROW (R180): Combines each tile row with a vector indexed by column. -/
  | bcastRow (n : Nat) (f : Fields) (u : List LineUpset)
  /-- BCAST_COL (R180): Combines each tile row with a vector element indexed by row. -/
  | bcastCol (n : Nat) (f : Fields) (u : List LineUpset)
  /-- VRED_SUM (R174): Exact sum of active elements rounded once into a scalar. -/
  | vredSum (n : Nat) (f : Fields)
  /-- VRED_MAX (R174): Largest active element into a scalar. -/
  | vredMax (n : Nat) (f : Fields)
  /-- VRED_MIN (R174): Smallest active element into a scalar. -/
  | vredMin (n : Nat) (f : Fields)
  /-- VRED_AMAX (R174): Largest magnitude of active elements into a scalar. -/
  | vredAmax (n : Nat) (f : Fields)
  /-- CVT (R183): Register-form conversion of elements 0 to VL-1 between formats. -/
  | cvt (n : Nat) (f : Fields)
  /-- CVT_T (R184): Tile-form conversion of C consecutive operand-cache elements, with optional amax capture. -/
  | cvtT (n : Nat) (f : Fields) (u : List LineUpset)
  /-- EPROG_LOAD (R192): Checks an element program image and binds it to a program slot. -/
  | eprogLoad (n : Nat) (f : Fields) (u : List LineUpset)
  /-- EPROG_RUN (R194): Runs a bound element program over the streams of an operand list. -/
  | eprogRun (n : Nat) (f : Fields) (u : List LineUpset)
  /-- SCALE_PICK (R317): Chooses a power-of-two tensor scale from the amax history of a record. -/
  | scalePick (n : Nat) (f : Fields)
  /-- GEY_INC (R115): Releases at commit an increment of a geyser through the remote-operation conduit. -/
  | geyInc (n : Nat) (f : Fields)
  /-- GEY_WAIT (R115): Waits until a geyser count is at least a value. -/
  | geyWait (n : Nat) (f : Fields)
  /-- GEY_READ (R115): Returns a geyser count after 40 array cycles. -/
  | geyRead (n : Nat) (f : Fields)
  /-- CND_POST (R116): Takes a producer credit and posts a 64-byte entry at commit, waiting or failing with TRY. -/
  | cndPost (n : Nat) (f : Fields)
  /-- CND_TAKE (R222): Claims the next entry of a conduit, waiting or failing with TRY, delivering it at commit. -/
  | cndTake (n : Nat) (f : Fields)
  /-- PUT (R241): Remote write of a byte range to a fabric address. -/
  | put (n : Nat) (f : Fields)
  /-- GET (R241): Remote read of a byte range from a fabric address into local memory. -/
  | get (n : Nat) (f : Fields)
  /-- ATOM_ADD (R241): Remote atomic addition returning the old value. -/
  | atomAdd (n : Nat) (f : Fields)
  /-- ATOM_MIN (R241): Remote atomic minimum returning the old value. -/
  | atomMin (n : Nat) (f : Fields)
  /-- ATOM_MAX (R241): Remote atomic maximum returning the old value. -/
  | atomMax (n : Nat) (f : Fields)
  /-- ATOM_SWAP (R241): Remote atomic swap returning the old value. -/
  | atomSwap (n : Nat) (f : Fields)
  /-- ATOM_CAS (R241): Remote compare-and-swap returning the old value. -/
  | atomCas (n : Nat) (f : Fields)
  /-- FENCE (R117): Waits until earlier operations of the array in the selected scopes have finished. -/
  | fence (n : Nat) (f : Fields)
  /-- GROUP_COMMIT (R96): When every instruction of a group has completed, discards its checkpoint, applies buffered writes and releases deferred operations. -/
  | groupCommit (n : Nat)
  /-- DEFERRED_RELEASE (R97): A deferred operation waiting for a credit is released once the credit is available. -/
  | deferredRelease (n : Nat)
  /-- TRANSIENT_UPSET (R101): A detected upset in the sequencer, scalar, vector or operand-cache path replays the uncommitted group. -/
  | transientUpset (n : Nat)
  /-- PREEMPTION_REQUEST (R123): Firmware asks an array to switch contexts; issue stops at a group boundary and the outgoing context is saved. -/
  | preemptionRequest (n part larray : Nat)
  /-- CONTEXT_RESTORE (R126): Reloads a saved context image and resumes it in its saved state. -/
  | contextRestore (save : SwitchSave)
  /-- ARR_CTL_START (R84): In IDLE, STOPPED or FAULTED, sets architectural registers and starts at ARR_PC. -/
  | arrCtlStart (rq : Requester) (n : Nat)
  /-- ARR_CTL_RESUME (R87): In STOPPED or FAULTED, invalidates the instruction cache and resumes at ARR_PC. -/
  | arrCtlResume (rq : Requester) (n : Nat)
  /-- ARR_CTL_STOP (R123): Stops the array at a group boundary with reason STOP. -/
  | arrCtlStop (rq : Requester) (n : Nat)
  /-- ARR_CTL_STEP (R94): In STOPPED, runs one group and stops with reason STEP. -/
  | arrCtlStep (rq : Requester) (n : Nat)
  /-- ARR_CTL_SAVE (R125): In STOPPED or FAULTED, writes the registers-only context image. -/
  | arrCtlSave (rq : Requester) (n : Nat)
  /-- AUTO_IDLE_TIMEOUT (R461): An island whose arrays have been idle for 100 µs has its array clocks stopped. -/
  | autoIdleTimeout (isl : Nat)
  /-- REGISTER_WRITE (R4): A write to a register without a row of its own, applied by field type, lock, grant and width checks. -/
  | registerWrite (rq : Requester) (bar0 : Bool) (off width : Nat) (value : BitVec 64)
  /-- REGISTER_READ_CLEARING (R6): A read of a register with RC fields, or a latched 64-bit half, returns and clears or latches. -/
  | registerReadClearing (rq : Requester) (bar0 : Bool) (off width : Nat)
  /-- EVENT_RECORD_POST (R36): An event source posts its waiting record to the destination conduit once it holds a credit. -/
  | eventRecordPost (source : Nat) (dest : EvtDest)
  /-- EVENT_CREDIT_TIMEOUT (R38): A record waiting over 100 µs for a credit is discarded and counted for a later EVENTS_LOST. -/
  | eventCreditTimeout (source : Nat) (dest : EvtDest)
  /-- HBM_LINE_ACCESS (R206): An HBM controller applies one line access, with ECC, integrity and poison handling. -/
  | hbmLineAccess (part addr : Nat) (op : LineOp) (c : LineCheck)
  /-- PATROL_SCRUB (R209): The patrol scrubber reads a line, writes back corrections and poisons what it cannot correct. -/
  | patrolScrub (st line : Nat) (c : LineCheck)
  /-- PC_RETIREMENT_COPY_END (R211): The redirection copy after a pseudo-channel retirement ends and the removed segment is lost. -/
  | pcRetirementCopyEnd (st : Nat) (corrected poisoned : List Nat)
  /-- GEY_INCREMENT_APPLY (R228): The geyser block applies an increment, re-checks waiters and evaluates firing. -/
  | geyIncrementApply
  /-- GEY_REGISTER_WRITE (R234): A write to GEY_COUNT, GEY_TARGET or GEY_ACT0 takes effect at once and re-evaluates firing. -/
  | geyRegisterWrite (rq : Requester) (g which : Nat) (value : BitVec 64)
  /-- GEY_POST_ACTION (R231): A pending POST action posts its entry once a credit is free and later firings proceed. -/
  | geyPostAction (g : Nat)
  /-- CND_CMD_POST (R220): Bank command that posts CND_POST_DATA to a conduit as with TRY. -/
  | cndCmdPost (rq : Requester) (p c : Nat)
  /-- CND_CMD_TAKE (R220): Bank command that takes one entry into CND_TAKE_DATA as with TRY. -/
  | cndCmdTake (rq : Requester) (p c : Nat)
  /-- CND_FLUSH_WRITEBACK (R224): Writes back one or all cached conduit contexts to the table. -/
  | cndFlushWriteback (rq : Requester) (all : Bool) (c : Nat)
  /-- CND_FLUSH_HOLD (R225): Writes back and holds one or all conduits uncached so operations wait. -/
  | cndFlushHold (rq : Requester) (all : Bool) (c : Nat)
  /-- CND_FLUSH_RELEASE (R225): Releases one or all held conduits so waiting operations proceed. -/
  | cndFlushRelease (rq : Requester) (all : Bool) (c : Nat)
  /-- RMO_ENTRY_TAKE (R245): The conduit engine takes a remote-operation entry when it can track it, and performs or sends it. -/
  | rmoEntryTake (take : EntryTake)
  /-- RMO_COMPLETE (R251): An operation completes, posting its completion record and incrementing the GINC geyser. -/
  | rmoComplete (id : Nat)
  /-- ZRT_FRAME_SEND (R263): A DATA frame is sent on its path once window and rate allow. -/
  | zrtFrameSend (d v k : Nat)
  /-- ZRT_DATA (R261): A received DATA frame is performed in PSN order, pooled or discarded as a duplicate. -/
  | zrtData (v : Nat) (f : ZrtFrame)
  /-- ZRT_ACK (R263): A received ACK releases acknowledged frames and resends SACK gaps. -/
  | zrtAck (v : Nat) (f : ZrtFrame)
  /-- ZRT_OPEN (R266): A received OPEN sets the new epoch, answers OPEN_ACK and detects a peer restart. -/
  | zrtOpen (v : Nat) (f : ZrtFrame)
  /-- ZRT_OPEN_ACK (R266): A received OPEN_ACK adopts its epoch and brings the path UP. -/
  | zrtOpenAck (v : Nat) (f : ZrtFrame)
  /-- ZRT_CLOSE (R267): A received CLOSE stops an old epoch and answers with CLOSE_ACK. -/
  | zrtClose (v : Nat) (f : ZrtFrame)
  /-- ZRT_CLOSE_ACK (R267): A received CLOSE_ACK lets unperformed parts be resent on the new path. -/
  | zrtCloseAck (v : Nat) (f : ZrtFrame)
  /-- ZRT_PROBE (R265): A received PROBE is answered with PROBE_REPLY. -/
  | zrtProbe (v : Nat) (f : ZrtFrame)
  /-- ZRT_PROBE_REPLY (R265): A received PROBE_REPLY counts as a frame received. -/
  | zrtProbeReply (v : Nat) (f : ZrtFrame)
  /-- RTO_EXPIRY (R263): On retransmission timeout the lowest unacknowledged frame is resent, RTO doubled and rate halved, or the path goes DOWN. -/
  | rtoExpiry (d v : Nat)
  /-- ACK_DELAY_EXPIRY (R262): The receiver sends an ACK when ACK_DELAY passes. -/
  | ackDelayExpiry (d v : Nat)
  /-- RATE_PERIOD_TICK (R264): Each RATE_PERIOD without ECN echo decays alpha and raises the rate. -/
  | ratePeriodTick (d v : Nat)
  /-- PROBE_INTERVAL_TICK (R265): An OPENING or DOWN path sends OPEN every PROBE_INTERVAL. -/
  | probeIntervalTick (d v : Nat)
  /-- PATH_IDLE_PROBE (R265): An idle UP path silent for 4 probe intervals sends PROBE. -/
  | pathIdleProbe (d v : Nat)
  /-- OP_TIMEOUT_EXPIRY (R268): An operation outstanding for OP_TIMEOUT completes with TIMEOUT. -/
  | opTimeoutExpiry (id : Nat)
  /-- PATH_ENTRY_VALID (R265): A path entry made VALID moves from CLOSED to OPENING. -/
  | pathEntryValid (d v : Nat)
  /-- PATH_ENTRY_INVALID (R265): A path entry made not VALID closes and migrates or fails its operations. -/
  | pathEntryInvalid (d v : Nat)
  /-- RS (R282): Plume reduce-scatter of buckets delivering owned chunks. -/
  | rs (k : Nat)
  /-- AG (R294): Plume all-gather of owned chunks at the current version. -/
  | ag (k : Nat)
  /-- GATHER (R293): Plume pull of chunks at a named version. -/
  | gather (k : Nat) (reply : Option (Nat × Nat × Option Nat))
  /-- AR (R279): Plume all-reduce delivering whole reduced buckets to every position. -/
  | ar (k : Nat)
  /-- BCAST (R275): Plume broadcast of one position's contribution to every OUT. -/
  | bcast (k : Nat)
  /-- RELEASE (R292): Plume operation sending the step's RELEASE token when a geyser reaches its value. -/
  | release (k : Nat)
  /-- ESCROW (R312): Plume operation sending owned reduced chunks to the buddy's escrow half. -/
  | escrow (k : Nat)
  /-- PERMUTE (R296): Plume operation re-sharding the job onto a new ring. -/
  | permute (k : Nat) (z : PlmReshard) (join : Option (Nat × Nat × Nat))
  /-- WAIT (R275): Plume operation waiting until a geyser reaches its step-scaled value. -/
  | wait (k : Nat)
  /-- SIGNAL (R275): Plume operation incrementing a geyser. -/
  | signal (k : Nat)
  /-- FLIP (R291): Plume operation making STEP the current version of owned chunks. -/
  | flip (k : Nat)
  /-- LOOP (R276): Plume operation advancing STEP and continuing at operation 0. -/
  | loop (k : Nat)
  /-- END (R275): Plume operation completing the plume. -/
  | endPlume (k : Nat)
  /-- PLM_CTL_START (R274): Reads and checks the descriptor, joins the ring and runs from operation 0. -/
  | plmCtlStart (rq : Requester) (k : Nat)
  /-- PLM_CTL_ABORT (R298): Aborts the running plume. -/
  | plmCtlAbort (rq : Requester) (k : Nat)
  /-- JOIN_RECORD (R274): A neighbour's join record is checked against this position's descriptor CRC. -/
  | joinRecord (k pos id npos : Nat) (crc : BitVec 32)
  /-- PLM_SEGMENT_ARRIVE (R278): A segment landing in a staging slot is placed by its tag, reduced or forwarded, and its slot credited back. -/
  | plmSegmentArrive (k j m : Nat) (rep : Option PlmReport)
  /-- REDUCER_ADD (R277): A reducer's vector engine gives a free cycle to add plume elements. -/
  | reducerAdd (k larray : Nat)
  /-- LATE_DECISION (R285): At the step deadline an unready bucket contribution is marked late. -/
  | lateDecision (k b : Nat)
  /-- POSITION_STATUS_RECORD (R289): An arriving status record contributes to the bucket record and DONE. -/
  | positionStatusRecord (k pos b : Nat) (taken : Bool) (rep : Option PlmReport)
  /-- GATHER_REQUEST (R293): The owner serves an arriving gather request by version or answers SHARD_VERSION. -/
  | gatherRequest (k pos b version addr : Nat)
  /-- VERSION_RETIRE (R292): When RELEASE reaches NPOS×k and REFS is 0, STAGE is copied to HOME and FREE incremented. -/
  | versionRetire (k b : Nat)
  /-- PLM_HOP_TIMEOUT_EXPIRY (R297): A plume wait lasting past its hop timeout breaks the ring. -/
  | plmHopTimeoutExpiry (k pos : Nat)
  /-- PLM_ABORT_NOTICE (R298): An arriving abort notice aborts the local plume. -/
  | plmAbortNotice (k pos : Nat)
  /-- ATTEMPT_BEGIN (R305): The step bank begins an attempt when BEGIN_GEY exceeds the attempts begun. -/
  | attemptBegin (j : Nat)
  /-- ATTEMPT_COMMIT (R306): The step bank commits when COMMIT_GEY reaches its target, logging and walking the amax table. -/
  | attemptCommit (j : Nat)
  /-- ATTEMPT_ABORT (R307): A rise of ABORT_GEY or NAY_GEY aborts the open attempt and the plume. -/
  | attemptAbort (j : Nat)
  /-- PRF_STEP_ENABLE (R304): Setting or clearing ENABLE of a step bank resets its geysers or aborts the open attempt. -/
  | prfStepEnable (rq : Requester) (j : Nat) (value : BitVec 32)
  /-- APPEND_DESCRIPTOR (R328): An announced append descriptor is read and accepted or rejected. -/
  | appendDescriptor (p : Nat)
  /-- LOG_RECORD_ACCEPT (R330): A record is placed in the log buffer with its LSN once space is free. -/
  | logRecordAccept
  /-- LOG_BLOCK_WRITTEN (R332): A 64 KiB log block write to the cartridge completes. -/
  | logBlockWritten
  /-- MIRROR_BLOCK_ARRIVE (R332): The mirror device writes an arriving log block to its mirror area. -/
  | mirrorBlockArrive (origin first : Nat) (data : List (BitVec 8))
  /-- MIRROR_ACK (R332): The mirror's acknowledgement makes records durable and signals DURABLE_GEY. -/
  | mirrorAck (first : Nat)
  /-- MIRROR_TIMEOUT (R333): After 1 s without acknowledgement the log counts local writes as durable. -/
  | mirrorTimeout
  /-- SNAPSHOT_DRAIN_END (R344): A draining snapshot becomes durable and its SNAPSHOT record is appended. -/
  | snapshotDrainEnd
  /-- UPSET_WINDOW_END (R354): At each counting window boundary the upset counts clear. -/
  | upsetWindowEnd
  /-- ARRAY_REFILL (R355): Firmware maps a retired array's logical arrays onto a spare within 2 ms. -/
  | arrayRefill
  /-- FRAME_RECEIVE (R364): A received Ethernet frame is checked and classified to ZRT, firmware, sinter or discard. -/
  | frameReceive (v n : Nat) (f : RxFrame)
  /-- FRAME_TRANSMIT_START (R366): A free port starts the eligible head frame of its highest queue. -/
  | frameTransmitStart (v n : Nat) (buffered : List Nat)
  /-- TRANSMIT_UNDERRUN (R368): A missing byte ends the frame with a bad FCS and raises the queue's threshold. -/
  | transmitUnderrun (v n : Nat)
  /-- PORT_LINK_UP (R371): A port completes training and enters UP, charging any retrain to a lane. -/
  | portLinkUp (v n : Nat) (failed : Option Nat)
  /-- PORT_LINK_DOWN (R371): A port loses signal, lock or FEC and leaves UP, flushing queues and moving paths. -/
  | portLinkDown (v n cause : Nat) (errs : List Nat)
  /-- VNT_ENABLE (R362): Setting ENABLE starts training on every port; clearing it takes every port down. -/
  | vntEnable (rq : Requester) (v : Nat) (on : Bool)
  /-- VNT_CTL_RESET (R381): Vent reset through VNT_CTL. -/
  | vntCtlReset (rq : Requester) (v : Nat)
  /-- VNT_PTP_FIFO_POP (R376): Removes the head entry of the timestamp FIFO. -/
  | vntPtpFifoPop (rq : Requester) (v : Nat)
  /-- WAKE_DETECTOR_ARM (R378): After QUIET ms of absent signal in the dormant state the detector arms. -/
  | wakeDetectorArm
  /-- WAKE_PATTERN_MATCH (R380): A completed wake match wakes the device and records its cause. -/
  | wakePatternMatch (bursts : List (Nat × Nat))
  /-- APERTURE_READ (R386): A host read through BAR4 returns partition memory or an error completion. -/
  | apertureRead (f off len : Nat) (ide : Option Nat)
  /-- APERTURE_WRITE (R386): A host write through BAR4 is performed in order or dropped. -/
  | apertureWrite (f off : Nat) (data : List Byte) (ide : Option Nat)
  /-- PCI_GEY_INC (R388): Adds an amount to a geyser after earlier aperture writes. -/
  | pciGeyInc (f g amount : Nat)
  /-- PCIE_CONFIG_REQUEST (R475): A configuration request is answered, with Request Retry Status until start-up ends. -/
  | pcieConfigRequest (f : Nat) (r : ConfigReq)
  /-- PCIE_LINK_UP (R390): The PCIe link trains to L0 and the device becomes the head. -/
  | pcieLinkUp (gen width : Nat)
  /-- PCIE_LINK_DOWN (R405): The PCIe link goes down, clearing host-side channels. -/
  | pcieLinkDown
  /-- PERST_N (R405): Assertion holds the endpoint in fundamental reset until deassertion. -/
  | perstN
  /-- HOT_RESET (R470): In-band hot reset or link disable acts as PERST_N. -/
  | hotReset
  /-- FLR (R402): A function-level reset resets the function's partition in order. -/
  | flr (f : Nat)
  /-- VF_ENABLE_CLEAR (R405): Clearing VF Enable refuses VF channels and resets VF state. -/
  | vfEnableClear
  /-- IRQ_COALESCE_EXPIRY (R401): MAX_DELAY after the first held signal, one MSI-X message is sent. -/
  | irqCoalesceExpiry (f v : Nat)
  /-- MBX_GO (R411): The sender posts a mailbox message, or it is refused. -/
  | mbxGo (c len : Nat) (words : List (BitVec 32))
  /-- MBX_TAKE (R411): The receiver takes the posted message and SEQ advances. -/
  | mbxTake (c : Nat)
  /-- MBX_TIMEOUT_EXPIRY (R412): A message not taken within MBX_TIMEOUT is aborted with reason 2. -/
  | mbxTimeoutExpiry (c : Nat)
  /-- DBL_RING (R414): Sets user doorbell pending bits of a host inbox. -/
  | dblRing (rq : Requester) (f : Nat) (bells : BitVec 16)
  /-- REPLY_POST (R416): A queued reply or notice is posted when the reply channel is free. -/
  | replyPost (p : Nat) (sinter : Bool)
  /-- FORWARDED_REPLY (R393): A reply from a member to a forwarded call is returned to the caller. -/
  | forwardedReply (p tag status : Nat) (words : List (BitVec 32))
  /-- SVC_DEVICE_SET (R7): Writes device number and rack code, then sets TOP_LOCK. -/
  | svcDeviceSet (c : Caller) (dev rack : Nat)
  /-- SVC_EVENT_ROUTE (R35): Creates partition 0's event conduit and writes TOP_EVT_DEST. -/
  | svcEventRoute (c : Caller) (ring log2 : Nat)
  /-- SVC_DEVICE_QUERY (R44): Returns identity, counts, domains and service level. -/
  | svcDeviceQuery (c : Caller)
  /-- SVC_NUM_QUERY (R79): Returns NUM_FLAGS and NUM_FIRST and optionally clears exactly those. -/
  | svcNumQuery (c : Caller) (bank : Nat) (clear : Bool)
  /-- SVC_NUM_EVENT_SET (R80): Checks the event conduit and writes NUM_EVT_MASK. -/
  | svcNumEventSet (c : Caller) (bank mask : Nat)
  /-- SVC_AMAX_TABLE_SET (R314): Checks, empties and enables the partition's amax table. -/
  | svcAmaxTableSet (c : Caller) (bank base countM1 : Nat)
  /-- SVC_ARRAY_LOAD (R87): Copies a .runen.text section into the caller's HBM. -/
  | svcArrayLoad (c : Caller) (src len dst : Nat)
  /-- SVC_ARRAY_START (R84): Checks and writes PC, context and start conduit, then starts the array. -/
  | svcArrayStart (c : Caller) (l pc cnd : Nat)
  /-- SVC_ARRAY_STOP (R123): Stops the array and completes when it is no longer running. -/
  | svcArrayStop (c : Caller) (l : Nat)
  /-- SVC_ARRAY_RESUME (R126): Checks state, optionally writes PC, and resumes the array. -/
  | svcArrayResume (c : Caller) (l : Nat) (pc : Option Nat)
  /-- SVC_ARRAY_QUERY (R129): Returns sequencer status, PC, fault and replay count. -/
  | svcArrayQuery (c : Caller) (l : Nat)
  /-- SVC_ARRAY_DUMP (R125): Stops the array if needed, saves its image and returns its address. -/
  | svcArrayDump (c : Caller) (l : Nat)
  /-- SVC_ACC_RESERVE (R139): Sets a context's accumulator reservation. -/
  | svcAccReserve (c : Caller) (p l first count : Nat)
  /-- SVC_ACC_QUERY (R143): Returns accumulator status and group registers. -/
  | svcAccQuery (c : Caller) (l : Nat)
  /-- SVC_ACC_DEBUG_READ (R162): Copies accumulator lines through the debug window into HBM. -/
  | svcAccDebugRead (c : Caller) (l first count : Nat) (buf : DebugBuffer)
  /-- SVC_EPROG_CHECK (R192): Checks an element program image without loading it. -/
  | svcEprogCheck (c : Caller) (addr : Nat)
  /-- SVC_OC_QUERY (R201): Returns vector engine and operand-cache status registers. -/
  | svcOcQuery (c : Caller) (l : Nat)
  /-- SVC_OC_SCRUB (R199): Stops the array, zeroes its reservation and unbinds its programs. -/
  | svcOcScrub (c : Caller) (l : Nat)
  /-- SVC_HBM_QUERY (R210): Returns HBM status, maps, error counts and lost segments. -/
  | svcHbmQuery (c : Caller) (buf : Nat)
  /-- SVC_OC_RESERVE (R215): Sets a logical array's operand-cache reservation. -/
  | svcOcReserve (c : Caller) (p l first units : Nat)
  /-- SVC_CND_CREATE (R219): Allocates, checks and creates a conduit. -/
  | svcCndCreate (c : Caller) (kind log2 ring cls : Nat) (notify : Option Nat)
  /-- SVC_CND_DESTROY (R226): Destroys a conduit and returns DROPPED. -/
  | svcCndDestroy (c : Caller) (d : Nat)
  /-- SVC_CND_QUERY (R221): Flushes and returns a conduit descriptor. -/
  | svcCndQuery (c : Caller) (d : Nat)
  /-- SVC_GEY_SET (R229): Checks and writes a geyser's target and actions, ARMED last. -/
  | svcGeySet (c : Caller) (g : Nat) (target act0 act1 : BitVec 64)
  /-- SVC_GEY_QUERY (R227): Returns the registers of named geysers. -/
  | svcGeyQuery (c : Caller) (first count buf : Nat)
  /-- SVC_ZRT_SET (R257): Writes the ZRT configuration with ENABLE last. -/
  | svcZrtSet (c : Caller) (base pool : BitVec 64) (rto limits ack rate group cfg : BitVec 32)
  /-- SVC_ZRT_PEER_SET (R255): Writes a peer's path entries and waits for them to come UP. -/
  | svcZrtPeerSet (c : Caller) (d : Nat) (l : List PathEntry)
  /-- SVC_ZRT_PEER_QUERY (R254): Returns a peer's path entries and reachability. -/
  | svcZrtPeerQuery (c : Caller) (d buf : Nat)
  /-- SVC_RMO_SUBMIT (R240): Issues a remote operation on behalf of the host. -/
  | svcRmoSubmit (c : Caller) (opc fmt len fabric loc : Nat) (operand compare cw : BitVec 64)
  /-- SVC_RMO_ABORT (R252): Aborts one or all outstanding operations of a conduit. -/
  | svcRmoAbort (c : Caller) (d : Nat) (tag : Option Nat) (buf : Nat)
  /-- SVC_PLM_CREATE (R273): Allocates and checks a plume slot. -/
  | svcPlmCreate (c : Caller) (quadrant desc : Nat)
  /-- SVC_PLM_START (R274): Writes step registers and starts the plume, completing at join. -/
  | svcPlmStart (c : Caller) (k : Nat) (step : BitVec 64) (deadline hop : Nat)
  /-- SVC_PLM_ABORT (R298): Aborts the plume's running operation. -/
  | svcPlmAbort (c : Caller) (k : Nat)
  /-- SVC_PLM_QUERY (R289): Returns plume status, bucket records and version entries. -/
  | svcPlmQuery (c : Caller) (k first count buf : Nat)
  /-- SVC_PLM_DESTROY (R273): Aborts the plume if running and frees its slot. -/
  | svcPlmDestroy (c : Caller) (k : Nat)
  /-- SVC_PLM_RESHARD (R296): Builds re-shard descriptors and has every plume run PERMUTE. -/
  | svcPlmReshard (c : Caller) (k : Nat) (ring : List (Nat × Nat)) (lost : List Nat) (arrays : List (Nat × Nat × Nat × Nat))
  /-- SVC_STEP_BANK_SET (R304): Assigns a step bank to a partition. -/
  | svcStepBankSet (c : Caller) (p : Nat)
  /-- SVC_STEP_CONFIG (R304): Checks and writes a step bank with ENABLE last. -/
  | svcStepConfig (c : Caller) (cfg : BitVec 32) (gey mark end0 end1 step : BitVec 64)
  /-- SVC_STEP_ABORT (R307): Aborts the open attempt with CAUSE 3. -/
  | svcStepAbort (c : Caller)
  /-- SVC_STEP_QUERY (R319): Returns the bank registers and ring entries. -/
  | svcStepQuery (c : Caller) (first count buf : Nat)
  /-- SVC_AMAX_QUERY (R314): Returns named amax records. -/
  | svcAmaxQuery (c : Caller) (first count buf : Nat)
  /-- SVC_LOG_SET (R332): Configures the tephra logger with ENABLE last. -/
  | svcLogSet (c : Caller) (ctl : BitVec 32) (area buf stage : BitVec 64) (prot thr0 thr1 window : BitVec 32)
  /-- SVC_LOG_APPEND (R328): Appends one record from host data. -/
  | svcLogAppend (c : Caller) (type len addr : Nat)
  /-- SVC_LOG_READ (R335): Returns the caller's records in an LSN range. -/
  | svcLogRead (c : Caller) (first last : Nat) (origin : Option Nat) (buf cap : Nat)
  /-- SVC_BUDDY_SET (R338): Chooses buddies on every member and sets the log mirror. -/
  | svcBuddySet (c : Caller) (k buf : Nat)
  /-- SVC_PROT_SET (R337): Checks the protection table and assigns methods. -/
  | svcProtSet (c : Caller) (base count : Nat)
  /-- SVC_SNAP_TAKE (R342): Takes a snapshot at a step boundary. -/
  | svcSnapTake (c : Caller) (scope : Nat) (group : Bool)
  /-- SVC_SNAP_ABORT (R345): Aborts a snapshot in progress. -/
  | svcSnapAbort (c : Caller)
  /-- SVC_REFILL (R349): Decides the target step and fills or shrinks for a lost device. -/
  | svcRefill (c : Caller) (k lost : Nat) (spare : Option Nat) (step : Nat) (f : StepFinding) (paths : List PathEntry) (arrays : List (Nat × Nat × Nat × Nat))
  /-- SVC_SHADOW_RESTORE (R355): Copies shadow ranges and escrow halves from the buddy. -/
  | svcShadowRestore (c : Caller) (ranges : List (Nat × Nat × List (BitVec 8))) (agree : Bool) (halves : List (Nat × List (BitVec 8)))
  /-- SVC_REPLAY_SET (R347): Builds the replay late list and sets LOG_REPLAY. -/
  | svcReplaySet (c : Caller) (range : Option (Nat × Nat)) (buf : Nat)
  /-- SVC_RETIRE_QUERY (R356): Returns the retirement list. -/
  | svcRetireQuery (c : Caller) (buf : Nat)
  /-- SVC_RETIRE_CLEAR (R356): Removes an entry from the retirement list. -/
  | svcRetireClear (c : Caller) (domain sub : Nat)
  /-- SVC_VNT_SET (R359): Configures vents and enables them. -/
  | svcVntSet (c : Caller) (l : List VentSetup)
  /-- SVC_VNT_QUERY (R383): Returns vent status, counters and lane states. -/
  | svcVntQuery (c : Caller) (vs : List Nat) (buf : Nat)
  /-- SVC_VNT_MACSEC_SET (R373): Configures MACsec, starts MKA and installs SAKs. -/
  | svcVntMacsecSet (c : Caller) (v : Nat) (cfg : BitVec 32) (saks : List (Nat × Nat))
  /-- SVC_PTP_SET (R377): Selects the PTP source and runs the slave clock. -/
  | svcPtpSet (c : Caller) (v port transport domain : Nat)
  /-- SVC_VNT_WAKE_SET (R379): Writes the wake detector registers. -/
  | svcVntWakeSet (c : Caller) (cfg times : BitVec 32)
  /-- SVC_PART_CREATE (R396): Creates a partition from its configuration image. -/
  | svcPartCreate (c : Caller) (image : Nat)
  /-- SVC_PART_DESTROY (R399): Resets and frees a partition. -/
  | svcPartDestroy (c : Caller) (p : Nat)
  /-- SVC_PART_RESET (R404): Resets a named partition, or partially resets partition 0. -/
  | svcPartReset (c : Caller) (p : Nat)
  /-- SVC_PART_QUERY (R394): Returns a PRT bank and array map. -/
  | svcPartQuery (c : Caller) (p buf : Nat)
  /-- SVC_PART_GRANT (R399): Grows or shrinks an active partition's grants. -/
  | svcPartGrant (c : Caller) (g : PartGrant)
  /-- SVC_QOS_SET (R406): Writes QoS weights and scheduling. -/
  | svcQosSet (c : Caller) (p array hbm vent cnd : Nat) (sched : Option (BitVec 32))
  /-- SVC_IRQ_SET (R401): Writes interrupt coalescing and the doorbell vector. -/
  | svcIrqSet (c : Caller) (maxCount maxDelay vector : Nat)
  /-- SVC_GROUP_SET (R391): Writes group records and fills the device table. -/
  | svcGroupSet (c : Caller) (l : List Member)
  /-- SVC_GROUP_QUERY (R392): Copies the device table to the caller. -/
  | svcGroupQuery (c : Caller) (buf : Nat)
  /-- SVC_CALL_ABORT (R417): Aborts a call of the caller's partition by TAG. -/
  | svcCallAbort (c : Caller) (tag : Nat)
  /-- SVC_PERF_SET (R409): Clears usage counters and optionally copies them periodically. -/
  | svcPerfSet (c : Caller) (copy : Option (Nat × Nat))
  /-- SVC_PERF_QUERY (R409): Returns usage counters. -/
  | svcPerfQuery (c : Caller) (p : Nat)
  /-- SVC_DBL_SET (R414): Writes DBL_MASK and clears named pending bits. -/
  | svcDblSet (c : Caller) (mask clear : BitVec 32)
  /-- SVC_SEC_QUERY (R424): Returns SEC registers, seal record digest and key slots. -/
  | svcSecQuery (c : Caller) (buf : Nat)
  /-- SVC_SEC_NONCE (R429): Returns a fresh one-use nonce. -/
  | svcSecNonce (c : Caller)
  /-- SVC_SEC_OWN (R431): Checks the voucher, blows a TRANSFERS fuse and writes the owner record. -/
  | svcSecOwn (c : Caller) (v : Voucher)
  /-- SVC_SEC_RELEASE (R430): Runs the release erase back to PROVISIONED. -/
  | svcSecRelease (c : Caller) (sig : Signed)
  /-- SVC_SEC_LIFECYCLE (R429): Moves to DEBUG_RETURNED or DECOMMISSIONED. -/
  | svcSecLifecycle (c : Caller) (target : Nat) (owner mehrop : Option Signed)
  /-- SVC_SEC_GROUP_KEY (R432): Installs the wrapped group storage key. -/
  | svcSecGroupKey (c : Caller) (sig : Option Signed) (key : Nat)
  /-- SVC_SEC_CAK_SET (R444): Installs a MACsec CAK for named vents. -/
  | svcSecCakSet (c : Caller) (sig : Option Signed) (vs : List Nat)
  /-- SVC_SEC_IMPORT (R438): Decrypts ciphertext under a model key into partition memory. -/
  | svcSecImport (c : Caller) (slot src dst len : Nat) (nonce aad tag : List Byte)
  /-- SVC_SEC_EXPORT (R438): Encrypts partition memory under a model key. -/
  | svcSecExport (c : Caller) (slot src dst len : Nat) (aad : List Byte)
  /-- SVC_SEC_DEBUG_ARM (R446): Verifies and arms a debug token. -/
  | svcSecDebugArm (c : Caller) (t : Token)
  /-- SVC_SEC_DEBUG_DISARM (R446): Disarms the token and clears consents. -/
  | svcSecDebugDisarm (c : Caller)
  /-- GET_VERSION (R433): SPDM request for supported versions. -/
  | getVersion (p : Nat)
  /-- GET_CAPABILITIES (R433): SPDM request for capabilities. -/
  | getCapabilities (p : Nat)
  /-- NEGOTIATE_ALGORITHMS (R433): SPDM algorithm negotiation. -/
  | negotiateAlgorithms (p : Nat)
  /-- GET_DIGESTS (R433): SPDM request for certificate digests. -/
  | getDigests (p : Nat)
  /-- GET_CERTIFICATE (R433): SPDM request for the certificate chain. -/
  | getCertificate (p slot : Nat)
  /-- CHALLENGE (R433): SPDM challenge signed with the attestation key. -/
  | challenge (p slot : Nat)
  /-- GET_MEASUREMENTS (R434): Returns signed measurement blocks. -/
  | getMeasurements (p : Nat) (id : Option Nat) (index : Nat)
  /-- KEY_EXCHANGE (R433): Opens an SPDM session, or answers Busy beyond 16. -/
  | keyExchange (p : Nat)
  /-- FINISH (R433): Completes SPDM session establishment. -/
  | finish (p id : Nat) (valid owner : Bool)
  /-- HEARTBEAT (R433): Keeps an SPDM session alive. -/
  | heartbeat (p id : Nat)
  /-- KEY_UPDATE (R433): Updates SPDM session keys. -/
  | keyUpdate (p id : Nat)
  /-- END_SESSION (R433): Ends an SPDM session. -/
  | endSession (p id : Nat)
  /-- SPDM_FRAGMENT (R436): A sinter-channel fragment of an SPDM message is reassembled. -/
  | spdmFragment (p n : Nat) (first last : Bool) (data : List Byte)
  /-- IDE_KM (R443): Establishes IDE stream keys in an SPDM session. -/
  | ideKm (p id stream : Nat) (limit : Option Nat)
  /-- KEY_IMPORT (R437): Installs a model key or the storage key of the session's partition. -/
  | keyImport (p id slot : Nat) (key : List Byte)
  /-- KEY_DELETE (R437): Erases a model or storage key. -/
  | keyDelete (p id slot : Nat)
  /-- POLICY_SET (R437): Sets the partition policy before sealing. -/
  | policySet (p id first count aperture : Nat) (netExpose migrate : Bool)
  /-- SEAL (R425): Measures text segments and seals the partition. -/
  | seal (p id : Nat)
  /-- CONSENT (R447): Records the tenant's consent to an armed debug token. -/
  | consent (p id digest : Nat)
  /-- CALL (R435): Carries a service call of the partition inside its session. -/
  | call (p id : Nat) (words : List (BitVec 32))
  /-- SVC_CLK_SET (R460): Writes requested island frequencies. -/
  | svcClkSet (c : Caller) (l : List (Nat × Nat)) (buf : Nat)
  /-- SVC_CLK_GATE (R462): Requests gating and completes when it takes effect. -/
  | svcClkGate (c : Caller) (l : List (Nat × Bool))
  /-- SVC_PWR_SET (R464): Writes cap, auto-idle, cooling and thresholds. -/
  | svcPwrSet (c : Caller) (cap : Nat) (autoIdle : Bool) (therm : Option (Bool × BitVec 32))
  /-- SVC_PWR_QUERY (R463): Returns power, temperature and frequency state. -/
  | svcPwrQuery (c : Caller) (buf : Nat)
  /-- SVC_PWR_DORMANT (R469): Enters the dormant state. -/
  | svcPwrDormant (c : Caller)
  /-- SVC_RST_ARRAY (R472): Resets a physical array. -/
  | svcRstArray (c : Caller) (n : Nat)
  /-- SVC_RST_VENT (R381): Resets a vent and waits for its ports. -/
  | svcRstVent (c : Caller) (v : Nat)
  /-- SVC_RST_WARM (R473): Replies OK, then performs a warm firmware reset. -/
  | svcRstWarm (c : Caller)
  /-- SVC_FRZ_SET (R483): Writes freeze configuration and destination. -/
  | svcFrzSet (c : Caller) (cfg : BitVec 32) (mac ipHi ipLo : BitVec 64) (lock : Bool)
  /-- RST_ARRAY_GO (R472): Array reset of a physical array through RST_ARRAY. -/
  | rstArrayGo (rq : Requester) (n : Nat)
  /-- RST_VENT_GO (R381): Vent reset through RST_VENT. -/
  | rstVentGo (rq : Requester) (v : Nat)
  /-- RST_WARM_KEY (R473): Writing the key to RST_WARM starts a warm firmware reset. -/
  | rstWarmKey (rq : Requester) (key : BitVec 32)
  /-- FRZ_CTL_TRIGGER (R479): Writing TRIGGER freezes the device. -/
  | frzCtlTrigger (rq : Requester)
  /-- CLK_GATE_WRITE (R462): Requests gating or ungating of domains. -/
  | clkGateWrite (rq : Requester) (k : Nat) (value : BitVec 32)
  /-- GATE_TAKE_EFFECT (R462): A pending gate request stops the domain once its condition holds. -/
  | gateTakeEffect (d : Nat)
  /-- POWER_ON_RESET (R470): 54 V entering its range resets and starts the whole device. -/
  | powerOnReset (tj : Nat)
  /-- STARTUP_COMPLETE (R475): Start-up finishes and TOP_SERVICE.LEVEL leaves STARTING. -/
  | startupComplete (ok : Nat)
  /-- V54_FAIL (R478): 54 V below or above range for 50 µs stops the device with loss of state. -/
  | v54Fail (us : Nat)
  /-- RESET_N (R521): A low of 200 ns or longer resets the whole device. -/
  | resetN (ns tj : Nat)
  /-- FREEZE_N (R479): A low of 40 ns or longer freezes the device. -/
  | freezeN (ns : Nat) (stays : Bool)
  /-- WAKE_N (R469): A 1 ms low wakes the device from DORMANT. -/
  | wakeN (us : Nat)
  /-- REFCLK_PRESENT (R456): REFCLK judged present lets PLLs lock. -/
  | refclkPresent
  /-- REFCLK_LOSS (R476): Loss of REFCLK enters HOLD, or stops start-up. -/
  | refclkLoss
  /-- REFCLK_RETURN (R476): After 10 ms of REFCLK present, a held device freezes or resets. -/
  | refclkReturn (heldUs : Nat)
  /-- TRIM_MEASUREMENT (R457): The always-on oscillator is measured and trimmed every 100 ms. -/
  | trimMeasurement (trim err : Nat)
  /-- PTP_LOCK (R458): The first PTP lock sets device time and clears TIME_UNSYNC. -/
  | ptpLock (ns : Nat)
  /-- POWER_SAMPLE (R466): Every 10 µs input power is measured and F_CAP or DUTY adjusted. -/
  | powerSample (p1 p100 energy : Nat)
  /-- THERMAL_SAMPLE (R468): Temperatures are checked against warning, throttle and critical thresholds. -/
  | thermalSample (sensor tj hbm : Nat)
  /-- THERMAL_TRIP (R468): At 115 °C power is removed and THERMTRIP_N asserted. -/
  | thermalTrip (tj : Nat)
  /-- READOUT_DATAGRAM (R483): The freeze controller sends the next capture datagram on vent 0. -/
  | readoutDatagram
  /-- EXTEST (R525): TAP boundary-scan test instruction. -/
  | extest (cells : BitVec 15)
  /-- IDCODE (R525): TAP instruction selecting the identification register. -/
  | idcode
  /-- SAMPLE_PRELOAD (R525): TAP boundary sample and preload instruction. -/
  | samplePreload (cells : BitVec 15)
  /-- RDOUT_STATUS (R525): TAP instruction capturing FRZ_STATUS. -/
  | rdoutStatus
  /-- RDOUT_STREAM (R482): TAP instruction shifting out the capture stream. -/
  | rdoutStream (k : Nat)
  /-- BYPASS (R525): TAP one-bit bypass instruction, also for disallowed codes. -/
  | bypass
  /-- TAP_PRIVATE (R451): Private TAP instructions obeyed only under an armed token or open states. -/
  | tapPrivate (code : Nat)
  /-- TRST_N (R525): Low holds the TAP in Test-Logic-Reset and rewinds the stream. -/
  | trstN
  /-- ENTDAA (R523): I3C dynamic address assignment. -/
  | entdaa (addr : Nat)
  /-- SETDASA (R523): I3C dynamic address from static address. -/
  | setdasa (static addr : Nat)
  /-- RSTDAA (R523): I3C reset of dynamic address. -/
  | rstdaa
  /-- GETPID (R523): I3C read of the provisional ID. -/
  | getpid (addr : Nat)
  /-- GETBCR (R523): I3C read of BCR. -/
  | getbcr (addr : Nat)
  /-- GETDCR (R523): I3C read of DCR. -/
  | getdcr (addr : Nat)
  /-- GETSTATUS (R523): I3C read of target status. -/
  | getstatus (addr : Nat)
  /-- GETMXDS (R523): I3C read of maximum data speed. -/
  | getmxds (addr : Nat)
  /-- I3C_PRIVATE_WRITE (R524): Sets the status window index. -/
  | i3cPrivateWrite (addr : Nat) (data : List Byte)
  /-- I3C_PRIVATE_READ (R524): Reads status window bytes from the index with wrap. -/
  | i3cPrivateRead (addr k : Nat)
  /-- I3C_WINDOW_UPDATE (R524): The status window is refreshed every 1 ms in RUNNING. -/
  | i3cWindowUpdate
  /-- BOOT_OK (R491): Fumarole firmware reports BOOT_OK and the slot becomes ACTIVE. -/
  | bootOk
  /-- BOOT_TIMEOUT (R491): No BOOT_OK within the bound counts a failed boot. -/
  | bootTimeout
  /-- BOOT_TRAP (R491): A core trap before BOOT_OK counts a failed boot. -/
  | bootTrap
  /-- SVC_FW_QUERY (R491): Returns firmware registers and slot headers. -/
  | svcFwQuery (c : Caller) (buf : Nat)
  /-- SVC_FW_UPDATE (R490): Checks and writes an image to the inactive slot as PENDING. -/
  | svcFwUpdate (c : Caller) (im : FwImage) (ap : Option Approval)
  /-- SVC_FW_CANCEL (R490): Returns a PENDING slot to EMPTY. -/
  | svcFwCancel (c : Caller)
  /-- SVC_FW_CONFIRM (R493): Accepts the active firmware, blowing SVN fuses. -/
  | svcFwConfirm (c : Caller) (sig : Option Signed)
  /-- SVC_FW_POLICY_SET (R488): Writes the owner's firmware policy. -/
  | svcFwPolicySet (c : Caller) (sig : Signed) (minVersion : Nat) (approval : Bool)
  /-- SVC_FW_RECOVERY (R497): Replies OK, then enters recovery mode. -/
  | svcFwRecovery (c : Caller) (sig : Option Signed)
  /-- RCV_BEGIN (R498): Starts a PCIe recovery download and erases the target slot. -/
  | rcvBegin (tag len : Nat)
  /-- RCV_DATA (R498): Writes recovery image bytes at the expected offset. -/
  | rcvData (tag off count : Nat) (data : List Byte)
  /-- RCV_END (R498): Verifies the recovered slot and boots it if it passes. -/
  | rcvEnd (tag : Nat) (im : FwImage)
  /-- RCV_STATUS (R498): Returns recovery status and next offset. -/
  | rcvStatus (tag : Nat)
  /-- RECOVERY_QUERY (R499): Recovery frame answered with status, identity and a nonce. -/
  | recoveryQuery (seq : Nat)
  /-- RECOVERY_BEGIN (R499): Recovery frame starting an image download on vent 0. -/
  | recoveryBegin (seq len : Nat)
  /-- RECOVERY_DATA (R499): Recovery frame carrying image bytes. -/
  | recoveryData (seq off : Nat) (data : List Byte)
  /-- RECOVERY_END (R499): Recovery frame ending a download for verification. -/
  | recoveryEnd (seq : Nat) (im : FwImage)
  /-- ENTER_RECOVERY (R497): Signed recovery command that resets into recovery mode. -/
  | enterRecovery (seq : Nat) (sig : Option Signed)
  /-- GROUP_RECORD (R391): Signed recovery command writing the group record. -/
  | groupRecord (seq : Nat) (sig : Signed) (g : GroupRecord)
  /-- SVC_CRT_QUERY (R503): Returns cartridge registers, areas and snapshots. -/
  | svcCrtQuery (c : Caller) (buf : Nat)
  /-- SVC_CRT_BIND (R503): Sanitizes and binds a cartridge to this device. -/
  | svcCrtBind (c : Caller)
  /-- SVC_CRT_ERASE (R503): Sanitizes the cartridge and leaves it BLANK. -/
  | svcCrtErase (c : Caller) (sig : Signed)
  /-- SVC_CRT_EJECT (R507): Completes writes and replies when the cartridge may be pulled. -/
  | svcCrtEject (c : Caller)
  /-- SVC_CRT_STAGE (R500): Checks and stores a recovery image on the cartridge. -/
  | svcCrtStage (c : Caller) (im : FwImage) (ap : Option Approval)
  /-- CARTRIDGE_INSERT (R502): Insertion starts cartridge authentication. -/
  | cartridgeInsert (d : Drive)
  /-- CARTRIDGE_AUTH_COMPLETE (R503): Authentication ends and the label decides the cartridge state. -/
  | cartridgeAuthComplete
  /-- CARTRIDGE_REMOVE (R507): Removal fails outstanding commands and leaves BOUND. -/
  | cartridgeRemove
  /-- CARTRIDGE_COMMAND_FAIL (R503): A command failing after one retry makes the cartridge FAULTY. -/
  | cartridgeCommandFail (status : Nat) (lba : Word64)
  /-- LIFE_POLL (R504): Every 60 s LIFE is read and refusal points applied. -/
  | lifePoll (used units : Nat) (readOnly : Bool)
  /-- RESEED_END (R508): Reseeding ends when every copied range is written. -/
  | reseedEnd
  /-- TRANSFER_COMPLETE (R120): An in-flight OC.LOAD, OC.STORE, OC.PREF or OC.EVICT finishes writing or reading its operand-cache range, releasing instructions waiting in the range table and FENCE OC or MEM. -/
  | transferComplete (n : Nat) (x : TransferEnd)
  /-- LAST_ACCUMULATOR_UPDATE (R148): An MMA's last group sums reach accumulator memory up to 16 or 19 array cycles after it leaves the cell array, and the next MMA may enter the cells. -/
  | lastAccumulatorUpdate (n : Nat)
  /-- DRAIN_COMPLETE (R154): A drain completes when the operand cache or HBM controller accepts its last write, making it visible under FENCE. -/
  | drainComplete (n : Nat)
  /-- RESET_N_RELEASE (R521): RESET_N returning high lets start-up continue from where it stopped. -/
  | resetNRelease
  /-- PERST_N_DEASSERT (R390): Deassertion of PERST_N ends fundamental reset, starts link training and decides PCI_CFG.HEAD. -/
  | perstNDeassert
  /-- STACK_PHY_OR_CONTROLLER_FAILURE (R212): A failure of a stack's PHY or controller retires the whole stack, unmaps its 64 GiB and may drop the service level. -/
  | stackPhyOrControllerFailure (st : Nat)
  deriving DecidableEq, Repr

end Sys2Proof
end

