-- ==== Sys2Proof/Decode.lean ====
section
/-! DEFINITION. The layout of a Runen instruction word (Tables 3.3, 3.6 and 3.7), which an array fetches and compares with what a
command says it issues; and the command that a word spells by the opcode table's bits. -/
namespace Sys2Proof

/-! ## Instruction words (R88, R92, R93) -/

/-- The 128-bit word of an instruction, from CLASS in its highest bits to IMM in its lowest (Table 3.3). -/
def Fields.word (cls op : Nat) (f : Fields) : BitVec 128 :=
  BitVec.ofNat 6 cls ++ BitVec.ofNat 6 op ++ BitVec.ofBool f.ge ++ f.pred ++ BitVec.ofBool f.pn ++ f.mod ++ f.d ++ f.a ++ f.b ++ f.c ++
    f.imm

/-- CLASS and OP of a word. -/
def wordClass (w : BitVec 128) : Nat := (w.extractLsb' 122 6).toNat
def wordOp (w : BitVec 128) : Nat := (w.extractLsb' 116 6).toNat
/-- The other fields of a word. -/
def wordFields (w : BitVec 128) : Fields :=
  { ge := w.getLsbD 115, pred := w.extractLsb' 112 3, pn := w.getLsbD 111, mod := w.extractLsb' 96 15, d := w.extractLsb' 88 8,
    a := w.extractLsb' 80 8, b := w.extractLsb' 72 8, c := w.extractLsb' 64 8, imm := w.extractLsb' 0 64 }

/-- How many operations a class has; OP numbers them from 0 (Table 3.7).  A class of Table 3.6 that is not named has none. -/
def opCount (cls : Nat) : Nat := match cls with
  | 0x00 => 12
  | 0x01 => 17
  | 0x02 => 5
  | 0x03 => 3
  | 0x04 => 4
  | 0x05 => 6
  | 0x08 => 1
  | 0x09 => 3
  | 0x0C => 25
  | 0x0D => 6
  | 0x0E => 4
  | 0x0F => 2
  | 0x10 => 2
  | 0x11 => 1
  | 0x14 => 3
  | 0x15 => 2
  | 0x16 => 7
  | 0x17 => 1
  | _ => 0

/-- CLASS and OP name an operation; any other word is an illegal encoding. -/
def wordKnown (w : BitVec 128) : Bool := decide (wordOp w < opCount (wordClass w))

/-- The opcode table gives no row any bits: it lists commands of the block, and the manual encodes none of them as a word that the block
receives.  So no word spells a command; a Runen instruction's word lies in the program text that its array fetches. -/
def decodeTableWord (_nbits _w : Nat) : Option Instr := none

end Sys2Proof
end

