-- ==== Sys2Proof/Machine/Sparse.lean ====
section
/-! DEFINITION. Reading and writing a sparse store.  `d k` is what key `k` reads as while it is not listed.  The two
laws of a store (a read after a write of the same key, and of another key) hold of every list, canonical or not;
they stand in `Sys2Proof.Laws.Sparse`. -/
namespace Sys2Proof

/-- What key `k` reads as. -/
def Sparse.get {V : Type} (d : Nat → V) : Sparse V → Nat → V
  | [], k => d k
  | (k', v) :: t, k => if k = k' then v else if k < k' then d k else Sparse.get d t k

/-- Drop the leading entries whose key is at most `k`. -/
def Sparse.dropTo {V : Type} (k : Nat) : Sparse V → Sparse V
  | [] => []
  | (k', v) :: t => if k' ≤ k then Sparse.dropTo k t else (k', v) :: t

/-- Write `v` at key `k`, keeping the canonical form. -/
def Sparse.set {V : Type} [DecidableEq V] (d : Nat → V) : Sparse V → Nat → V → Sparse V
  | [], k, v => if v = d k then [] else [(k, v)]
  | (k', v') :: t, k, v =>
    if k < k' then (if v = d k then (k', v') :: t else (k, v) :: (k', v') :: t)
    else if k = k' then (if v = d k then Sparse.dropTo k t else (k, v) :: t)
    else (k', v') :: Sparse.set d t k v

/-- Return every key `k` with `lo ≤ k < hi` to what it reads as unlisted. -/
def Sparse.clear {V : Type} (m : Sparse V) (lo hi : Nat) : Sparse V :=
  m.filter fun e => decide (e.1 < lo) || decide (hi ≤ e.1)

/-- Every listed key is above `b`, keys rise strictly, and no value is what its key reads as unlisted. -/
def Sparse.wfFrom {V : Type} [DecidableEq V] (d : Nat → V) : Option Nat → Sparse V → Bool
  | _, [] => true
  | b, (k, v) :: t =>
    (match b with | none => true | some b => decide (b < k)) && decide (v ≠ d k) && Sparse.wfFrom d (some k) t

/-- The canonical form. -/
def Sparse.wf {V : Type} [DecidableEq V] (d : Nat → V) (m : Sparse V) : Bool := Sparse.wfFrom d none m

/-- What a byte of a store that nothing has written reads as. -/
def zeroByte : Nat → Byte := fun _ => 0

/-- The `n` bytes from address `a` on. -/
def readBytes (m : Sparse Byte) (a : Nat) : Nat → List Byte
  | 0 => []
  | n + 1 => Sparse.get zeroByte m a :: readBytes m (a + 1) n

/-- Write the bytes from address `a` on. -/
def writeBytes (m : Sparse Byte) (a : Nat) : List Byte → Sparse Byte
  | [] => m
  | b :: t => writeBytes (Sparse.set zeroByte m a b) (a + 1) t

/-- The canonical form of a byte store. -/
def Memory.wf (m : Sparse Byte) : Bool := Sparse.wf zeroByte m

/-- The number that bytes spell, the least significant first (R3). -/
def ofLe : List Byte → Nat
  | [] => 0
  | b :: t => b.toNat + 256 * ofLe t

/-- The `n` lowest bytes of a number, the least significant first (R3). -/
def toLe : Nat → Nat → List Byte
  | 0, _ => []
  | n + 1, v => BitVec.ofNat 8 v :: toLe n (v / 256)

/-- A list cut to, or filled with zero bytes up to, `n` bytes. -/
def padTo (n : Nat) (l : List Byte) : List Byte := (l ++ List.replicate (n - l.length) 0).take n

/-- The number in the `w` bits of `x` from bit `lo` on. -/
def bits (x lo w : Nat) : Nat := (x >>> lo) % 2 ^ w

/-- `n` read as a two's-complement number of `w` bits. -/
def signed (w n : Nat) : Int := if n % 2 ^ w < 2 ^ (w - 1) then ((n % 2 ^ w : Nat) : Int) else ((n % 2 ^ w : Nat) : Int) - 2 ^ w

/-- The two's-complement pattern of `w` bits of an integer. -/
def unsigned (w : Nat) (i : Int) : Nat := (i % (2 ^ w : Int)).toNat

/-- Two half-open ranges meet. -/
def overlaps (a la b lb : Nat) : Bool := decide (a < b + lb) && decide (b < a + la) && decide (0 < la) && decide (0 < lb)

/-- A number rounded up to a multiple. -/
def ceilDiv (a b : Nat) : Nat := (a + b - 1) / b

end Sys2Proof
end

