-- ==== Sys2Proof/Machine/Numerics.lean ====
section
/-! DEFINITION. The numbers of Number formats and conversion: values, exact arithmetic on them, rounding in every
mode, and the encodings of every format (Table 2.1).  A finite magnitude is an exact fraction times a power of two,
so every conversion rounds once from the exact value (R67). -/
namespace Sys2Proof

/-- Numeric flags, the bit positions of Table 2.12 (R77). -/
abbrev Flags := BitVec 32
namespace Flag
def invalid : Flags := 1
def divzero : Flags := 2
def overflow : Flags := 4
def saturated : Flags := 8
def underflow : Flags := 16
def flushed : Flags := 32
def inexact : Flags := 64
def blockNan : Flags := 128
def scaleClamp : Flags := 256
def nonfiniteIn : Flags := 512
def laneRange : Flags := 1024
end Flag

/-- The rounding modes of Table 2.9. -/
inductive RM where
  | rne | rtz | sr
  deriving DecidableEq, Repr

/-- The non-negative number `num / den × 2 ^ exp`. -/
structure Mag where
  num : Nat
  den : Nat
  exp : Int
  deriving DecidableEq, Repr

/-- A value read from or rounded into a format. -/
inductive Val where
  | nan
  | inf (neg : Bool)
  | fin (neg : Bool) (m : Mag)
  deriving DecidableEq, Repr

namespace Num

def zero : Mag := ⟨0, 1, 0⟩
def one : Mag := ⟨1, 1, 0⟩

def isZero (m : Mag) : Bool := m.num == 0

/-- The floor of the logarithm to base two of a non-zero magnitude. -/
def floorLog2 (m : Mag) : Int :=
  let k : Int := (Nat.log2 m.num : Int) - (Nat.log2 m.den : Int)
  let ge := if 0 ≤ k then decide (m.den <<< k.toNat ≤ m.num) else decide (m.den ≤ m.num <<< (-k).toNat)
  (if ge then k else k - 1) + m.exp

/-- The floor of `m / 2 ^ q`, and whether it is exact. -/
def floorScale (m : Mag) (q : Int) : Nat × Bool :=
  if m.num = 0 then (0, true)
  else if floorLog2 m < q then (0, false)
  else
    let s := m.exp - q
    let n := if 0 ≤ s then m.num <<< s.toNat else m.num
    let d := if 0 ≤ s then m.den else m.den <<< (-s).toNat
    (n / d, n % d == 0)

/-- `m` rounded to a multiple of `2 ^ q`: the multiple, and whether it differs from `m` (R61, R62).  `r` is the
32-bit random number of the element's position under stochastic rounding. -/
def roundAt (rm : RM) (r : Nat) (m : Mag) (q : Int) : Nat × Bool :=
  let (t, exact) := floorScale m q
  let up : Bool := match rm with
    | .rtz => false
    | .rne =>
      let (t2, exact2) := floorScale m (q - 1)
      t2 % 2 == 1 && (!exact2 || t % 2 == 1)
    | .sr => decide (2 ^ 32 ≤ (floorScale m (q - 32)).1 % 2 ^ 32 + r)
  (if up then t + 1 else t, !exact)

/-- `x ≤ y`. -/
def le (x y : Mag) : Bool :=
  let e := min x.exp y.exp
  decide ((x.num * y.den) <<< (x.exp - e).toNat ≤ (y.num * x.den) <<< (y.exp - e).toNat)

def lt (x y : Mag) : Bool := !le y x
def maxMag (x y : Mag) : Mag := if le x y then y else x

def mulMag (x y : Mag) : Mag := ⟨x.num * y.num, x.den * y.den, x.exp + y.exp⟩
/-- `x / y` for a non-zero `y`. -/
def divMag (x y : Mag) : Mag := ⟨x.num * y.den, x.den * y.num, x.exp - y.exp⟩

/-- The signed sum of two finite values as a sign and a magnitude; an exact zero sum of opposite signs is `+0`, and
a sum of zeros of one sign keeps it. -/
def addFin (sx : Bool) (x : Mag) (sy : Bool) (y : Mag) : Bool × Mag :=
  if isZero x && isZero y then (sx && sy, zero)
  else if isZero x then (sy, y)
  else if isZero y then (sx, x)
  else
    let e := min x.exp y.exp
    let a : Int := (((x.num * y.den) <<< (x.exp - e).toNat : Nat) : Int)
    let b : Int := (((y.num * x.den) <<< (y.exp - e).toNat : Nat) : Int)
    let c := (if sx then -a else a) + (if sy then -b else b)
    (decide (c < 0), ⟨c.natAbs, x.den * y.den, if c = 0 then 0 else e⟩)

/-- A value of an integer. -/
def ofInt (i : Int) : Val := .fin (decide (i < 0)) ⟨i.natAbs, 1, 0⟩

def isNan : Val → Bool
  | .nan => true
  | _ => false
def isFinite : Val → Bool
  | .fin _ _ => true
  | _ => false
def neg : Val → Val
  | .nan => .nan
  | .inf s => .inf (!s)
  | .fin s m => .fin (!s) m
def abs : Val → Val
  | .nan => .nan
  | .inf _ => .inf false
  | .fin _ m => .fin false m
def sign : Val → Bool
  | .nan => false
  | .inf s => s
  | .fin s _ => s

/-- NONFINITE_IN when an operand is a NaN or an infinity (Table 2.12). -/
def nonfinite (vs : List Val) : Flags := if vs.all isFinite then 0 else Flag.nonfiniteIn

/-- The exact sum of two values, with INVALID for infinity minus infinity. -/
def addVal : Val → Val → Val × Flags
  | .nan, _ => (.nan, 0)
  | _, .nan => (.nan, 0)
  | .inf s, .inf t => if s = t then (.inf s, 0) else (.nan, Flag.invalid)
  | .inf s, .fin _ _ => (.inf s, 0)
  | .fin _ _, .inf t => (.inf t, 0)
  | .fin s x, .fin t y => let (u, z) := addFin s x t y; (.fin u z, 0)

/-- The exact product of two values, with INVALID for zero times infinity (R135). -/
def mulVal : Val → Val → Val × Flags
  | .nan, _ => (.nan, 0)
  | _, .nan => (.nan, 0)
  | .inf s, .inf t => (.inf (s != t), 0)
  | .inf s, .fin t y => if isZero y then (.nan, Flag.invalid) else (.inf (s != t), 0)
  | .fin s x, .inf t => if isZero x then (.nan, Flag.invalid) else (.inf (s != t), 0)
  | .fin s x, .fin t y => (.fin (s != t) (mulMag x y), 0)

/-- The exact quotient, with DIVZERO and INVALID as Table 5.2 gives for VDIV. -/
def divVal : Val → Val → Val × Flags
  | .nan, _ => (.nan, 0)
  | _, .nan => (.nan, 0)
  | .inf _, .inf _ => (.nan, Flag.invalid)
  | .inf s, .fin t _ => (.inf (s != t), 0)
  | .fin s _, .inf t => (.fin (s != t) zero, 0)
  | .fin s x, .fin t y =>
    if isZero y then (if isZero x then (.nan, Flag.invalid) else (.inf (s != t), Flag.divzero))
    else (.fin (s != t) (divMag x y), 0)

/-- `x < y` on values that are not NaN, with `+0 = -0`. -/
def ltVal : Val → Val → Bool
  | .nan, _ => false
  | _, .nan => false
  | .inf s, .inf t => s && !t
  | .inf s, .fin _ _ => s
  | .fin _ _, .inf t => !t
  | .fin s x, .fin t y =>
    if isZero x && isZero y then false
    else match s, t with
      | true, true => lt y x
      | true, false => true
      | false, true => false
      | false, false => lt x y

def eqVal (x y : Val) : Bool := !isNan x && !isNan y && !ltVal x y && !ltVal y x

/-- IEEE 754-2019 minimum, with `-0 < +0` and a NaN operand giving a NaN (R76). -/
def minVal (x y : Val) : Val :=
  if isNan x || isNan y then .nan
  else if ltVal x y then x
  else if ltVal y x then y
  else if sign x then x else y
/-- IEEE 754-2019 maximum (R76). -/
def maxVal (x y : Val) : Val :=
  if isNan x || isNan y then .nan
  else if ltVal x y then y
  else if ltVal y x then x
  else if sign x then y else x

/-- The integer square root, bit by bit from bit `n - 1`. -/
def isqrt (x : Nat) : Nat → Nat → Nat
  | 0, r => r
  | n + 1, r => let c := r + 2 ^ n; isqrt x n (if c * c ≤ x then c else r)

/-- The square root of a non-zero magnitude: exact where it is a multiple of the working unit, and otherwise placed
strictly between two of them, so that it rounds as the true root does. -/
def sqrtMag (m : Mag) : Mag :=
  let s : Int := 100 - floorLog2 m / 2
  let (n, exact) := floorScale m (-(2 * s))
  let r := isqrt n 104 0
  if exact && r * r == n then ⟨r, 1, -s⟩ else ⟨2 * r + 1, 1, -s - 1⟩

/-! ## Formats -/

/-- An IEEE-style format: `p` significant bits, exponents from `emin` to `emax`, `w` bits in all (Table 2.2). -/
structure FloatFmt where
  w : Nat
  p : Nat
  emin : Int
  emax : Int
  deriving DecidableEq, Repr

def f32 : FloatFmt := ⟨32, 24, -126, 127⟩
def f16 : FloatFmt := ⟨16, 11, -14, 15⟩
def bf16 : FloatFmt := ⟨16, 8, -126, 127⟩

/-- The biased exponent that marks infinities and NaNs. -/
def FloatFmt.expMax (F : FloatFmt) : Nat := 2 ^ (F.w - F.p) - 1

def decodeF (F : FloatFmt) (x : Nat) : Val :=
  let s := bits x (F.w - 1) 1 == 1
  let e := bits x (F.p - 1) (F.w - F.p)
  let f := bits x 0 (F.p - 1)
  if e = F.expMax then (if f = 0 then .inf s else .nan)
  else if e = 0 then .fin s ⟨f, 1, if f = 0 then 0 else F.emin - ((F.p : Int) - 1)⟩
  else .fin s ⟨2 ^ (F.p - 1) + f, 1, (e : Int) - 1 + F.emin - ((F.p : Int) - 1)⟩

def signBit (F : FloatFmt) (s : Bool) : Nat := if s then 2 ^ (F.w - 1) else 0
def infBits (F : FloatFmt) (s : Bool) : Nat := signBit F s + F.expMax * 2 ^ (F.p - 1)
def maxBits (F : FloatFmt) (s : Bool) : Nat := infBits F s - 1
/-- The canonical NaN (R49). -/
def nanBits (F : FloatFmt) : Nat := F.expMax * 2 ^ (F.p - 1) + 2 ^ (F.p - 2)

/-- Round a finite magnitude into an IEEE-style format (R69 to R71): result bits and flags. -/
def roundF (F : FloatFmt) (rm : RM) (r : Nat) (sat ftz : Bool) (s : Bool) (m : Mag) : Nat × Flags :=
  if isZero m then (signBit F s, 0)
  else
    let q0 := floorLog2 m - ((F.p : Int) - 1)
    let (t0, ix) := roundAt rm r m q0
    let (t, q) := if t0 = 2 ^ F.p then (2 ^ (F.p - 1), q0 + 1) else (t0, q0)
    let e := q + ((F.p : Int) - 1)
    if e < F.emin then
      if ftz then (signBit F s, Flag.underflow ||| Flag.flushed ||| Flag.inexact)
      else
        let (u, iu) := roundAt rm r m (F.emin - ((F.p : Int) - 1))
        (signBit F s + u, if iu then Flag.underflow ||| Flag.inexact else 0)
    else if F.emax < e then
      if sat then (maxBits F s, Flag.saturated ||| Flag.inexact)
      else if rm = .rtz then (maxBits F s, Flag.overflow ||| Flag.inexact)
      else (infBits F s, Flag.overflow ||| Flag.inexact)
    else (signBit F s + (e - F.emin + 1).toNat * 2 ^ (F.p - 1) + (t - 2 ^ (F.p - 1)), if ix then Flag.inexact else 0)

/-- Round a value into an IEEE-style format; a NaN becomes the canonical NaN. -/
def encodeF (F : FloatFmt) (rm : RM) (r : Nat) (sat ftz : Bool) : Val → Nat × Flags
  | .nan => (nanBits F, 0)
  | .inf s => (infBits F s, 0)
  | .fin s m => roundF F rm r sat ftz s m

/-- Round to nearest, ties to even, as all arithmetic of the vector engine does (R171). -/
def rne (F : FloatFmt) (v : Val) : Nat × Flags := encodeF F .rne 0 false false v

/-! ## Element formats (R50) -/

/-- An element format: `eb` exponent bits, `mb` fraction bits, bias `b` (Table 2.3). -/
structure ElemFmt where
  eb : Nat
  mb : Nat
  bias : Int
  emax : Int
  deriving DecidableEq, Repr

def pf8a : ElemFmt := ⟨4, 3, 7, 8⟩
def pf8b : ElemFmt := ⟨5, 2, 15, 16⟩
def pf6 : ElemFmt := ⟨3, 2, 3, 4⟩
def pf4 : ElemFmt := ⟨2, 1, 1, 2⟩

def decodeE (E : ElemFmt) (x : Nat) : Bool × Mag :=
  let s := bits x (E.eb + E.mb) 1 == 1
  let e := bits x E.mb E.eb
  let f := bits x 0 E.mb
  if e = 0 then (s, ⟨f, 1, 1 - E.bias - (E.mb : Int)⟩)
  else (s, ⟨2 ^ E.mb + f, 1, (e : Int) - E.bias - (E.mb : Int)⟩)

/-- The largest finite magnitude of an element format. -/
def maxE (E : ElemFmt) : Mag := ⟨2 ^ (E.mb + 1) - 1, 1, E.emax - (E.mb : Int)⟩

/-- Round a magnitude into an element format; a magnitude above the largest finite one saturates (Table 2.11), and a
non-zero value that becomes a zero element sets UNDERFLOW (R73). -/
def roundE (E : ElemFmt) (rm : RM) (r : Nat) (s : Bool) (m : Mag) : Nat × Flags :=
  let sb := if s then 2 ^ (E.eb + E.mb) else 0
  if isZero m then (sb, 0)
  else if lt (maxE E) m then (sb + (2 ^ (E.eb + E.mb) - 1), Flag.saturated ||| Flag.inexact)
  else
    let qmin : Int := 1 - E.bias - (E.mb : Int)
    let q0 := max (floorLog2 m - (E.mb : Int)) qmin
    let (t0, ix) := roundAt rm r m q0
    let (t, q) := if t0 = 2 ^ (E.mb + 1) then (2 ^ E.mb, q0 + 1) else (t0, q0)
    let code := if t < 2 ^ E.mb then t else (q - qmin + 1).toNat * 2 ^ E.mb + (t - 2 ^ E.mb)
    let fl := (if ix then Flag.inexact else 0) ||| (if t = 0 then Flag.underflow else 0)
    if 2 ^ (E.eb + E.mb) ≤ code then (sb + (2 ^ (E.eb + E.mb) - 1), Flag.saturated ||| Flag.inexact)
    else (sb + code, fl)

/-! ## Integers (R51, R73) -/

/-- The rounded integer of a finite value. -/
def toInt (rm : RM) (r : Nat) (s : Bool) (m : Mag) : Int × Bool :=
  let (t, ix) := roundAt rm r m 0
  (if s then -(t : Int) else t, ix)

/-- Convert a value into a two's-complement integer of `w` bits (R69, R73).  INEXACT says that the rounded integer differs from
the source, whether that integer is then clamped, wrapped or kept. -/
def encodeI (w : Nat) (rm : RM) (r : Nat) (sat : Bool) : Val → Nat × Flags
  | .nan => (0, Flag.invalid)
  | .inf s => (if s then 2 ^ (w - 1) else 2 ^ (w - 1) - 1, Flag.invalid)
  | .fin s m =>
    let (i, ix) := toInt rm r s m
    let fx := if ix then Flag.inexact else 0
    let hi : Int := 2 ^ (w - 1) - 1
    if i < -(2 ^ (w - 1) : Int) ∨ hi < i then
      if sat then (if i < 0 then 2 ^ (w - 1) else 2 ^ (w - 1) - 1, Flag.saturated ||| fx)
      else (unsigned w i, Flag.overflow ||| fx)
    else (unsigned w i, fx)

/-! ## The wide accumulator format (R58, R59) -/

def decodeW (x : Nat) : Val :=
  let s := bits x 47 1 == 1
  let e := bits x 37 10
  let f := bits x 0 37
  if e = 0x3FF then (if f = 0 then .inf s else .nan)
  else if e = 0 ∧ f = 0 then .fin s zero
  else .fin s ⟨2 ^ 37 + f, 1, (e : Int) - 511 - 37⟩

def wideSign (s : Bool) : Nat := if s then 2 ^ 47 else 0

/-- Round a value to the wide format, to nearest with ties to even (R59). -/
def encodeW : Val → Nat × Flags
  | .nan => (0x7FF000000000, 0)
  | .inf s => (wideSign s + 0x3FF * 2 ^ 37, 0)
  | .fin s m =>
    if isZero m then (wideSign s, 0)
    else
      let q0 := floorLog2 m - 37
      let (t0, ix) := roundAt .rne 0 m q0
      let (t, q) := if t0 = 2 ^ 38 then (2 ^ 37, q0 + 1) else (t0, q0)
      let e := q + 37
      if 511 < e then (wideSign s + 0x3FF * 2 ^ 37, Flag.overflow ||| Flag.inexact)
      else if e < -511 ∨ (e = -511 ∧ t = 2 ^ 37) then (wideSign s, Flag.underflow ||| Flag.inexact)
      else (wideSign s + (e + 511).toNat * 2 ^ 37 + (t - 2 ^ 37), if ix then Flag.inexact else 0)

/-! ## Stochastic rounding (R63) -/

def srBits (s n : Word64) : Nat :=
  let z0 := n + s * 0xD6E8FEB86659FD93#64
  let z1 := (z0 ^^^ (z0 >>> 31)) * 0x8F3C21A75B0E6D49#64
  let z2 := (z1 ^^^ (z1 >>> 29)) * 0xE4A139C507F2B86B#64
  let z3 := z2 ^^^ (z2 >>> 32)
  z3.toNat % 2 ^ 32

/-! ## Transcendental functions, correctly rounded (R172)

Each is computed as an interval that holds the exact value, at a precision that doubles until both ends round to the
same bits.  The exact value is never a tie, so some precision always decides. -/

/-- The sum of `1 / (k 2 ^ k)` in units of `2 ^ -p`, rounded down: ln 2 within `fuel` units. -/
def ln2Sum (p : Nat) : Nat → Nat → Nat
  | 0, _ => 0
  | fuel + 1, k => 2 ^ p / (k * 2 ^ k) + ln2Sum p fuel (k + 1)

def ln2Fix (p : Nat) : Nat := ln2Sum (p + 16) (p + 16) 1 >>> 16

/-- The Taylor sum of the exponential of `z` units of `2 ^ -p`, every term rounded down. -/
def expSum (p z : Nat) : Nat → Nat → Nat → Nat
  | 0, _, _ => 0
  | fuel + 1, k, term => if term = 0 then 0 else term + expSum p z fuel (k + 1) (term * z / 2 ^ p / (k + 1))

/-- Bounds of `2 ^ x` at precision `p`. -/
def exp2Bounds (s : Bool) (m : Mag) (p : Nat) : Mag × Mag :=
  let (a, exact) := floorScale m (-(p : Int))
  -- x lies in [xl, xl + 1] units of 2^-p
  let xl : Int := if s then (if exact then -(a : Int) else -(a : Int) - 1) else a
  let n := xl / (2 ^ p : Int)
  let f := (xl % (2 ^ p : Int)).toNat
  let lo := expSum p (f * ln2Fix p / 2 ^ p) (p + 1) 0 (2 ^ p)
  (⟨lo, 1, n - p⟩, ⟨lo + 8 * p + 64, 1, n - p⟩)

/-- One bit of a logarithm: square, and halve on reaching two.  `up` rounds up. -/
def log2Bits (p : Nat) (up : Bool) : Nat → Nat → Nat → Nat
  | 0, _, acc => acc
  | fuel + 1, y, acc =>
    let sq := if up then ceilDiv (y * y) (2 ^ p) else y * y / 2 ^ p
    if 2 ^ (p + 1) ≤ sq then log2Bits p up fuel (if up then ceilDiv sq 2 else sq / 2) (2 * acc + 1)
    else log2Bits p up fuel sq (2 * acc)

/-- Bounds of the logarithm to base two of a non-zero magnitude that is no power of two, in units of `2 ^ -n`. -/
def log2Bounds (m : Mag) (n : Nat) : Int × Int :=
  let p := 3 * n
  let k := floorLog2 m
  let (y, exact) := floorScale m (k - p)
  let lo := log2Bits p false n y 0
  let hi := log2Bits p true n (if exact then y else y + 1) 0
  (k * 2 ^ n + lo, k * 2 ^ n + hi + 1)

def isPow2 (m : Mag) : Bool := floorScale m (floorLog2 m) == (1, true)

/-- Round the first interval of a list whose ends round to the same bits; the last one's lower end otherwise. -/
def settle (F : FloatFmt) : List (Val × Val) → Nat × Flags
  | [] => (nanBits F, 0)
  | [(a, _)] => rne F a
  | (a, b) :: t => if (rne F a).1 = (rne F b).1 then rne F a else settle F t

def exp2Val (F : FloatFmt) : Val → Nat × Flags
  | .nan => (nanBits F, 0)
  | .inf s => (if s then 0 else infBits F false, 0)
  | .fin s m =>
    let (t, exact) := floorScale m 0
    if exact then rne F (.fin false ⟨1, 1, if s then -(t : Int) else t⟩)
    else
      let r := settle F ([96, 192, 384].map fun p => let (a, b) := exp2Bounds s m p; (.fin false a, .fin false b))
      (r.1, r.2 ||| Flag.inexact)

def log2Val (F : FloatFmt) : Val → Nat × Flags
  | .nan => (nanBits F, 0)
  | .inf s => if s then (nanBits F, Flag.invalid) else (infBits F false, 0)
  | .fin s m =>
    if isZero m then (infBits F true, Flag.divzero)
    else if s then (nanBits F, Flag.invalid)
    else if isPow2 m then rne F (ofInt (floorLog2 m))
    else
      let mk (i : Int) (n : Nat) : Val := .fin (decide (i < 0)) ⟨i.natAbs, 1, -(n : Int)⟩
      let r := settle F ([80, 160, 320].map fun n => let (a, b) := log2Bounds m n; (mk a n, mk b n))
      (r.1, r.2 ||| Flag.inexact)

def sqrtVal : Val → Val × Flags
  | .nan => (.nan, 0)
  | .inf s => if s then (.nan, Flag.invalid) else (.inf false, 0)
  | .fin s m => if isZero m then (.fin s zero, 0) else if s then (.nan, Flag.invalid) else (.fin false (sqrtMag m), 0)

def rsqVal : Val → Val × Flags
  | .nan => (.nan, 0)
  | .inf s => if s then (.nan, Flag.invalid) else (.fin false zero, 0)
  | .fin s m =>
    if isZero m then (.inf s, Flag.divzero)
    else if s then (.nan, Flag.invalid)
    else (.fin false (sqrtMag (divMag one m)), 0)

end Num
end Sys2Proof
end

