-- ==== Sys2Proof/Machine/Operands.lean ====
section
/-! DEFINITION. Operand forms: the format codes of Table 3.5, the layout of block tensors (R52 to R57), and the
conversions of Table 2.10 on one element and on one block (R67 to R73), with the capture of R75. -/
namespace Sys2Proof.Machine
open Sys2Proof.Num

/-! ## Formats (Table 3.5) -/

/-- The IEEE-style format of a code. -/
def floatFmt (code : Nat) : Option FloatFmt :=
  match code with
  | 0 => some f32
  | 1 => some f16
  | 2 => some bf16
  | _ => none

/-- The element width in bits of a format that is no block format. -/
def fmtWidth (code : Nat) : Nat :=
  match code with
  | 1 => 16
  | 2 => 16
  | 8 => 8
  | 9 => 4
  | _ => 32

def isBlock (code : Nat) : Bool := decide (3 ≤ code) && decide (code ≤ 7)
def isIntFmt (code : Nat) : Bool := decide (8 ≤ code) && decide (code ≤ 10)

/-- The element format of a block format; `none` for PBI8, whose elements are INT8. -/
def blockElem (code : Nat) : Option ElemFmt :=
  match code with
  | 3 => some pf8a
  | 4 => some pf8b
  | 5 => some pf6
  | 6 => some pf4
  | _ => none

/-- Element bytes of one block (Table 2.7). -/
def blockBytes (code : Nat) : Nat :=
  match code with
  | 5 => 12
  | 6 => 8
  | _ => 16
/-- Bytes of a block-group (Table 2.7): one scale line and the elements of 64 blocks. -/
def groupBytes (code : Nat) : Nat := 64 + 64 * blockBytes code

/-- Bytes that `count` consecutive elements occupy in memory. -/
def tensorBytes (code count : Nat) : Nat :=
  if isBlock code then count / 1024 * groupBytes code else ceilDiv (count * fmtWidth code) 8

/-- The matrix group size g (Table 3.5). -/
def groupSize (code : Nat) : Nat :=
  match code with
  | 0 => 1
  | 1 => 4
  | 2 => 4
  | 6 => 16
  | 9 => 16
  | _ => 8

/-! ## Reading elements -/

/-- The code of element `j` of block `b` of the block-group whose bytes begin at `g` (R56). -/
def blockCode (code : Nat) (byte : Nat → Nat) (g b j : Nat) : Nat :=
  let e := g + 64 + b * blockBytes code
  match code with
  | 5 => bits (byte (e + 3 * (j / 4)) + 256 * byte (e + 3 * (j / 4) + 1) + 65536 * byte (e + 3 * (j / 4) + 2)) (6 * (j % 4)) 6
  | 6 => bits (byte (e + j / 2)) (4 * (j % 2)) 4
  | _ => byte (e + j)

/-- The value of element `k` of a block tensor at offset `o`, before any tensor scale (R52, R53). -/
def blockValue (code : Nat) (byte : Nat → Nat) (o k : Nat) : Val :=
  let g := o + k / 1024 * groupBytes code
  let b := k % 1024 / 16
  let e := byte (g + b)
  if e = 0xFF then .nan
  else
    let c := blockCode code byte g b (k % 16)
    match blockElem code with
    | some E => let (s, m) := decodeE E c; .fin s { m with exp := m.exp + (e : Int) - 127 }
    | none => let i := signed 8 c; .fin (decide (i < 0)) ⟨i.natAbs, 1, (e : Int) - 127⟩

/-- The value of the bits of one element in a format that is no block format. -/
def elemValue (code x : Nat) : Val :=
  match floatFmt code with
  | some F => decodeF F x
  | none => ofInt (signed (fmtWidth code) x)

/-- The bits of element `k` of a tensor that is no block tensor at byte offset `o` (R51). -/
def plainBits (code : Nat) (byte : Nat → Nat) (o k : Nat) : Nat :=
  match code with
  | 9 => bits (byte (o + k / 2)) (4 * (k % 2)) 4
  | 8 => byte (o + k)
  | 1 => byte (o + 2 * k) + 256 * byte (o + 2 * k + 1)
  | 2 => byte (o + 2 * k) + 256 * byte (o + 2 * k + 1)
  | _ => byte (o + 4 * k) + 256 * byte (o + 4 * k + 1) + 65536 * byte (o + 4 * k + 2) + 16777216 * byte (o + 4 * k + 3)

/-- The value of element `k` of a tensor. -/
def tensorValue (code : Nat) (byte : Nat → Nat) (o k : Nat) : Val :=
  if isBlock code then blockValue code byte o k else elemValue code (plainBits code byte o k)

/-! ## Conversion (Table 2.10) -/

/-- RM as an encoding; 3 is reserved. -/
def rmOf (x : Nat) : RM :=
  match x with
  | 1 => .rtz
  | 2 => .sr
  | _ => .rne
/-- R61: 3 is reserved, and 2 has the targets bfloat16 and the block formats. -/
def rmOk (rm target : Nat) : Bool := decide (rm ≤ 1) || (rm == 2 && (target == 2 || isBlock target))

/-- The conversions that Table 2.10 provides, drains apart. -/
def pairOk (src dst : Nat) : Bool :=
  let known (x : Nat) := decide (x ≤ 10)
  known src && known dst && (src != dst || isBlock src)

/-- Convert a value into a target that is no block format (R69 to R71, R73).  With FTZ a bfloat16 subnormal flushes on its way to binary32
too, as R71 flushes any tiny result, although Table 2.10 calls that conversion exact (DESIGN CHOICE, log entry 45: the manual does not say
which rule wins). -/
def convElem (dst : Nat) (rm : RM) (r : Nat) (sat ftz : Bool) (v : Val) : Nat × Flags :=
  let (x, fl) := match floatFmt dst with
    | some F => encodeF F rm r sat ftz v
    | none => encodeI (fmtWidth dst) rm r sat v
  (x, fl ||| nonfinite [v])

/-- A tensor scale that a block conversion can use (R54): a positive, finite, normal binary32. -/
def scaleOk (t : Nat) : Bool := bits t 31 1 == 0 && bits t 23 8 != 0 && bits t 23 8 != 255

/-- One element of a block, from the exact quotient (R72, R73). -/
def blockElemOf (code : Nat) (rm : RM) (r : Nat) (s : Bool) (m : Mag) : Nat × Flags :=
  match blockElem code with
  | some E => roundE E rm r s m
  | none =>
    if isZero m then (0, 0)
    else if lt ⟨127, 1, 0⟩ m then (unsigned 8 (if s then -127 else 127), Flag.saturated ||| Flag.inexact)
    else
      let (i, ix) := toInt rm r s m
      (unsigned 8 i, (if ix then Flag.inexact else 0) ||| if i = 0 then Flag.underflow else 0)

/-- The largest magnitude of a list of finite values. -/
def largest (vs : List Val) : Mag :=
  vs.foldl (fun a v => match v with | .fin _ m => maxMag a m | _ => a) zero

/-- A block of 16 values (R72): its exponent byte, its element codes and the flags.  `t` is the tensor scale. -/
def encodeBlock (code : Nat) (rm : RM) (fromTensor : Bool) (t : Nat) (rs : List Nat) (vs : List Val) :
    Nat × List Nat × Flags :=
  if !scaleOk t then (0xFF, vs.map fun _ => 0, Flag.invalid ||| Flag.blockNan ||| nonfinite vs)
  else if !vs.all isFinite then
    (0xFF, vs.map fun _ => 0,
      Flag.blockNan ||| Flag.nonfiniteIn ||| if vs.any (fun v => v == .inf false || v == .inf true) then Flag.invalid else 0)
  else
    let tm := match decodeF f32 t with | .fin _ m => m | _ => one
    let a := divMag (largest vs) tm
    let emax : Int := match blockElem code with | some E => E.emax | none => 6
    let eb0 : Int := if fromTensor then 0 else if isZero a then -127 else floorLog2 a - emax
    let eb := max (-127) (min 127 eb0)
    let clamp := if eb ≠ eb0 then Flag.scaleClamp else 0
    let qs := vs.zipIdx.map fun e =>
      match e.1 with
      | .fin s m => blockElemOf code rm (rs.getD e.2 0) s (divMag m { tm with exp := tm.exp + eb })
      | _ => (0, 0)
    ((eb + 127).toNat, qs.map Prod.fst, qs.foldl (fun f q => f ||| q.2) clamp)

/-- The element bytes of a block (R56). -/
def blockElemBytes (code : Nat) (cs : List Nat) : List Byte :=
  match code with
  | 5 => (List.range 4).flatMap fun i =>
      toLe 3 (cs.getD (4 * i) 0 + cs.getD (4 * i + 1) 0 * 64 + cs.getD (4 * i + 2) 0 * 4096 + cs.getD (4 * i + 3) 0 * 262144)
  | 6 => (List.range 8).flatMap fun i => toLe 1 (cs.getD (2 * i) 0 + cs.getD (2 * i + 1) 0 * 16)
  | _ => (List.range 16).flatMap fun i => toLe 1 (cs.getD i 0)

/-! ## Amax capture (R75) -/

/-- A magnitude rounded toward positive infinity to binary32; above the largest finite one, infinity. -/
def roundUpF32 (m : Mag) : Nat :=
  if isZero m then 0
  else
    let q := max (floorLog2 m - 23) (-149)
    let (t0, exact) := floorScale m q
    let t := if exact then t0 else t0 + 1
    (rne f32 (.fin false ⟨t, 1, q⟩)).1

/-- The capture of source values: the largest finite magnitude, and whether a NaN or an infinity was read. -/
def captureOf (vs : List Val) : Word32 × Bool := (BitVec.ofNat 32 (roundUpF32 (largest vs)), !vs.all isFinite)

end Sys2Proof.Machine
end

