-- ==== Sys2Proof/Config.lean ====
section
/-! DEFINITION. What an implementation fixes (fuses, straps, the stepping) and the values that the manual leaves
open or that rest on cryptography, each a constant with no body: nothing can be proved of its value. -/
namespace Sys2Proof.Config

/-! ## Fixed at manufacture or by the carrier -/

/-- TOP_ID.STEP_LETTER. -/
opaque steppingLetter : Nat
/-- TOP_ID.STEP_NUMBER. -/
opaque steppingNumber : Nat
/-- Bytes of the register chains of a clock domain in a capture (Table 14.7, kind 1). -/
opaque chainBytes : Nat → Nat
/-- Clock domains whose chains every capture holds: all but the sinter (R448). -/
def chainDomains : List Nat := (List.range 100).filter fun d => d != 93
/-- FRZ_SIZE_TAP: bytes of the TAP capture stream after the header: segments of kinds 1 to 4 with their headers. -/
def captureBytesTap : Nat := (chainDomains.map fun d => 32 + chainBytes d).sum + 4 * (32 + 262144) + (32 + 2097152) + (32 + 65536)
/-- FRZ_SIZE_PORT: the operand caches and accumulator memories beside them. -/
def captureBytesPort : Nat := captureBytesTap + 144 * (32 + 6291456) + 144 * (32 + 786432)
/-- By which the arrays of a quadrant are put in service first at manufacture; and how many spares of a quadrant there are beyond one. -/
opaque fuseDraw : Nat → Nat
opaque fuseMore : Nat → Nat
/-- How many arrays of its quadrant come before a physical array. -/
def fuseRank (n : Nat) : Nat :=
  ((List.range 36).filter fun i =>
    let m := n / 36 * 36 + i
    decide (fuseDraw m < fuseDraw n) || (decide (fuseDraw m = fuseDraw n) && decide (m < n))).length
/-- Spares of a quadrant at shipment: 1 to 4 (R15). -/
def fuseSparesOf (q : Nat) : Nat := 1 + fuseMore q % 4
/-- What a physical array is at shipment (R15): 0 in service, 32 in each quadrant; 1 a spare; 2 fused off. -/
def fuseArray (n : Nat) : Nat :=
  if fuseRank n < 32 then 0 else if fuseRank n < 32 + fuseSparesOf (n / 36) then 1 else 2
/-- The spare counts of TOP_CAPS. -/
def fuseSpares : Nat := fuseSparesOf 0 + fuseSparesOf 1 + fuseSparesOf 2 + fuseSparesOf 3
def fuseSpareMinQ : Nat := min (min (fuseSparesOf 0) (fuseSparesOf 1)) (min (fuseSparesOf 2) (fuseSparesOf 3))
/-- The router within its quadrant at which a clock domain other than an island attaches. -/
opaque attachRouter : Nat → Nat
/-- Module straps (R517). -/
opaque strapFeed : Nat
opaque strapSlot : Nat
/-- The MAC address base of the module (VNT_MAC_ADDR). -/
opaque fuseMacBase : Nat
/-- The oscillator trim word from fuses (CLK_AON_TRIM). -/
opaque fuseTrim : Nat
/-- The cooling class of the firmware configuration, which PWR_CFG.COOLING shows (Table 14.3). -/
opaque liquidCooled : Bool
/-- The first BOOT_ID drawn after power-on (CND_ZRT_BOOT). -/
opaque firstBootId : Nat

/-- The DeviceID digest, by the lifecycle fuses (Table 13.6). -/
opaque deviceId : Nat → Nat
/-- Firmware runs the device at the basic level, and sets CLK_LOCK, PWR_LOCK and FRZ_LOCK at start-up (Table 14.9). -/
opaque basicLevel : Bool
/-- Byte `i` of the AES-256-GCM key stream of a key and a nonce, and the tag over nonce, associated data and ciphertext (R438). -/
opaque gcmStream : List Byte → List Byte → Nat → Byte
opaque gcmTag : List Byte → List Byte → List Byte → List Byte → List Byte
/-- SHA-384 (R425, R434). -/
opaque sha384 : List Byte → List Byte

/-- Measurement blocks 1 to 4 (Table 13.7): the SHA-384 digests of the sinter ROM, of the sinter firmware and of the fumarole firmware of an
image, by its DIGEST, and of the firmware configuration. -/
opaque measureRom : List Byte
opaque measureSinter : Nat → List Byte
opaque measureFumarole : Nat → List Byte
opaque measureConfiguration : List Byte

/-! ## Free values -/

/-- A byte of the capture stream whose place the manual does not give, by capture and offset: the 256-byte header, and the segments
of kinds 1, 2 and 4. -/
opaque captureByte : Nat → Nat → Byte
/-- The AES-256-GCM key stream that encrypts a capture of an owned device (R450), by capture and offset after the header. -/
opaque captureKeystream : Nat → Nat → Byte

/-- LOG_FORMAT of the blocks that firmware of a VERSION writes (R496). -/
opaque logFormat : Nat → Nat

/-- A fresh value that the manual leaves open or that the sinter draws at random, by the running count of draws. -/
opaque freeValue : Nat → Word64
/-- Array cycles that pass on a running array in one nanosecond of device time: array, device time. -/
opaque arrayCycles : Nat → Nat → Nat

/-- The 32-bit CRC of a join record over a descriptor's identical fields (R274), whose polynomial and coverage order the
manual does not give. -/
opaque plumeCrc : List Byte → Word32
/-- The offset from GEY_BASE of the geyser that the server of a gather increments at the requester (R293), which Table 8.2
does not name. -/
opaque gatherGeyser : Nat

end Sys2Proof.Config
end

