-- ==== Sys2Proof/Machine/Registers.lean ====
section
/-! DEFINITION. The register tables of the manual: every register of every block of Table 1.6, its offset in register
space, its width and its fields with their types (Table 0.5) and reset values; and a name for each register and
each field.  Each table cites the chapter it stands in.  A register that the function reaches only through BAR0
(Table 12.3) has a key above the 4 GiB of register space. -/
namespace Sys2Proof.Machine

/-- The register field types of Table 0.5 (R4). -/
inductive FieldType where
  | rw | ro | wo | w1c | w1s | rc | rwl | rz
  deriving DecidableEq, Repr

/-- A field of a register: its lowest bit, its width, its type and its reset value, which may depend on the
register's offset where the manual gives one value per instance. -/
structure FieldDesc where
  lo : Nat
  width : Nat
  ty : FieldType
  reset : Nat → Nat

/-- A register of the manual: the offset of its first instance, the strides and counts of its instances (outermost
first), its width in bits and its fields.  Bits that no field covers are RZ. -/
structure RegDesc where
  name : String
  base : Nat
  strides : List (Nat × Nat)
  width : Nat
  fields : List FieldDesc

/-- A field with one reset value for every instance. -/
def fd (lo width : Nat) (ty : FieldType) (reset : Nat) : FieldDesc := ⟨lo, width, ty, fun _ => reset⟩

/-- A field of one register instance: the register's key, its lowest bit and its width. -/
structure FieldRef where
  reg : Nat
  lo : Nat
  width : Nat
  deriving DecidableEq, Repr

/-- Registers of the TOP block (spec/01_organisation.md, spec/16_module_and_electrical.md). -/
def regsTop : List RegDesc := [
  ⟨"TOP_ID", 0x0, [], 32, [fd 16 16 .ro 29184, fd 8 8 .ro (Config.steppingLetter), fd 0 8 .ro (Config.steppingNumber)]⟩,
  ⟨"TOP_CAPS", 0x4, [], 32, [fd 28 4 .ro 12, fd 24 4 .ro (Config.fuseSpareMinQ), fd 16 8 .ro (Config.fuseSpares), fd 8 8 .ro 128, fd 0 8 .ro 144]⟩,
  ⟨"TOP_DEVNUM", 0x8, [], 32, [fd 8 1 .rwl 0, fd 0 8 .rwl 0]⟩,
  ⟨"TOP_FDOM", 0xC, [], 32, [fd 12 4 .ro (Config.strapFeed), fd 0 12 .rwl 0]⟩,
  ⟨"TOP_DOMAIN_OK", 0x10, [(0x4, 4)], 32, [fd 0 32 .ro 0]⟩,
  ⟨"TOP_SERVICE", 0x20, [], 32, [fd 8 8 .ro 0, fd 4 1 .ro 0, fd 0 2 .ro 0]⟩,
  ⟨"TOP_EVT_DEST", 0x30, [], 64, [fd 20 1 .rwl 0, fd 0 20 .rwl 0]⟩,
  ⟨"TOP_EVT_LOST", 0x38, [], 32, [fd 0 32 .rc 0]⟩,
  ⟨"TOP_ACC_ERR", 0x40, [], 64, [fd 63 1 .w1c 0, fd 38 3 .ro 0, fd 32 6 .ro 0, fd 0 32 .ro 0]⟩,
  ⟨"TOP_DEVERR_CFG", 0x48, [], 32, [fd 0 1 .rwl 0]⟩,
  ⟨"TOP_LOCK", 0xFC, [], 32, [fd 0 1 .w1s 0]⟩,
  ⟨"TOP_STRAPS", 0x50, [], 32, [fd 4 4 .ro (Config.strapFeed), fd 0 4 .ro (Config.strapSlot)]⟩]

/-- Registers of the NUM block (spec/02_number_formats.md). -/
def regsNum : List RegDesc := [
  ⟨"NUM_FLAGS", 0x701000, [(0x40, 64)], 32, [fd 0 11 .w1c 0]⟩,
  ⟨"NUM_FIRST", 0x701008, [(0x40, 64)], 64, [fd 63 1 .w1c 0, fd 56 4 .ro 0, fd 48 7 .ro 0, fd 40 8 .ro 0, fd 0 40 .ro 0]⟩,
  ⟨"NUM_EVT_MASK", 0x701010, [(0x40, 64)], 32, [fd 0 11 .rw 0]⟩,
  ⟨"NUM_AMAX_BASE", 0x701018, [(0x40, 64)], 64, [fd 12 36 .rw 0]⟩,
  ⟨"NUM_AMAX_CFG", 0x701020, [(0x40, 64)], 32, [fd 16 1 .rw 0, fd 0 16 .rw 0]⟩]

/-- Registers of the ARR block (spec/03_runen_instruction_set.md, spec/04_matrix_and_accumulation.md, spec/05_vector_engine.md, spec/06_memory_conduits_geysers.md). -/
def regsArr : List RegDesc := [
  ⟨"ARR_CTL", 0x1000000, [(0x10000, 144)], 32, [fd 5 1 .wo 0, fd 4 1 .wo 0, fd 3 1 .wo 0, fd 2 1 .wo 0, fd 1 1 .wo 0]⟩,
  ⟨"ARR_STATUS", 0x1000004, [(0x10000, 144)], 32, [fd 22 1 .ro 0, fd 16 6 .ro 0, fd 8 8 .ro 0, fd 0 3 .ro 0]⟩,
  ⟨"ARR_PC", 0x1000008, [(0x10000, 144)], 64, [fd 4 44 .rw 0]⟩,
  ⟨"ARR_FAULT", 0x1000010, [(0x10000, 144)], 64, [fd 63 1 .w1c 0, fd 48 8 .ro 0, fd 43 5 .ro 0, fd 40 3 .ro 0, fd 34 6 .ro 0, fd 28 6 .ro 0]⟩,
  ⟨"ARR_FAULT_VAL", 0x1000018, [(0x10000, 144)], 64, [fd 0 64 .ro 0]⟩,
  ⟨"ARR_REPLAY", 0x1000020, [(0x10000, 144)], 32, [fd 0 32 .rc 0]⟩,
  ⟨"ARR_GROUPS", 0x1000028, [(0x10000, 144)], 64, [fd 0 64 .ro 0]⟩,
  ⟨"ARR_CTX", 0x1000030, [(0x10000, 144)], 64, [fd 12 36 .rw 0]⟩,
  ⟨"ARR_START_CND", 0x1000038, [(0x10000, 144)], 32, [fd 0 20 .rw 0]⟩,
  ⟨"ARR_ACC_CFG", 0x1000040, [(0x10000, 144)], 32, [fd 16 13 .rw 6144, fd 0 13 .rw 0]⟩,
  ⟨"ARR_ACC_STATUS", 0x1000044, [(0x10000, 144)], 32, [fd 19 1 .ro 0, fd 16 3 .ro 0, fd 8 8 .ro 0, fd 0 8 .ro 0]⟩,
  ⟨"ARR_ACC_DBG", 0x1000048, [(0x10000, 144)], 32, [fd 1 1 .ro 0, fd 0 1 .rw 0]⟩,
  ⟨"ARR_ACC_LINES", 0x100004C, [(0x10000, 144)], 32, [fd 16 13 .ro 0, fd 0 13 .ro 6144]⟩,
  ⟨"ARR_ACC_GRP", 0x1000050, [(0x10000, 144), (0x4, 8)], 32, [fd 20 12 .ro 0, fd 8 12 .ro 0, fd 7 1 .ro 0, fd 6 1 .ro 0, fd 4 2 .ro 0, fd 2 2 .ro 0, fd 0 2 .ro 0]⟩,
  ⟨"ARR_ACC_RECOMP", 0x1000070, [(0x10000, 144)], 32, [fd 0 32 .rc 0]⟩,
  ⟨"ARR_ACC_ECC", 0x1000074, [(0x10000, 144)], 32, [fd 16 16 .rc 0, fd 0 16 .rc 0]⟩,
  ⟨"ARR_ACC_FAULT", 0x1000078, [(0x10000, 144)], 32, [fd 4 3 .ro 0, fd 0 4 .ro 0]⟩,
  ⟨"ARR_MM_BUSY", 0x1000080, [(0x10000, 144)], 64, [fd 0 64 .ro 0]⟩,
  ⟨"ARR_VEC_STATUS", 0x10000C0, [(0x10000, 144)], 32, [fd 4 4 .ro 0, fd 3 1 .ro 0]⟩,
  ⟨"ARR_EPROG_ERR", 0x10000C4, [(0x10000, 144)], 32, [fd 31 1 .w1c 0, fd 10 6 .ro 0, fd 8 2 .ro 0, fd 0 4 .ro 0]⟩,
  ⟨"ARR_VEC_BUSY", 0x10000C8, [(0x10000, 144)], 64, [fd 0 64 .ro 0]⟩,
  ⟨"ARR_OC_ECC", 0x10000D0, [(0x10000, 144)], 32, [fd 16 16 .rc 0, fd 0 16 .rc 0]⟩,
  ⟨"ARR_OC_POISON", 0x10000D8, [(0x10000, 144)], 64, [fd 63 1 .w1c 0, fd 6 17 .ro 0]⟩,
  ⟨"ARR_OC_CFG", 0x1000090, [(0x10000, 144)], 32, [fd 16 7 .rw 96, fd 0 7 .rw 0]⟩,
  ⟨"ARR_WAKE", 0x1000094, [(0x10000, 144)], 32, [fd 0 1 .ro 0]⟩]

/-- Registers of the HBM block (spec/06_memory_conduits_geysers.md). -/
def regsHbm : List RegDesc := [
  ⟨"HBM_STATUS", 0x6000000, [(0x10000, 12)], 32, [fd 10 1 .ro 0, fd 9 1 .ro 0, fd 8 1 .ro 0, fd 0 3 .ro 0]⟩,
  ⟨"HBM_PC_MAP", 0x6000008, [(0x10000, 12)], 64, [fd 0 64 .ro 18446744073709551615]⟩,
  ⟨"HBM_ECC", 0x6000010, [(0x10000, 12)], 32, [fd 16 16 .rc 0, fd 0 16 .rc 0]⟩,
  ⟨"HBM_POISON", 0x6000018, [(0x10000, 12)], 64, [fd 63 1 .w1c 0, fd 6 30 .ro 0]⟩,
  ⟨"HBM_SCRUB_CFG", 0x6000020, [(0x10000, 12)], 32, [fd 0 16 .rwl 24]⟩,
  ⟨"HBM_AOW", 0x6000028, [(0x10000, 12)], 64, [fd 0 64 .ro 0]⟩,
  ⟨"HBM_LOCK", 0x6100000, [], 32, [fd 0 1 .w1s 0]⟩]

/-- Registers of the CND block (spec/06_memory_conduits_geysers.md, spec/07_remote_memory_transport.md). -/
def regsCnd : List RegDesc := [
  ⟨"CND_TABLE_BASE", 0x2000000, [], 64, [fd 26 22 .rwl 0, fd 0 1 .rwl 0]⟩,
  ⟨"CND_FLUSH", 0x2000008, [], 32, [fd 31 1 .ro 1, fd 30 1 .wo 0, fd 29 1 .wo 0, fd 0 20 .wo 0]⟩,
  ⟨"CND_ENG_CACHED", 0x2000100, [(0x4, 4)], 32, [fd 0 13 .ro 0]⟩,
  ⟨"CND_ENG_MISS", 0x2000110, [(0x4, 4)], 32, [fd 0 32 .rc 0]⟩,
  ⟨"CND_LOCK", 0x20000FC, [], 32, [fd 0 1 .w1s 0]⟩,
  ⟨"CND_POST_DATA", 0x2010000, [(0x100, 64), (0x4, 16)], 32, [fd 0 32 .rw 0]⟩,
  ⟨"CND_CMD", 0x2010040, [(0x100, 64)], 32, [fd 20 2 .wo 0, fd 0 20 .wo 0]⟩,
  ⟨"CND_RESULT", 0x2010044, [(0x100, 64)], 32, [fd 31 1 .ro 1, fd 0 3 .ro 0]⟩,
  ⟨"CND_TAKE_DATA", 0x2010080, [(0x100, 64), (0x4, 16)], 32, [fd 0 32 .ro 0]⟩,
  ⟨"CND_GEY_RMO", 0x20100C0, [(0x100, 64)], 32, [fd 20 1 .rw 0, fd 0 20 .rw 0]⟩,
  ⟨"CND_ZRT_CFG", 0x2020000, [], 32, [fd 31 1 .rwl 0, fd 30 1 .rwl 1, fd 27 3 .rwl 6, fd 24 3 .rwl 4, fd 18 6 .rwl 0, fd 0 16 .rwl 50592]⟩,
  ⟨"CND_ZRT_GROUP", 0x2020004, [], 32, [fd 0 32 .rwl 0]⟩,
  ⟨"CND_ZRT_BOOT", 0x2020008, [], 32, [fd 0 32 .ro (Config.firstBootId)]⟩,
  ⟨"CND_ZRT_PATH_BASE", 0x2020010, [], 64, [fd 18 30 .rwl 0]⟩,
  ⟨"CND_ZRT_POOL", 0x2020018, [], 64, [fd 48 16 .rwl 16384, fd 13 35 .rwl 0]⟩,
  ⟨"CND_ZRT_RTO", 0x2020020, [], 32, [fd 20 12 .rwl 1000, fd 10 10 .rwl 20, fd 0 10 .rwl 5]⟩,
  ⟨"CND_ZRT_LIMITS", 0x2020024, [], 32, [fd 24 8 .rwl 8, fd 12 12 .rwl 100, fd 0 12 .rwl 100]⟩,
  ⟨"CND_ZRT_ACK", 0x2020028, [], 32, [fd 8 8 .rwl 8, fd 0 8 .rwl 20]⟩,
  ⟨"CND_ZRT_RATE", 0x202002C, [], 32, [fd 24 8 .rwl 10, fd 16 8 .rwl 50, fd 0 16 .rwl 1000]⟩,
  ⟨"CND_ZRT_TX", 0x2020040, [], 64, [fd 0 64 .ro 0]⟩,
  ⟨"CND_ZRT_RX", 0x2020048, [], 64, [fd 0 64 .ro 0]⟩,
  ⟨"CND_ZRT_RETX", 0x2020050, [], 64, [fd 0 64 .ro 0]⟩,
  ⟨"CND_ZRT_CE", 0x2020058, [], 64, [fd 0 64 .ro 0]⟩,
  ⟨"CND_ZRT_DISCARD", 0x2020060, [(0x4, 8)], 32, [fd 0 32 .rc 0]⟩,
  ⟨"CND_RMO_OUT", 0x2020080, [(0x4, 4)], 32, [fd 0 16 .ro 0]⟩]

/-- Registers of the GEY block (spec/06_memory_conduits_geysers.md). -/
def regsGey : List RegDesc := [
  ⟨"GEY_COUNT", 0x3000000, [(0x20, 65536)], 64, [fd 0 64 .rw 0]⟩,
  ⟨"GEY_TARGET", 0x3000008, [(0x20, 65536)], 64, [fd 0 64 .rw 0]⟩,
  ⟨"GEY_ACT0", 0x3000010, [(0x20, 65536)], 64, [fd 63 1 .rw 0, fd 62 1 .rw 0, fd 61 1 .rw 0, fd 60 1 .rw 0, fd 59 1 .rw 0, fd 55 4 .ro 0, fd 48 7 .rw 0, fd 32 16 .rw 0, fd 20 11 .rw 0, fd 0 20 .rw 0]⟩,
  ⟨"GEY_ACT1", 0x3000018, [(0x20, 65536)], 64, [fd 56 8 .rw 0, fd 50 6 .rw 0, fd 32 16 .rw 0, fd 0 16 .rw 0]⟩]

/-- Registers of the PLM block (spec/08_mapping_and_collectives.md). -/
def regsPlm : List RegDesc := [
  ⟨"PLM_SEQ", 0x4000000, [(0x4, 4)], 32, [fd 16 5 .ro 0]⟩,
  ⟨"PLM_LOCK", 0x40000FC, [], 32, [fd 0 1 .w1s 0]⟩,
  ⟨"PLM_DESC", 0x4010000, [(0x100, 64)], 64, [fd 8 40 .rw 0]⟩,
  ⟨"PLM_CTL", 0x4010008, [(0x100, 64)], 32, [fd 1 1 .wo 0, fd 0 1 .wo 0]⟩,
  ⟨"PLM_STATUS", 0x401000C, [(0x100, 64)], 32, [fd 28 4 .ro 0, fd 8 8 .ro 0, fd 0 8 .ro 0]⟩,
  ⟨"PLM_STEP", 0x4010010, [(0x100, 64)], 64, [fd 0 64 .rw 0]⟩,
  ⟨"PLM_STEP_T0", 0x4010018, [(0x100, 64)], 64, [fd 0 64 .ro 0]⟩,
  ⟨"PLM_STEP_DEADLINE", 0x4010020, [(0x100, 64)], 32, [fd 0 32 .rw 0]⟩,
  ⟨"PLM_HOP_TIMEOUT", 0x4010024, [(0x100, 64)], 32, [fd 0 16 .rw 50]⟩,
  ⟨"PLM_OWNER", 0x4010028, [(0x100, 64)], 32, [fd 8 1 .rwl 0, fd 0 6 .rwl 0]⟩,
  ⟨"PLM_COUNTS", 0x4010030, [(0x100, 64)], 64, [fd 48 16 .ro 0, fd 32 16 .ro 0, fd 0 32 .ro 0]⟩,
  ⟨"PLM_ADDS", 0x4010038, [(0x100, 64)], 64, [fd 0 64 .ro 0]⟩]

/-- Registers of the PRF block (spec/09_training_steps_and_generation.md). -/
def regsPrf : List RegDesc := [
  ⟨"PRF_LOCK", 0x6000FC, [], 32, [fd 0 1 .w1s 0]⟩,
  ⟨"PRF_STEP_OWNER", 0x601000, [(0x100, 4)], 32, [fd 8 1 .rwl 0, fd 0 6 .rwl 0]⟩,
  ⟨"PRF_STEP_CFG", 0x601004, [(0x100, 4)], 32, [fd 31 1 .rw 0, fd 22 1 .rw 0, fd 16 6 .rw 0, fd 0 9 .rw 1]⟩,
  ⟨"PRF_STEP_GEY", 0x601008, [(0x100, 4)], 64, [fd 48 16 .rw 0, fd 32 16 .rw 0, fd 16 16 .rw 0, fd 0 16 .rw 0]⟩,
  ⟨"PRF_STEP_MARK", 0x601010, [(0x100, 4)], 64, [fd 32 1 .rw 0, fd 16 16 .rw 0, fd 0 16 .rw 0]⟩,
  ⟨"PRF_STEP_END0", 0x601018, [(0x100, 4)], 64, [fd 48 16 .rw 0, fd 32 16 .rw 0, fd 16 16 .rw 0, fd 0 16 .rw 0]⟩,
  ⟨"PRF_STEP_END1", 0x601020, [(0x100, 4)], 64, [fd 32 16 .rw 0, fd 16 16 .rw 0, fd 0 16 .rw 0]⟩,
  ⟨"PRF_STEP_STATUS", 0x601028, [(0x100, 4)], 32, [fd 30 2 .ro 0, fd 29 1 .ro 0, fd 0 16 .rc 0]⟩,
  ⟨"PRF_STEP_NUM", 0x601030, [(0x100, 4)], 64, [fd 0 64 .rw 0]⟩,
  ⟨"PRF_STEP_TAG", 0x601038, [(0x100, 4)], 64, [fd 0 64 .ro 0]⟩,
  ⟨"PRF_STEP_COUNTS", 0x601040, [(0x100, 4)], 64, [fd 32 32 .ro 0, fd 0 32 .ro 0]⟩,
  ⟨"PRF_RING", 0x680000, [(0x20000, 4), (0x80, 1024), (0x8, 16)], 64, [fd 0 64 .ro 0]⟩]

/-- Registers of the LOG block (spec/10_surviving_failure.md). -/
def regsLog : List RegDesc := [
  ⟨"LOG_CTL", 0x500000, [], 32, [fd 31 1 .rwl 0, fd 30 1 .rwl 0, fd 20 8 .rwl 0, fd 0 20 .rwl 0]⟩,
  ⟨"LOG_STATUS", 0x500004, [], 32, [fd 31 1 .ro 0, fd 30 1 .ro 0, fd 23 7 .ro 0, fd 0 16 .rc 0]⟩,
  ⟨"LOG_LSN", 0x500008, [], 64, [fd 0 64 .ro 0]⟩,
  ⟨"LOG_DURABLE", 0x500010, [], 64, [fd 0 64 .ro 0]⟩,
  ⟨"LOG_AREA", 0x500018, [], 64, [fd 32 32 .rwl 512, fd 0 32 .rwl 512]⟩,
  ⟨"LOG_BUF", 0x500020, [], 64, [fd 28 20 .rwl 0]⟩,
  ⟨"LOG_STAGE", 0x500028, [], 64, [fd 48 16 .rwl 0, fd 30 18 .rwl 0]⟩,
  ⟨"LOG_PROT_THRESH", 0x500030, [], 32, [fd 16 11 .rwl 256, fd 0 16 .rwl 256]⟩,
  ⟨"LOG_THR0", 0x500034, [], 32, [fd 24 8 .rwl 16, fd 16 8 .rwl 64, fd 8 8 .rwl 2, fd 0 8 .rwl 4]⟩,
  ⟨"LOG_THR1", 0x500038, [], 32, [fd 16 16 .rwl 1024, fd 0 16 .rwl 8]⟩,
  ⟨"LOG_THR_WINDOW", 0x50003C, [], 32, [fd 0 32 .rwl 86400]⟩,
  ⟨"LOG_SNAP", 0x500040, [], 64, [fd 56 8 .ro 0, fd 48 8 .ro 0, fd 0 48 .ro 0]⟩,
  ⟨"LOG_LOCK", 0x5000FC, [], 32, [fd 0 1 .w1s 0]⟩,
  ⟨"LOG_APPEND", 0x501000, [(0x40, 64)], 64, [fd 12 36 .rw 0, fd 0 5 .rw 0]⟩,
  ⟨"LOG_APPEND_GEY", 0x501008, [(0x40, 64)], 64, [fd 48 1 .rw 0, fd 32 16 .rw 0, fd 16 16 .rw 0, fd 0 16 .rw 0]⟩,
  ⟨"LOG_PROT", 0x501010, [(0x40, 64)], 64, [fd 52 12 .rw 0, fd 6 42 .rw 0]⟩,
  ⟨"LOG_SHADOW_HDR", 0x501018, [(0x40, 64)], 64, [fd 6 42 .rw 0]⟩,
  ⟨"LOG_REPLAY", 0x501020, [(0x40, 64)], 64, [fd 63 1 .rw 0, fd 4 44 .rw 0]⟩,
  ⟨"LOG_ACCEPTED", 0x501028, [(0x40, 64)], 64, [fd 0 64 .ro 0]⟩]

/-- Registers of the VNT block (spec/11_vent_ports.md). -/
def regsVnt : List RegDesc := [
  ⟨"VNT_CTL", 0x5000000, [(0x10000, 16)], 32, [fd 31 1 .rw 0, fd 30 1 .wo 0, fd 5 1 .rwl 1, fd 3 2 .rwl 0, fd 0 2 .rwl 0]⟩,
  ⟨"VNT_STATUS", 0x5000004, [(0x10000, 16)], 32, [fd 28 4 .ro 0, fd 24 4 .ro 15, fd 23 1 .ro 0, fd 16 4 .ro 0, fd 0 16 .ro 0]⟩,
  ⟨"VNT_MAC_ADDR", 0x5000008, [(0x10000, 16)], 64, [⟨0, 48, .rwl, fun off => Config.fuseMacBase + 4 * ((off - 0x5000000) / 0x10000)⟩]⟩,
  ⟨"VNT_MAC_CFG", 0x5000010, [(0x10000, 16)], 32, [fd 16 16 .rwl 9022, fd 15 1 .rwl 0, fd 14 1 .rwl 0, fd 0 12 .rwl 0]⟩,
  ⟨"VNT_IP4", 0x5000014, [(0x10000, 16)], 32, [fd 0 32 .rwl 0]⟩,
  ⟨"VNT_IP6_HI", 0x5000018, [(0x10000, 16)], 64, [fd 0 64 .rwl 0]⟩,
  ⟨"VNT_IP6_LO", 0x5000020, [(0x10000, 16)], 64, [fd 0 64 .rwl 0]⟩,
  ⟨"VNT_NEXTHOP", 0x5000040, [(0x10000, 16), (0x8, 4)], 64, [fd 63 1 .rw 0, fd 0 48 .rw 0]⟩,
  ⟨"VNT_TXQ_THRESH", 0x5000080, [(0x10000, 16), (0x4, 8)], 32, [fd 16 8 .rw 144, fd 8 8 .rw 16, fd 0 8 .rw 16]⟩,
  ⟨"VNT_TXQ_UNDERRUN", 0x50000A0, [(0x10000, 16), (0x4, 8)], 32, [fd 0 32 .rc 0]⟩,
  ⟨"VNT_SEC_CFG", 0x50000C0, [(0x10000, 16)], 32, [fd 30 2 .rwl 0, fd 29 1 .rwl 1, fd 0 8 .rwl 0]⟩,
  ⟨"VNT_SEC_STATUS", 0x50000C4, [(0x10000, 16)], 32, [fd 0 16 .ro 0]⟩,
  ⟨"VNT_LOCK", 0x50000FC, [(0x10000, 16)], 32, [fd 0 1 .w1s 0]⟩,
  ⟨"VNT_TX_FRAMES", 0x5000100, [(0x10000, 16), (0x40, 4)], 64, [fd 0 64 .ro 0]⟩,
  ⟨"VNT_RX_FRAMES", 0x5000108, [(0x10000, 16), (0x40, 4)], 64, [fd 0 64 .ro 0]⟩,
  ⟨"VNT_RX_FCS_ERR", 0x5000110, [(0x10000, 16), (0x40, 4)], 64, [fd 0 64 .ro 0]⟩,
  ⟨"VNT_RX_OVERFLOW", 0x5000120, [(0x10000, 16), (0x40, 4)], 64, [fd 0 64 .ro 0]⟩,
  ⟨"VNT_TX_FLUSHED", 0x5000128, [(0x10000, 16), (0x40, 4)], 64, [fd 0 64 .ro 0]⟩,
  ⟨"VNT_FEC_CORR", 0x5000130, [(0x10000, 16), (0x40, 4)], 64, [fd 0 64 .ro 0]⟩,
  ⟨"VNT_FEC_UNCORR", 0x5000138, [(0x10000, 16), (0x40, 4)], 64, [fd 0 64 .ro 0]⟩,
  ⟨"VNT_RX_DISCARD", 0x5000118, [(0x10000, 16), (0x40, 4)], 64, [fd 48 16 .rc 0, fd 32 16 .rc 0, fd 16 16 .rc 0, fd 0 16 .rc 0]⟩,
  ⟨"VNT_LANE_STAT", 0x5000200, [(0x10000, 16), (0x4, 4)], 32, [fd 31 1 .ro 0, fd 16 8 .ro 0, fd 0 16 .rc 0]⟩,
  ⟨"VNT_PTP_CFG", 0x5000300, [(0x10000, 16)], 32, [fd 31 1 .rwl 0, fd 30 1 .rwl 0, fd 28 2 .rwl 0]⟩,
  ⟨"VNT_PTP_LAT", 0x5000304, [(0x10000, 16)], 32, [fd 16 16 .rwl 0, fd 0 16 .rwl 0]⟩,
  ⟨"VNT_PTP_FIFO", 0x5000308, [(0x10000, 16)], 32, [fd 31 1 .wo 0, fd 16 8 .rc 0, fd 0 7 .ro 0]⟩,
  ⟨"VNT_PTP_TS_TIME", 0x5000310, [(0x10000, 16)], 64, [fd 0 64 .ro 0]⟩,
  ⟨"VNT_PTP_TS_AON", 0x5000318, [(0x10000, 16)], 64, [fd 0 48 .ro 0]⟩,
  ⟨"VNT_PTP_TS_INFO", 0x5000320, [(0x10000, 16)], 64, [fd 33 1 .ro 0, fd 32 1 .ro 0, fd 30 2 .ro 0, fd 24 4 .ro 0, fd 16 8 .ro 0, fd 0 16 .ro 0]⟩,
  ⟨"VNT_WAKE_CFG", 0x5000400, [], 32, [fd 30 2 .rw 0, fd 20 4 .rw 3, fd 0 8 .rw 100]⟩,
  ⟨"VNT_WAKE_TIMES", 0x5000404, [], 32, [fd 24 8 .rw 50, fd 16 8 .rw 150, fd 8 8 .rw 50, fd 0 8 .rw 150]⟩,
  ⟨"VNT_WAKE_STATUS", 0x5000408, [], 32, [fd 31 1 .ro 0, fd 24 1 .w1c 0, fd 0 4 .ro 0]⟩]

/-- Registers of the MBX block (spec/12_host_partitions_mailboxes.md). -/
def regsMbx : List RegDesc := [
  ⟨"MBX_TIMEOUT", 0x50000, [], 32, [fd 0 16 .rwl 1000]⟩,
  ⟨"MBX_LOCK", 0x500FC, [], 32, [fd 0 1 .w1s 0]⟩,
  ⟨"MBX_DATA", 0x51000, [(0x80, 256), (0x4, 16)], 32, [fd 0 32 .rw 0]⟩,
  ⟨"MBX_CTL", 0x51040, [(0x80, 256)], 32, [fd 8 1 .wo 0, fd 0 5 .rw 8]⟩,
  ⟨"MBX_STATUS", 0x51044, [(0x80, 256)], 32, [fd 16 16 .ro 0, fd 8 8 .ro 0, fd 0 3 .ro 0]⟩,
  ⟨"MBX_ACK", 0x51048, [(0x80, 256)], 32, [fd 0 1 .wo 0]⟩]

/-- Registers of the DBL block (spec/12_host_partitions_mailboxes.md). -/
def regsDbl : List RegDesc := [
  ⟨"DBL_PEND", 0x61000, [(0x10, 64)], 32, [fd 0 32 .w1c 0]⟩,
  ⟨"DBL_MASK", 0x61004, [(0x10, 64)], 32, [fd 0 32 .rw 4294967264]⟩,
  ⟨"DBL_RING", 0x61008, [(0x10, 64)], 32, [fd 16 16 .wo 0]⟩,
  ⟨"DBL_CFG", 0x6100C, [(0x10, 64)], 32, [fd 0 11 .rw 0]⟩]

/-- Registers of the PRT block (spec/12_host_partitions_mailboxes.md). -/
def regsPrt : List RegDesc := [
  ⟨"PRT_SCHED", 0x100000, [], 32, [fd 24 8 .rwl 1, fd 0 16 .rwl 20]⟩,
  ⟨"PRT_LOCK", 0x1000FC, [], 32, [fd 0 1 .w1s 0]⟩,
  ⟨"PRT_SEG_OWNER", 0x101000, [(0x4, 768)], 32, [fd 31 1 .ro 0, fd 30 1 .ro 0, fd 16 6 .ro 0, ⟨0, 10, .ro, fun off => (off - 0x101000) / 4⟩]⟩,
  ⟨"PRT_STATE", 0x110000, [(0x400, 64)], 32, [⟨29, 3, .ro, fun off => if off = 0x110000 then 2 else 0⟩, fd 27 2 .ro 0, fd 25 2 .ro 0, fd 16 8 .ro 0, fd 0 16 .ro 0]⟩,
  ⟨"PRT_MODE", 0x110004, [(0x400, 64)], 32, [fd 1 1 .ro 0, fd 0 1 .ro 0]⟩,
  ⟨"PRT_BLOCKS", 0x110008, [(0x400, 64)], 32, [⟨0, 21, .ro, fun off => if off = 0x110008 then 0x1FFFFF else 0⟩]⟩,
  ⟨"PRT_JOB", 0x11000C, [(0x400, 64)], 32, [fd 0 32 .ro 0]⟩,
  ⟨"PRT_GEY", 0x110010, [(0x400, 64)], 64, [fd 32 17 .ro 0, fd 0 16 .ro 0]⟩,
  ⟨"PRT_LIMITS", 0x110018, [(0x400, 64)], 64, [fd 32 21 .ro 0, fd 8 8 .ro 255, fd 0 8 .ro 0]⟩,
  ⟨"PRT_EVT", 0x110020, [(0x400, 64)], 32, [fd 21 1 .rw 0, fd 20 1 .ro 0, fd 0 20 .ro 0]⟩,
  ⟨"PRT_QOS", 0x110028, [(0x400, 64)], 64, [fd 48 10 .rw 0, fd 32 10 .rw 0, fd 16 10 .rw 0, fd 0 10 .rw 0]⟩,
  ⟨"PRT_IRQ", 0x110034, [(0x400, 64)], 32, [fd 24 8 .rw 1, fd 0 16 .rw 0]⟩,
  ⟨"PRT_PEER", 0x110040, [(0x400, 64), (0x4, 8)], 32, [fd 0 32 .ro 0]⟩,
  ⟨"PRT_USE_ARRAY", 0x110080, [(0x400, 64)], 64, [fd 0 64 .ro 0]⟩,
  ⟨"PRT_USE_HBM", 0x110088, [(0x400, 64)], 64, [fd 0 64 .ro 0]⟩,
  ⟨"PRT_USE_VENT", 0x110090, [(0x400, 64)], 64, [fd 0 64 .ro 0]⟩,
  ⟨"PRT_USE_CND", 0x110098, [(0x400, 64)], 64, [fd 0 64 .ro 0]⟩,
  ⟨"PRT_USE_LENT", 0x1100A0, [(0x400, 64)], 64, [fd 0 64 .ro 0]⟩,
  ⟨"PRT_LMAP", 0x110200, [(0x400, 64), (0x4, 128)], 32, [fd 31 1 .ro 0, fd 16 8 .ro 0]⟩]

/-- Registers of the PCI block (spec/12_host_partitions_mailboxes.md). -/
def regsPci : List RegDesc := [
  ⟨"PCI_CFG", 0x7000000, [], 32, [fd 31 1 .ro 0, fd 0 4 .rwl 7]⟩,
  ⟨"PCI_LINK", 0x7000004, [], 32, [fd 28 4 .ro 0, fd 16 5 .ro 0, fd 0 1 .ro 0]⟩,
  ⟨"PCI_ERR", 0x7000008, [], 64, [fd 48 16 .rc 0, fd 32 16 .rc 0, fd 16 16 .rc 0, fd 0 16 .rc 0]⟩,
  ⟨"PCI_LOCK", 0x70000FC, [], 32, [fd 0 1 .w1s 0]⟩]

/-- Registers of the BAR0 block (spec/12_host_partitions_mailboxes.md). -/
def regsBar0 : List RegDesc := [
  ⟨"PCI_APERTURE", 0x100002000, [(0x10000, 64)], 64, [fd 30 18 .rw 0]⟩,
  ⟨"PCI_GEY_INC", 0x100002008, [(0x10000, 64)], 64, [fd 32 32 .wo 0, fd 0 16 .wo 0]⟩,
  ⟨"PCI_FN_STATUS", 0x100002010, [(0x10000, 64)], 32, [fd 29 3 .ro 0, fd 24 2 .ro 0, fd 16 8 .ro 0, fd 0 1 .ro 0]⟩]

/-- Registers of the SEC block (spec/13_secrecy.md). -/
def regsSec : List RegDesc := [
  ⟨"SEC_LIFECYCLE", 0x200000, [], 32, [fd 16 1 .ro 0, fd 8 5 .ro 0, fd 7 1 .ro 0, fd 0 3 .ro 1]⟩,
  ⟨"SEC_OWNER", 0x200008, [], 64, [fd 63 1 .ro 0, fd 0 63 .ro 0]⟩,
  ⟨"SEC_DEBUG", 0x200010, [], 32, [fd 31 1 .ro 0, fd 30 1 .ro 0, fd 28 2 .ro 0, fd 24 4 .ro 0, fd 16 8 .ro 0, fd 0 16 .ro 0]⟩,
  ⟨"SEC_SEAL0", 0x200020, [], 64, [fd 0 64 .ro 0]⟩,
  ⟨"SEC_SEAL1", 0x200028, [], 64, [fd 0 64 .ro 0]⟩,
  ⟨"SEC_CONSENT0", 0x200030, [], 64, [fd 0 64 .ro 0]⟩,
  ⟨"SEC_CONSENT1", 0x200038, [], 64, [fd 0 64 .ro 0]⟩,
  ⟨"SEC_INTEGRITY", 0x200040, [], 32, [fd 24 8 .ro 0, fd 0 24 .rc 0]⟩,
  ⟨"SEC_SESSIONS", 0x200048, [], 32, [fd 0 5 .ro 0]⟩,
  ⟨"SEC_LOCK", 0x2000FC, [], 32, [fd 0 1 .w1s 0]⟩]

/-- Registers of the CLK block (spec/14_clocks_power_reset_freeze.md). -/
def regsClk : List RegDesc := [
  ⟨"CLK_SRC", 0x10000, [], 32, [fd 31 1 .ro 0, fd 30 1 .ro 0, fd 28 2 .ro 0, fd 0 16 .rc 0]⟩,
  ⟨"CLK_AON_TRIM", 0x10004, [], 32, [fd 16 16 .ro 10000, fd 0 16 .ro (Config.fuseTrim)]⟩,
  ⟨"CLK_TIME_STATUS", 0x10008, [], 32, [fd 31 1 .ro 0]⟩,
  ⟨"CLK_LOCK", 0x100FC, [], 32, [fd 0 1 .w1s 0]⟩,
  ⟨"CLK_ISL_FREQ", 0x10100, [(0x4, 36)], 32, [fd 28 4 .ro 0, fd 16 12 .ro 1200, fd 0 11 .rw 1200]⟩,
  ⟨"CLK_GATE", 0x10200, [(0x4, 4)], 32, [⟨0, 32, .rw, fun off => if off = 0x1020C then 0xF else 0xFFFFFFFF⟩]⟩,
  ⟨"CLK_GATE_STAT", 0x10210, [(0x4, 4)], 32, [⟨0, 32, .ro, fun off => if off = 0x1021C then 0xF else 0xFFFFFFFF⟩]⟩]

/-- Registers of the PWR block (spec/14_clocks_power_reset_freeze.md). -/
def regsPwr : List RegDesc := [
  ⟨"PWR_CFG", 0x20000, [], 32, [fd 31 1 .rwl 0, fd 30 1 .rw 1, fd 0 16 .rw 1200]⟩,
  ⟨"PWR_STATUS", 0x20004, [], 32, [fd 29 3 .ro 2, fd 16 13 .ro 0, fd 0 13 .ro 0]⟩,
  ⟨"PWR_CEIL", 0x20008, [], 32, [fd 21 11 .ro 1300, fd 10 11 .ro 1300, fd 0 2 .ro 0]⟩,
  ⟨"PWR_TEMP", 0x2000C, [], 32, [fd 24 8 .ro 0, fd 8 8 .ro 0, fd 0 8 .ro 0]⟩,
  ⟨"PWR_THERM_CFG", 0x20010, [], 32, [fd 16 8 .rwl 105, fd 8 8 .rwl 95, fd 0 8 .rwl 90]⟩,
  ⟨"PWR_ENERGY", 0x20018, [], 64, [fd 0 64 .ro 0]⟩,
  ⟨"PWR_WAKE", 0x20020, [], 32, [fd 1 1 .rw 1, fd 0 1 .rw 0]⟩,
  ⟨"PWR_LOCK", 0x200FC, [], 32, [fd 0 1 .w1s 0]⟩]

/-- Registers of the RST block (spec/14_clocks_power_reset_freeze.md). -/
def regsRst : List RegDesc := [
  ⟨"RST_CAUSE", 0x30000, [], 32, [fd 31 1 .ro 0, fd 16 8 .ro 0, fd 0 4 .ro 1]⟩,
  ⟨"RST_ARRAY", 0x30008, [], 32, [fd 31 1 .wo 0, fd 30 1 .ro 0, fd 0 8 .wo 0]⟩,
  ⟨"RST_VENT", 0x3000C, [], 32, [fd 31 1 .wo 0, fd 0 4 .wo 0]⟩,
  ⟨"RST_WARM", 0x30010, [], 32, [fd 0 32 .wo 0]⟩]

/-- Registers of the FRZ block (spec/14_clocks_power_reset_freeze.md). -/
def regsFrz : List RegDesc := [
  ⟨"FRZ_CTL", 0x40000, [], 32, [fd 31 1 .wo 0]⟩,
  ⟨"FRZ_CFG", 0x40004, [], 32, [fd 31 1 .rwl 0, fd 30 1 .rwl 0, fd 29 1 .rwl 0, fd 24 4 .rwl 1, fd 16 8 .rwl 0, fd 0 16 .rwl 50593]⟩,
  ⟨"FRZ_DEST_MAC", 0x40008, [], 64, [fd 0 48 .rwl 0]⟩,
  ⟨"FRZ_DEST_IP_HI", 0x40010, [], 64, [fd 0 64 .rwl 0]⟩,
  ⟨"FRZ_DEST_IP_LO", 0x40018, [], 64, [fd 0 64 .rwl 0]⟩,
  ⟨"FRZ_STATUS", 0x40020, [], 32, [fd 31 1 .ro 0, fd 30 1 .ro 0, fd 16 8 .ro 0, fd 5 1 .ro 0, fd 4 1 .ro 0, fd 0 4 .ro 0]⟩,
  ⟨"FRZ_SIZE_TAP", 0x40028, [], 64, [fd 0 64 .ro (Config.captureBytesTap)]⟩,
  ⟨"FRZ_SIZE_PORT", 0x40030, [], 64, [fd 0 64 .ro (Config.captureBytesPort)]⟩,
  ⟨"FRZ_LOCK", 0x400FC, [], 32, [fd 0 1 .w1s 0]⟩]

/-- Registers of the FW block (spec/15_firmware_and_cartridge.md). -/
def regsFw : List RegDesc := [
  ⟨"FW_STATUS", 0x300000, [], 32, [fd 31 1 .ro 0, fd 30 1 .ro 0, fd 29 1 .ro 0, fd 28 1 .ro 0, fd 0 1 .ro 0]⟩,
  ⟨"FW_SLOT0", 0x300010, [], 64, [fd 61 3 .ro 4, fd 58 3 .ro 0, fd 48 7 .ro 0, fd 0 32 .ro 0]⟩,
  ⟨"FW_SLOT1", 0x300018, [], 64, [fd 61 3 .ro 0, fd 58 3 .ro 0, fd 48 7 .ro 0, fd 0 32 .ro 0]⟩,
  ⟨"FW_SVN_MIN", 0x300020, [], 32, [fd 0 7 .ro 0]⟩,
  ⟨"FW_POLICY", 0x300028, [], 64, [fd 63 1 .ro 0, fd 0 32 .ro 0]⟩,
  ⟨"FW_LOCK", 0x3000FC, [], 32, [fd 0 1 .w1s 0]⟩]

/-- Registers of the CRT block (spec/15_firmware_and_cartridge.md). -/
def regsCrt : List RegDesc := [
  ⟨"CRT_STATUS", 0x400000, [], 32, [fd 28 4 .ro 0, fd 27 1 .ro 0, fd 26 1 .ro 0, fd 25 1 .ro 0, fd 24 1 .ro 0, fd 0 14 .ro 0]⟩,
  ⟨"CRT_ID", 0x400008, [], 64, [fd 0 64 .ro 0]⟩,
  ⟨"CRT_WRITTEN", 0x400010, [], 64, [fd 0 64 .ro 0]⟩,
  ⟨"CRT_BIND", 0x400018, [], 32, [fd 24 8 .ro 0, fd 16 8 .ro 0]⟩,
  ⟨"CRT_ERR", 0x400020, [], 32, [fd 16 16 .rc 0, fd 0 16 .rc 0]⟩,
  ⟨"CRT_CFG", 0x400028, [], 32, [fd 0 1 .rwl 0]⟩,
  ⟨"CRT_LOCK", 0x4000FC, [], 32, [fd 0 1 .w1s 0]⟩]

/-- The blocks of Table 1.6 (R30): the first offset, the first offset beyond, and the registers; last the
registers reached through BAR0 only. -/
def regBlocks : List (Nat × Nat × List RegDesc) := [
  (0x0, 0x10000, regsTop),
  (0x10000, 0x20000, regsClk),
  (0x20000, 0x30000, regsPwr),
  (0x30000, 0x40000, regsRst),
  (0x40000, 0x50000, regsFrz),
  (0x50000, 0x60000, regsMbx),
  (0x60000, 0x70000, regsDbl),
  (0x100000, 0x200000, regsPrt),
  (0x200000, 0x300000, regsSec),
  (0x300000, 0x400000, regsFw),
  (0x400000, 0x500000, regsCrt),
  (0x500000, 0x600000, regsLog),
  (0x600000, 0x700000, regsPrf),
  (0x700000, 0x800000, regsNum),
  (0x1000000, 0x1900000, regsArr),
  (0x2000000, 0x3000000, regsCnd),
  (0x3000000, 0x3200000, regsGey),
  (0x4000000, 0x5000000, regsPlm),
  (0x5000000, 0x5100000, regsVnt),
  (0x6000000, 0x7000000, regsHbm),
  (0x7000000, 0x8000000, regsPci),
  (0x100000000, 0x100400000, regsBar0)]

/-! ## Names of registers -/
namespace Reg
def TOP_ID : Nat := 0x0
def TOP_CAPS : Nat := 0x4
def TOP_DEVNUM : Nat := 0x8
def TOP_FDOM : Nat := 0xC
def TOP_DOMAIN_OK (i : Nat) : Nat := 0x10 + i * 0x4
def TOP_SERVICE : Nat := 0x20
def TOP_EVT_DEST : Nat := 0x30
def TOP_EVT_LOST : Nat := 0x38
def TOP_ACC_ERR : Nat := 0x40
def TOP_DEVERR_CFG : Nat := 0x48
def TOP_LOCK : Nat := 0xFC
def TOP_STRAPS : Nat := 0x50
def NUM_FLAGS (p : Nat) : Nat := 0x701000 + p * 0x40
def NUM_FIRST (p : Nat) : Nat := 0x701008 + p * 0x40
def NUM_EVT_MASK (p : Nat) : Nat := 0x701010 + p * 0x40
def NUM_AMAX_BASE (p : Nat) : Nat := 0x701018 + p * 0x40
def NUM_AMAX_CFG (p : Nat) : Nat := 0x701020 + p * 0x40
def ARR_CTL (a : Nat) : Nat := 0x1000000 + a * 0x10000
def ARR_STATUS (a : Nat) : Nat := 0x1000004 + a * 0x10000
def ARR_PC (a : Nat) : Nat := 0x1000008 + a * 0x10000
def ARR_FAULT (a : Nat) : Nat := 0x1000010 + a * 0x10000
def ARR_FAULT_VAL (a : Nat) : Nat := 0x1000018 + a * 0x10000
def ARR_REPLAY (a : Nat) : Nat := 0x1000020 + a * 0x10000
def ARR_GROUPS (a : Nat) : Nat := 0x1000028 + a * 0x10000
def ARR_CTX (a : Nat) : Nat := 0x1000030 + a * 0x10000
def ARR_START_CND (a : Nat) : Nat := 0x1000038 + a * 0x10000
def ARR_ACC_CFG (a : Nat) : Nat := 0x1000040 + a * 0x10000
def ARR_ACC_STATUS (a : Nat) : Nat := 0x1000044 + a * 0x10000
def ARR_ACC_DBG (a : Nat) : Nat := 0x1000048 + a * 0x10000
def ARR_ACC_LINES (a : Nat) : Nat := 0x100004C + a * 0x10000
def ARR_ACC_GRP (a g : Nat) : Nat := 0x1000050 + a * 0x10000 + g * 0x4
def ARR_ACC_RECOMP (a : Nat) : Nat := 0x1000070 + a * 0x10000
def ARR_ACC_ECC (a : Nat) : Nat := 0x1000074 + a * 0x10000
def ARR_ACC_FAULT (a : Nat) : Nat := 0x1000078 + a * 0x10000
def ARR_MM_BUSY (a : Nat) : Nat := 0x1000080 + a * 0x10000
def ARR_VEC_STATUS (a : Nat) : Nat := 0x10000C0 + a * 0x10000
def ARR_EPROG_ERR (a : Nat) : Nat := 0x10000C4 + a * 0x10000
def ARR_VEC_BUSY (a : Nat) : Nat := 0x10000C8 + a * 0x10000
def ARR_OC_ECC (a : Nat) : Nat := 0x10000D0 + a * 0x10000
def ARR_OC_POISON (a : Nat) : Nat := 0x10000D8 + a * 0x10000
def ARR_OC_CFG (a : Nat) : Nat := 0x1000090 + a * 0x10000
def ARR_WAKE (a : Nat) : Nat := 0x1000094 + a * 0x10000
def HBM_STATUS (s : Nat) : Nat := 0x6000000 + s * 0x10000
def HBM_PC_MAP (s : Nat) : Nat := 0x6000008 + s * 0x10000
def HBM_ECC (s : Nat) : Nat := 0x6000010 + s * 0x10000
def HBM_POISON (s : Nat) : Nat := 0x6000018 + s * 0x10000
def HBM_SCRUB_CFG (s : Nat) : Nat := 0x6000020 + s * 0x10000
def HBM_AOW (s : Nat) : Nat := 0x6000028 + s * 0x10000
def HBM_LOCK : Nat := 0x6100000
def CND_TABLE_BASE : Nat := 0x2000000
def CND_FLUSH : Nat := 0x2000008
def CND_ENG_CACHED (q : Nat) : Nat := 0x2000100 + q * 0x4
def CND_ENG_MISS (q : Nat) : Nat := 0x2000110 + q * 0x4
def CND_LOCK : Nat := 0x20000FC
def CND_POST_DATA (p n : Nat) : Nat := 0x2010000 + p * 0x100 + n * 0x4
def CND_CMD (p : Nat) : Nat := 0x2010040 + p * 0x100
def CND_RESULT (p : Nat) : Nat := 0x2010044 + p * 0x100
def CND_TAKE_DATA (p n : Nat) : Nat := 0x2010080 + p * 0x100 + n * 0x4
def CND_GEY_RMO (p : Nat) : Nat := 0x20100C0 + p * 0x100
def CND_ZRT_CFG : Nat := 0x2020000
def CND_ZRT_GROUP : Nat := 0x2020004
def CND_ZRT_BOOT : Nat := 0x2020008
def CND_ZRT_PATH_BASE : Nat := 0x2020010
def CND_ZRT_POOL : Nat := 0x2020018
def CND_ZRT_RTO : Nat := 0x2020020
def CND_ZRT_LIMITS : Nat := 0x2020024
def CND_ZRT_ACK : Nat := 0x2020028
def CND_ZRT_RATE : Nat := 0x202002C
def CND_ZRT_TX : Nat := 0x2020040
def CND_ZRT_RX : Nat := 0x2020048
def CND_ZRT_RETX : Nat := 0x2020050
def CND_ZRT_CE : Nat := 0x2020058
def CND_ZRT_DISCARD (r : Nat) : Nat := 0x2020060 + r * 0x4
def CND_RMO_OUT (q : Nat) : Nat := 0x2020080 + q * 0x4
def GEY_COUNT (g : Nat) : Nat := 0x3000000 + g * 0x20
def GEY_TARGET (g : Nat) : Nat := 0x3000008 + g * 0x20
def GEY_ACT0 (g : Nat) : Nat := 0x3000010 + g * 0x20
def GEY_ACT1 (g : Nat) : Nat := 0x3000018 + g * 0x20
def PLM_SEQ (q : Nat) : Nat := 0x4000000 + q * 0x4
def PLM_LOCK : Nat := 0x40000FC
def PLM_DESC (k : Nat) : Nat := 0x4010000 + k * 0x100
def PLM_CTL (k : Nat) : Nat := 0x4010008 + k * 0x100
def PLM_STATUS (k : Nat) : Nat := 0x401000C + k * 0x100
def PLM_STEP (k : Nat) : Nat := 0x4010010 + k * 0x100
def PLM_STEP_T0 (k : Nat) : Nat := 0x4010018 + k * 0x100
def PLM_STEP_DEADLINE (k : Nat) : Nat := 0x4010020 + k * 0x100
def PLM_HOP_TIMEOUT (k : Nat) : Nat := 0x4010024 + k * 0x100
def PLM_OWNER (k : Nat) : Nat := 0x4010028 + k * 0x100
def PLM_COUNTS (k : Nat) : Nat := 0x4010030 + k * 0x100
def PLM_ADDS (k : Nat) : Nat := 0x4010038 + k * 0x100
def PRF_LOCK : Nat := 0x6000FC
def PRF_STEP_OWNER (j : Nat) : Nat := 0x601000 + j * 0x100
def PRF_STEP_CFG (j : Nat) : Nat := 0x601004 + j * 0x100
def PRF_STEP_GEY (j : Nat) : Nat := 0x601008 + j * 0x100
def PRF_STEP_MARK (j : Nat) : Nat := 0x601010 + j * 0x100
def PRF_STEP_END0 (j : Nat) : Nat := 0x601018 + j * 0x100
def PRF_STEP_END1 (j : Nat) : Nat := 0x601020 + j * 0x100
def PRF_STEP_STATUS (j : Nat) : Nat := 0x601028 + j * 0x100
def PRF_STEP_NUM (j : Nat) : Nat := 0x601030 + j * 0x100
def PRF_STEP_TAG (j : Nat) : Nat := 0x601038 + j * 0x100
def PRF_STEP_COUNTS (j : Nat) : Nat := 0x601040 + j * 0x100
def PRF_RING (j n w : Nat) : Nat := 0x680000 + j * 0x20000 + n * 0x80 + w * 0x8
def LOG_CTL : Nat := 0x500000
def LOG_STATUS : Nat := 0x500004
def LOG_LSN : Nat := 0x500008
def LOG_DURABLE : Nat := 0x500010
def LOG_AREA : Nat := 0x500018
def LOG_BUF : Nat := 0x500020
def LOG_STAGE : Nat := 0x500028
def LOG_PROT_THRESH : Nat := 0x500030
def LOG_THR0 : Nat := 0x500034
def LOG_THR1 : Nat := 0x500038
def LOG_THR_WINDOW : Nat := 0x50003C
def LOG_SNAP : Nat := 0x500040
def LOG_LOCK : Nat := 0x5000FC
def LOG_APPEND (p : Nat) : Nat := 0x501000 + p * 0x40
def LOG_APPEND_GEY (p : Nat) : Nat := 0x501008 + p * 0x40
def LOG_PROT (p : Nat) : Nat := 0x501010 + p * 0x40
def LOG_SHADOW_HDR (p : Nat) : Nat := 0x501018 + p * 0x40
def LOG_REPLAY (p : Nat) : Nat := 0x501020 + p * 0x40
def LOG_ACCEPTED (p : Nat) : Nat := 0x501028 + p * 0x40
def VNT_CTL (v : Nat) : Nat := 0x5000000 + v * 0x10000
def VNT_STATUS (v : Nat) : Nat := 0x5000004 + v * 0x10000
def VNT_MAC_ADDR (v : Nat) : Nat := 0x5000008 + v * 0x10000
def VNT_MAC_CFG (v : Nat) : Nat := 0x5000010 + v * 0x10000
def VNT_IP4 (v : Nat) : Nat := 0x5000014 + v * 0x10000
def VNT_IP6_HI (v : Nat) : Nat := 0x5000018 + v * 0x10000
def VNT_IP6_LO (v : Nat) : Nat := 0x5000020 + v * 0x10000
def VNT_NEXTHOP (v n : Nat) : Nat := 0x5000040 + v * 0x10000 + n * 0x8
def VNT_TXQ_THRESH (v q : Nat) : Nat := 0x5000080 + v * 0x10000 + q * 0x4
def VNT_TXQ_UNDERRUN (v q : Nat) : Nat := 0x50000A0 + v * 0x10000 + q * 0x4
def VNT_SEC_CFG (v : Nat) : Nat := 0x50000C0 + v * 0x10000
def VNT_SEC_STATUS (v : Nat) : Nat := 0x50000C4 + v * 0x10000
def VNT_LOCK (v : Nat) : Nat := 0x50000FC + v * 0x10000
def VNT_TX_FRAMES (v n : Nat) : Nat := 0x5000100 + v * 0x10000 + n * 0x40
def VNT_RX_FRAMES (v n : Nat) : Nat := 0x5000108 + v * 0x10000 + n * 0x40
def VNT_RX_FCS_ERR (v n : Nat) : Nat := 0x5000110 + v * 0x10000 + n * 0x40
def VNT_RX_OVERFLOW (v n : Nat) : Nat := 0x5000120 + v * 0x10000 + n * 0x40
def VNT_TX_FLUSHED (v n : Nat) : Nat := 0x5000128 + v * 0x10000 + n * 0x40
def VNT_FEC_CORR (v n : Nat) : Nat := 0x5000130 + v * 0x10000 + n * 0x40
def VNT_FEC_UNCORR (v n : Nat) : Nat := 0x5000138 + v * 0x10000 + n * 0x40
def VNT_RX_DISCARD (v n : Nat) : Nat := 0x5000118 + v * 0x10000 + n * 0x40
def VNT_LANE_STAT (v l : Nat) : Nat := 0x5000200 + v * 0x10000 + l * 0x4
def VNT_PTP_CFG (v : Nat) : Nat := 0x5000300 + v * 0x10000
def VNT_PTP_LAT (v : Nat) : Nat := 0x5000304 + v * 0x10000
def VNT_PTP_FIFO (v : Nat) : Nat := 0x5000308 + v * 0x10000
def VNT_PTP_TS_TIME (v : Nat) : Nat := 0x5000310 + v * 0x10000
def VNT_PTP_TS_AON (v : Nat) : Nat := 0x5000318 + v * 0x10000
def VNT_PTP_TS_INFO (v : Nat) : Nat := 0x5000320 + v * 0x10000
def VNT_WAKE_CFG : Nat := 0x5000400
def VNT_WAKE_TIMES : Nat := 0x5000404
def VNT_WAKE_STATUS : Nat := 0x5000408
def MBX_TIMEOUT : Nat := 0x50000
def MBX_LOCK : Nat := 0x500FC
def MBX_DATA (c i : Nat) : Nat := 0x51000 + c * 0x80 + i * 0x4
def MBX_CTL (c : Nat) : Nat := 0x51040 + c * 0x80
def MBX_STATUS (c : Nat) : Nat := 0x51044 + c * 0x80
def MBX_ACK (c : Nat) : Nat := 0x51048 + c * 0x80
def DBL_PEND (p : Nat) : Nat := 0x61000 + p * 0x10
def DBL_MASK (p : Nat) : Nat := 0x61004 + p * 0x10
def DBL_RING (p : Nat) : Nat := 0x61008 + p * 0x10
def DBL_CFG (p : Nat) : Nat := 0x6100C + p * 0x10
def PRT_SCHED : Nat := 0x100000
def PRT_LOCK : Nat := 0x1000FC
def PRT_SEG_OWNER (s : Nat) : Nat := 0x101000 + s * 0x4
def PRT_STATE (p : Nat) : Nat := 0x110000 + p * 0x400
def PRT_MODE (p : Nat) : Nat := 0x110004 + p * 0x400
def PRT_BLOCKS (p : Nat) : Nat := 0x110008 + p * 0x400
def PRT_JOB (p : Nat) : Nat := 0x11000C + p * 0x400
def PRT_GEY (p : Nat) : Nat := 0x110010 + p * 0x400
def PRT_LIMITS (p : Nat) : Nat := 0x110018 + p * 0x400
def PRT_EVT (p : Nat) : Nat := 0x110020 + p * 0x400
def PRT_QOS (p : Nat) : Nat := 0x110028 + p * 0x400
def PRT_IRQ (p : Nat) : Nat := 0x110034 + p * 0x400
def PRT_PEER (p i : Nat) : Nat := 0x110040 + p * 0x400 + i * 0x4
def PRT_USE_ARRAY (p : Nat) : Nat := 0x110080 + p * 0x400
def PRT_USE_HBM (p : Nat) : Nat := 0x110088 + p * 0x400
def PRT_USE_VENT (p : Nat) : Nat := 0x110090 + p * 0x400
def PRT_USE_CND (p : Nat) : Nat := 0x110098 + p * 0x400
def PRT_USE_LENT (p : Nat) : Nat := 0x1100A0 + p * 0x400
def PRT_LMAP (p n : Nat) : Nat := 0x110200 + p * 0x400 + n * 0x4
def PCI_CFG : Nat := 0x7000000
def PCI_LINK : Nat := 0x7000004
def PCI_ERR : Nat := 0x7000008
def PCI_LOCK : Nat := 0x70000FC
def PCI_APERTURE (p : Nat) : Nat := 0x100002000 + p * 0x10000
def PCI_GEY_INC (p : Nat) : Nat := 0x100002008 + p * 0x10000
def PCI_FN_STATUS (p : Nat) : Nat := 0x100002010 + p * 0x10000
def SEC_LIFECYCLE : Nat := 0x200000
def SEC_OWNER : Nat := 0x200008
def SEC_DEBUG : Nat := 0x200010
def SEC_SEAL0 : Nat := 0x200020
def SEC_SEAL1 : Nat := 0x200028
def SEC_CONSENT0 : Nat := 0x200030
def SEC_CONSENT1 : Nat := 0x200038
def SEC_INTEGRITY : Nat := 0x200040
def SEC_SESSIONS : Nat := 0x200048
def SEC_LOCK : Nat := 0x2000FC
def CLK_SRC : Nat := 0x10000
def CLK_AON_TRIM : Nat := 0x10004
def CLK_TIME_STATUS : Nat := 0x10008
def CLK_LOCK : Nat := 0x100FC
def CLK_ISL_FREQ (i : Nat) : Nat := 0x10100 + i * 0x4
def CLK_GATE (k : Nat) : Nat := 0x10200 + k * 0x4
def CLK_GATE_STAT (k : Nat) : Nat := 0x10210 + k * 0x4
def PWR_CFG : Nat := 0x20000
def PWR_STATUS : Nat := 0x20004
def PWR_CEIL : Nat := 0x20008
def PWR_TEMP : Nat := 0x2000C
def PWR_THERM_CFG : Nat := 0x20010
def PWR_ENERGY : Nat := 0x20018
def PWR_WAKE : Nat := 0x20020
def PWR_LOCK : Nat := 0x200FC
def RST_CAUSE : Nat := 0x30000
def RST_ARRAY : Nat := 0x30008
def RST_VENT : Nat := 0x3000C
def RST_WARM : Nat := 0x30010
def FRZ_CTL : Nat := 0x40000
def FRZ_CFG : Nat := 0x40004
def FRZ_DEST_MAC : Nat := 0x40008
def FRZ_DEST_IP_HI : Nat := 0x40010
def FRZ_DEST_IP_LO : Nat := 0x40018
def FRZ_STATUS : Nat := 0x40020
def FRZ_SIZE_TAP : Nat := 0x40028
def FRZ_SIZE_PORT : Nat := 0x40030
def FRZ_LOCK : Nat := 0x400FC
def FW_STATUS : Nat := 0x300000
def FW_SLOT0 : Nat := 0x300010
def FW_SLOT1 : Nat := 0x300018
def FW_SVN_MIN : Nat := 0x300020
def FW_POLICY : Nat := 0x300028
def FW_LOCK : Nat := 0x3000FC
def CRT_STATUS : Nat := 0x400000
def CRT_ID : Nat := 0x400008
def CRT_WRITTEN : Nat := 0x400010
def CRT_BIND : Nat := 0x400018
def CRT_ERR : Nat := 0x400020
def CRT_CFG : Nat := 0x400028
def CRT_LOCK : Nat := 0x4000FC
end Reg

/-! ## Names of fields -/
namespace Fld
def TOP_ID_PART : FieldRef := ⟨Reg.TOP_ID, 16, 16⟩
def TOP_ID_STEP_LETTER : FieldRef := ⟨Reg.TOP_ID, 8, 8⟩
def TOP_ID_STEP_NUMBER : FieldRef := ⟨Reg.TOP_ID, 0, 8⟩
def TOP_CAPS_HBM_STACKS : FieldRef := ⟨Reg.TOP_CAPS, 28, 4⟩
def TOP_CAPS_SPARE_MIN_Q : FieldRef := ⟨Reg.TOP_CAPS, 24, 4⟩
def TOP_CAPS_SPARES : FieldRef := ⟨Reg.TOP_CAPS, 16, 8⟩
def TOP_CAPS_ARRAYS_IN_SERVICE : FieldRef := ⟨Reg.TOP_CAPS, 8, 8⟩
def TOP_CAPS_ARRAYS_BUILT : FieldRef := ⟨Reg.TOP_CAPS, 0, 8⟩
def TOP_DEVNUM_VALID : FieldRef := ⟨Reg.TOP_DEVNUM, 8, 1⟩
def TOP_DEVNUM_DEVNUM : FieldRef := ⟨Reg.TOP_DEVNUM, 0, 8⟩
def TOP_FDOM_FEED : FieldRef := ⟨Reg.TOP_FDOM, 12, 4⟩
def TOP_FDOM_RACK : FieldRef := ⟨Reg.TOP_FDOM, 0, 12⟩
def TOP_DOMAIN_OK_OK (i : Nat) : FieldRef := ⟨Reg.TOP_DOMAIN_OK i, 0, 32⟩
def TOP_SERVICE_REASON : FieldRef := ⟨Reg.TOP_SERVICE, 8, 8⟩
def TOP_SERVICE_DEVICE_ERROR : FieldRef := ⟨Reg.TOP_SERVICE, 4, 1⟩
def TOP_SERVICE_LEVEL : FieldRef := ⟨Reg.TOP_SERVICE, 0, 2⟩
def TOP_EVT_DEST_ENABLE : FieldRef := ⟨Reg.TOP_EVT_DEST, 20, 1⟩
def TOP_EVT_DEST_CONDUIT : FieldRef := ⟨Reg.TOP_EVT_DEST, 0, 20⟩
def TOP_EVT_LOST_COUNT : FieldRef := ⟨Reg.TOP_EVT_LOST, 0, 32⟩
def TOP_ACC_ERR_VALID : FieldRef := ⟨Reg.TOP_ACC_ERR, 63, 1⟩
def TOP_ACC_ERR_KIND : FieldRef := ⟨Reg.TOP_ACC_ERR, 38, 3⟩
def TOP_ACC_ERR_PARTITION : FieldRef := ⟨Reg.TOP_ACC_ERR, 32, 6⟩
def TOP_ACC_ERR_OFFSET : FieldRef := ⟨Reg.TOP_ACC_ERR, 0, 32⟩
def TOP_DEVERR_CFG_FREEZE : FieldRef := ⟨Reg.TOP_DEVERR_CFG, 0, 1⟩
def TOP_LOCK_LOCK : FieldRef := ⟨Reg.TOP_LOCK, 0, 1⟩
def TOP_STRAPS_FEED : FieldRef := ⟨Reg.TOP_STRAPS, 4, 4⟩
def TOP_STRAPS_SLOT : FieldRef := ⟨Reg.TOP_STRAPS, 0, 4⟩
def NUM_FLAGS_FLAGS (p : Nat) : FieldRef := ⟨Reg.NUM_FLAGS p, 0, 11⟩
def NUM_FIRST_VALID (p : Nat) : FieldRef := ⟨Reg.NUM_FIRST p, 63, 1⟩
def NUM_FIRST_FLAG (p : Nat) : FieldRef := ⟨Reg.NUM_FIRST p, 56, 4⟩
def NUM_FIRST_LARRAY (p : Nat) : FieldRef := ⟨Reg.NUM_FIRST p, 48, 7⟩
def NUM_FIRST_SOURCE_KIND (p : Nat) : FieldRef := ⟨Reg.NUM_FIRST p, 40, 8⟩
def NUM_FIRST_TIME (p : Nat) : FieldRef := ⟨Reg.NUM_FIRST p, 0, 40⟩
def NUM_EVT_MASK_MASK (p : Nat) : FieldRef := ⟨Reg.NUM_EVT_MASK p, 0, 11⟩
def NUM_AMAX_BASE_BASE (p : Nat) : FieldRef := ⟨Reg.NUM_AMAX_BASE p, 12, 36⟩
def NUM_AMAX_CFG_ENABLE (p : Nat) : FieldRef := ⟨Reg.NUM_AMAX_CFG p, 16, 1⟩
def NUM_AMAX_CFG_COUNT_M1 (p : Nat) : FieldRef := ⟨Reg.NUM_AMAX_CFG p, 0, 16⟩
def ARR_CTL_SAVE (a : Nat) : FieldRef := ⟨Reg.ARR_CTL a, 5, 1⟩
def ARR_CTL_STEP (a : Nat) : FieldRef := ⟨Reg.ARR_CTL a, 4, 1⟩
def ARR_CTL_STOP (a : Nat) : FieldRef := ⟨Reg.ARR_CTL a, 3, 1⟩
def ARR_CTL_RESUME (a : Nat) : FieldRef := ⟨Reg.ARR_CTL a, 2, 1⟩
def ARR_CTL_START (a : Nat) : FieldRef := ⟨Reg.ARR_CTL a, 1, 1⟩
def ARR_STATUS_BUBBLE (a : Nat) : FieldRef := ⟨Reg.ARR_STATUS a, 22, 1⟩
def ARR_STATUS_PART (a : Nat) : FieldRef := ⟨Reg.ARR_STATUS a, 16, 6⟩
def ARR_STATUS_REASON (a : Nat) : FieldRef := ⟨Reg.ARR_STATUS a, 8, 8⟩
def ARR_STATUS_STATE (a : Nat) : FieldRef := ⟨Reg.ARR_STATUS a, 0, 3⟩
def ARR_PC_PC (a : Nat) : FieldRef := ⟨Reg.ARR_PC a, 4, 44⟩
def ARR_FAULT_VALID (a : Nat) : FieldRef := ⟨Reg.ARR_FAULT a, 63, 1⟩
def ARR_FAULT_CODE (a : Nat) : FieldRef := ⟨Reg.ARR_FAULT a, 48, 8⟩
def ARR_FAULT_INDEX (a : Nat) : FieldRef := ⟨Reg.ARR_FAULT a, 43, 5⟩
def ARR_FAULT_OPERAND (a : Nat) : FieldRef := ⟨Reg.ARR_FAULT a, 40, 3⟩
def ARR_FAULT_CLASS (a : Nat) : FieldRef := ⟨Reg.ARR_FAULT a, 34, 6⟩
def ARR_FAULT_OP (a : Nat) : FieldRef := ⟨Reg.ARR_FAULT a, 28, 6⟩
def ARR_FAULT_VAL_VALUE (a : Nat) : FieldRef := ⟨Reg.ARR_FAULT_VAL a, 0, 64⟩
def ARR_REPLAY_COUNT (a : Nat) : FieldRef := ⟨Reg.ARR_REPLAY a, 0, 32⟩
def ARR_GROUPS_COUNT (a : Nat) : FieldRef := ⟨Reg.ARR_GROUPS a, 0, 64⟩
def ARR_CTX_BASE (a : Nat) : FieldRef := ⟨Reg.ARR_CTX a, 12, 36⟩
def ARR_START_CND_CONDUIT (a : Nat) : FieldRef := ⟨Reg.ARR_START_CND a, 0, 20⟩
def ARR_ACC_CFG_RES_COUNT (a : Nat) : FieldRef := ⟨Reg.ARR_ACC_CFG a, 16, 13⟩
def ARR_ACC_CFG_RES_FIRST (a : Nat) : FieldRef := ⟨Reg.ARR_ACC_CFG a, 0, 13⟩
def ARR_ACC_STATUS_MMA_BUSY (a : Nat) : FieldRef := ⟨Reg.ARR_ACC_STATUS a, 19, 1⟩
def ARR_ACC_STATUS_DRAINQ (a : Nat) : FieldRef := ⟨Reg.ARR_ACC_STATUS a, 16, 3⟩
def ARR_ACC_STATUS_POISONED (a : Nat) : FieldRef := ⟨Reg.ARR_ACC_STATUS a, 8, 8⟩
def ARR_ACC_STATUS_OPEN (a : Nat) : FieldRef := ⟨Reg.ARR_ACC_STATUS a, 0, 8⟩
def ARR_ACC_DBG_OPEN (a : Nat) : FieldRef := ⟨Reg.ARR_ACC_DBG a, 1, 1⟩
def ARR_ACC_DBG_EN (a : Nat) : FieldRef := ⟨Reg.ARR_ACC_DBG a, 0, 1⟩
def ARR_ACC_LINES_HELD_OTHER (a : Nat) : FieldRef := ⟨Reg.ARR_ACC_LINES a, 16, 13⟩
def ARR_ACC_LINES_FREE (a : Nat) : FieldRef := ⟨Reg.ARR_ACC_LINES a, 0, 13⟩
def ARR_ACC_GRP_COUNT (a g : Nat) : FieldRef := ⟨Reg.ARR_ACC_GRP a g, 20, 12⟩
def ARR_ACC_GRP_FIRST (a g : Nat) : FieldRef := ⟨Reg.ARR_ACC_GRP a g, 8, 12⟩
def ARR_ACC_GRP_BUSY (a g : Nat) : FieldRef := ⟨Reg.ARR_ACC_GRP a g, 7, 1⟩
def ARR_ACC_GRP_IDX (a g : Nat) : FieldRef := ⟨Reg.ARR_ACC_GRP a g, 6, 1⟩
def ARR_ACC_GRP_STORE (a g : Nat) : FieldRef := ⟨Reg.ARR_ACC_GRP a g, 4, 2⟩
def ARR_ACC_GRP_SHAPE (a g : Nat) : FieldRef := ⟨Reg.ARR_ACC_GRP a g, 2, 2⟩
def ARR_ACC_GRP_STATE (a g : Nat) : FieldRef := ⟨Reg.ARR_ACC_GRP a g, 0, 2⟩
def ARR_ACC_RECOMP_COUNT (a : Nat) : FieldRef := ⟨Reg.ARR_ACC_RECOMP a, 0, 32⟩
def ARR_ACC_ECC_UNCORRECTABLE (a : Nat) : FieldRef := ⟨Reg.ARR_ACC_ECC a, 16, 16⟩
def ARR_ACC_ECC_CORRECTED (a : Nat) : FieldRef := ⟨Reg.ARR_ACC_ECC a, 0, 16⟩
def ARR_ACC_FAULT_GROUP (a : Nat) : FieldRef := ⟨Reg.ARR_ACC_FAULT a, 4, 3⟩
def ARR_ACC_FAULT_REASON (a : Nat) : FieldRef := ⟨Reg.ARR_ACC_FAULT a, 0, 4⟩
def ARR_MM_BUSY_CYCLES (a : Nat) : FieldRef := ⟨Reg.ARR_MM_BUSY a, 0, 64⟩
def ARR_VEC_STATUS_BOUND (a : Nat) : FieldRef := ⟨Reg.ARR_VEC_STATUS a, 4, 4⟩
def ARR_VEC_STATUS_BUSY (a : Nat) : FieldRef := ⟨Reg.ARR_VEC_STATUS a, 3, 1⟩
def ARR_EPROG_ERR_VALID (a : Nat) : FieldRef := ⟨Reg.ARR_EPROG_ERR a, 31, 1⟩
def ARR_EPROG_ERR_INDEX (a : Nat) : FieldRef := ⟨Reg.ARR_EPROG_ERR a, 10, 6⟩
def ARR_EPROG_ERR_SLOT (a : Nat) : FieldRef := ⟨Reg.ARR_EPROG_ERR a, 8, 2⟩
def ARR_EPROG_ERR_REASON (a : Nat) : FieldRef := ⟨Reg.ARR_EPROG_ERR a, 0, 4⟩
def ARR_VEC_BUSY_CYCLES (a : Nat) : FieldRef := ⟨Reg.ARR_VEC_BUSY a, 0, 64⟩
def ARR_OC_ECC_UNCORRECTABLE (a : Nat) : FieldRef := ⟨Reg.ARR_OC_ECC a, 16, 16⟩
def ARR_OC_ECC_CORRECTED (a : Nat) : FieldRef := ⟨Reg.ARR_OC_ECC a, 0, 16⟩
def ARR_OC_POISON_VALID (a : Nat) : FieldRef := ⟨Reg.ARR_OC_POISON a, 63, 1⟩
def ARR_OC_POISON_LINE (a : Nat) : FieldRef := ⟨Reg.ARR_OC_POISON a, 6, 17⟩
def ARR_OC_CFG_UNITS (a : Nat) : FieldRef := ⟨Reg.ARR_OC_CFG a, 16, 7⟩
def ARR_OC_CFG_FIRST (a : Nat) : FieldRef := ⟨Reg.ARR_OC_CFG a, 0, 7⟩
def ARR_WAKE_LATCH (a : Nat) : FieldRef := ⟨Reg.ARR_WAKE a, 0, 1⟩
def HBM_STATUS_COPYING (s : Nat) : FieldRef := ⟨Reg.HBM_STATUS s, 10, 1⟩
def HBM_STATUS_SELF_REFRESH (s : Nat) : FieldRef := ⟨Reg.HBM_STATUS s, 9, 1⟩
def HBM_STATUS_RETIRED (s : Nat) : FieldRef := ⟨Reg.HBM_STATUS s, 8, 1⟩
def HBM_STATUS_PC_RETIRED (s : Nat) : FieldRef := ⟨Reg.HBM_STATUS s, 0, 3⟩
def HBM_PC_MAP_IN_SERVICE (s : Nat) : FieldRef := ⟨Reg.HBM_PC_MAP s, 0, 64⟩
def HBM_ECC_POISONED (s : Nat) : FieldRef := ⟨Reg.HBM_ECC s, 16, 16⟩
def HBM_ECC_CORRECTED (s : Nat) : FieldRef := ⟨Reg.HBM_ECC s, 0, 16⟩
def HBM_POISON_VALID (s : Nat) : FieldRef := ⟨Reg.HBM_POISON s, 63, 1⟩
def HBM_POISON_OFFSET (s : Nat) : FieldRef := ⟨Reg.HBM_POISON s, 6, 30⟩
def HBM_SCRUB_CFG_PERIOD (s : Nat) : FieldRef := ⟨Reg.HBM_SCRUB_CFG s, 0, 16⟩
def HBM_AOW_LINES (s : Nat) : FieldRef := ⟨Reg.HBM_AOW s, 0, 64⟩
def HBM_LOCK_LOCK : FieldRef := ⟨Reg.HBM_LOCK, 0, 1⟩
def CND_TABLE_BASE_BASE : FieldRef := ⟨Reg.CND_TABLE_BASE, 26, 22⟩
def CND_TABLE_BASE_ENABLE : FieldRef := ⟨Reg.CND_TABLE_BASE, 0, 1⟩
def CND_FLUSH_DONE : FieldRef := ⟨Reg.CND_FLUSH, 31, 1⟩
def CND_FLUSH_ALL : FieldRef := ⟨Reg.CND_FLUSH, 30, 1⟩
def CND_FLUSH_HOLD : FieldRef := ⟨Reg.CND_FLUSH, 29, 1⟩
def CND_FLUSH_CONDUIT : FieldRef := ⟨Reg.CND_FLUSH, 0, 20⟩
def CND_ENG_CACHED_COUNT (q : Nat) : FieldRef := ⟨Reg.CND_ENG_CACHED q, 0, 13⟩
def CND_ENG_MISS_COUNT (q : Nat) : FieldRef := ⟨Reg.CND_ENG_MISS q, 0, 32⟩
def CND_LOCK_LOCK : FieldRef := ⟨Reg.CND_LOCK, 0, 1⟩
def CND_POST_DATA_DATA (p n : Nat) : FieldRef := ⟨Reg.CND_POST_DATA p n, 0, 32⟩
def CND_CMD_OP (p : Nat) : FieldRef := ⟨Reg.CND_CMD p, 20, 2⟩
def CND_CMD_CONDUIT (p : Nat) : FieldRef := ⟨Reg.CND_CMD p, 0, 20⟩
def CND_RESULT_DONE (p : Nat) : FieldRef := ⟨Reg.CND_RESULT p, 31, 1⟩
def CND_RESULT_CODE (p : Nat) : FieldRef := ⟨Reg.CND_RESULT p, 0, 3⟩
def CND_TAKE_DATA_DATA (p n : Nat) : FieldRef := ⟨Reg.CND_TAKE_DATA p n, 0, 32⟩
def CND_GEY_RMO_VALID (p : Nat) : FieldRef := ⟨Reg.CND_GEY_RMO p, 20, 1⟩
def CND_GEY_RMO_CONDUIT (p : Nat) : FieldRef := ⟨Reg.CND_GEY_RMO p, 0, 20⟩
def CND_ZRT_CFG_ENABLE : FieldRef := ⟨Reg.CND_ZRT_CFG, 31, 1⟩
def CND_ZRT_CFG_ECN_EN : FieldRef := ⟨Reg.CND_ZRT_CFG, 30, 1⟩
def CND_ZRT_CFG_CTL_TXQ : FieldRef := ⟨Reg.CND_ZRT_CFG, 27, 3⟩
def CND_ZRT_CFG_DATA_TXQ : FieldRef := ⟨Reg.CND_ZRT_CFG, 24, 3⟩
def CND_ZRT_CFG_DSCP : FieldRef := ⟨Reg.CND_ZRT_CFG, 18, 6⟩
def CND_ZRT_CFG_PORT : FieldRef := ⟨Reg.CND_ZRT_CFG, 0, 16⟩
def CND_ZRT_GROUP_TAG : FieldRef := ⟨Reg.CND_ZRT_GROUP, 0, 32⟩
def CND_ZRT_BOOT_BOOT_ID : FieldRef := ⟨Reg.CND_ZRT_BOOT, 0, 32⟩
def CND_ZRT_PATH_BASE_BASE : FieldRef := ⟨Reg.CND_ZRT_PATH_BASE, 18, 30⟩
def CND_ZRT_POOL_SLOTS : FieldRef := ⟨Reg.CND_ZRT_POOL, 48, 16⟩
def CND_ZRT_POOL_BASE : FieldRef := ⟨Reg.CND_ZRT_POOL, 13, 35⟩
def CND_ZRT_RTO_RTO_MAX : FieldRef := ⟨Reg.CND_ZRT_RTO, 20, 12⟩
def CND_ZRT_RTO_RTO_INIT : FieldRef := ⟨Reg.CND_ZRT_RTO, 10, 10⟩
def CND_ZRT_RTO_RTO_MIN : FieldRef := ⟨Reg.CND_ZRT_RTO, 0, 10⟩
def CND_ZRT_LIMITS_RETRY_MAX : FieldRef := ⟨Reg.CND_ZRT_LIMITS, 24, 8⟩
def CND_ZRT_LIMITS_OP_TIMEOUT : FieldRef := ⟨Reg.CND_ZRT_LIMITS, 12, 12⟩
def CND_ZRT_LIMITS_PROBE_INTERVAL : FieldRef := ⟨Reg.CND_ZRT_LIMITS, 0, 12⟩
def CND_ZRT_ACK_ACK_FRAMES : FieldRef := ⟨Reg.CND_ZRT_ACK, 8, 8⟩
def CND_ZRT_ACK_ACK_DELAY : FieldRef := ⟨Reg.CND_ZRT_ACK, 0, 8⟩
def CND_ZRT_RATE_RATE_PERIOD : FieldRef := ⟨Reg.CND_ZRT_RATE, 24, 8⟩
def CND_ZRT_RATE_RATE_STEP : FieldRef := ⟨Reg.CND_ZRT_RATE, 16, 8⟩
def CND_ZRT_RATE_RATE_MIN : FieldRef := ⟨Reg.CND_ZRT_RATE, 0, 16⟩
def CND_ZRT_TX_COUNT : FieldRef := ⟨Reg.CND_ZRT_TX, 0, 64⟩
def CND_ZRT_RX_COUNT : FieldRef := ⟨Reg.CND_ZRT_RX, 0, 64⟩
def CND_ZRT_RETX_COUNT : FieldRef := ⟨Reg.CND_ZRT_RETX, 0, 64⟩
def CND_ZRT_CE_COUNT : FieldRef := ⟨Reg.CND_ZRT_CE, 0, 64⟩
def CND_ZRT_DISCARD_COUNT (r : Nat) : FieldRef := ⟨Reg.CND_ZRT_DISCARD r, 0, 32⟩
def CND_RMO_OUT_COUNT (q : Nat) : FieldRef := ⟨Reg.CND_RMO_OUT q, 0, 16⟩
def GEY_COUNT_COUNT (g : Nat) : FieldRef := ⟨Reg.GEY_COUNT g, 0, 64⟩
def GEY_TARGET_TARGET (g : Nat) : FieldRef := ⟨Reg.GEY_TARGET g, 0, 64⟩
def GEY_ACT0_ARMED (g : Nat) : FieldRef := ⟨Reg.GEY_ACT0 g, 63, 1⟩
def GEY_ACT0_POST (g : Nat) : FieldRef := ⟨Reg.GEY_ACT0 g, 62, 1⟩
def GEY_ACT0_RINC (g : Nat) : FieldRef := ⟨Reg.GEY_ACT0 g, 61, 1⟩
def GEY_ACT0_IRQ (g : Nat) : FieldRef := ⟨Reg.GEY_ACT0 g, 60, 1⟩
def GEY_ACT0_WAKE (g : Nat) : FieldRef := ⟨Reg.GEY_ACT0 g, 59, 1⟩
def GEY_ACT0_PENDING (g : Nat) : FieldRef := ⟨Reg.GEY_ACT0 g, 55, 4⟩
def GEY_ACT0_LARRAY (g : Nat) : FieldRef := ⟨Reg.GEY_ACT0 g, 48, 7⟩
def GEY_ACT0_PERIOD (g : Nat) : FieldRef := ⟨Reg.GEY_ACT0 g, 32, 16⟩
def GEY_ACT0_VECTOR (g : Nat) : FieldRef := ⟨Reg.GEY_ACT0 g, 20, 11⟩
def GEY_ACT0_CONDUIT (g : Nat) : FieldRef := ⟨Reg.GEY_ACT0 g, 0, 20⟩
def GEY_ACT1_DEVICE (g : Nat) : FieldRef := ⟨Reg.GEY_ACT1 g, 56, 8⟩
def GEY_ACT1_PART (g : Nat) : FieldRef := ⟨Reg.GEY_ACT1 g, 50, 6⟩
def GEY_ACT1_AMOUNT (g : Nat) : FieldRef := ⟨Reg.GEY_ACT1 g, 32, 16⟩
def GEY_ACT1_GEYSER (g : Nat) : FieldRef := ⟨Reg.GEY_ACT1 g, 0, 16⟩
def PLM_SEQ_ACTIVE (q : Nat) : FieldRef := ⟨Reg.PLM_SEQ q, 16, 5⟩
def PLM_LOCK_LOCK : FieldRef := ⟨Reg.PLM_LOCK, 0, 1⟩
def PLM_DESC_BASE (k : Nat) : FieldRef := ⟨Reg.PLM_DESC k, 8, 40⟩
def PLM_CTL_ABORT (k : Nat) : FieldRef := ⟨Reg.PLM_CTL k, 1, 1⟩
def PLM_CTL_START (k : Nat) : FieldRef := ⟨Reg.PLM_CTL k, 0, 1⟩
def PLM_STATUS_STATE (k : Nat) : FieldRef := ⟨Reg.PLM_STATUS k, 28, 4⟩
def PLM_STATUS_OPIX (k : Nat) : FieldRef := ⟨Reg.PLM_STATUS k, 8, 8⟩
def PLM_STATUS_LAST (k : Nat) : FieldRef := ⟨Reg.PLM_STATUS k, 0, 8⟩
def PLM_STEP_STEP (k : Nat) : FieldRef := ⟨Reg.PLM_STEP k, 0, 64⟩
def PLM_STEP_T0_T0 (k : Nat) : FieldRef := ⟨Reg.PLM_STEP_T0 k, 0, 64⟩
def PLM_STEP_DEADLINE_BUDGET (k : Nat) : FieldRef := ⟨Reg.PLM_STEP_DEADLINE k, 0, 32⟩
def PLM_HOP_TIMEOUT_MS (k : Nat) : FieldRef := ⟨Reg.PLM_HOP_TIMEOUT k, 0, 16⟩
def PLM_OWNER_VALID (k : Nat) : FieldRef := ⟨Reg.PLM_OWNER k, 8, 1⟩
def PLM_OWNER_PART (k : Nat) : FieldRef := ⟨Reg.PLM_OWNER k, 0, 6⟩
def PLM_COUNTS_NONFINITE (k : Nat) : FieldRef := ⟨Reg.PLM_COUNTS k, 48, 16⟩
def PLM_COUNTS_LATE (k : Nat) : FieldRef := ⟨Reg.PLM_COUNTS k, 32, 16⟩
def PLM_COUNTS_LATE_TOTAL (k : Nat) : FieldRef := ⟨Reg.PLM_COUNTS k, 0, 32⟩
def PLM_ADDS_ELEMS (k : Nat) : FieldRef := ⟨Reg.PLM_ADDS k, 0, 64⟩
def PRF_LOCK_LOCK : FieldRef := ⟨Reg.PRF_LOCK, 0, 1⟩
def PRF_STEP_OWNER_VALID (j : Nat) : FieldRef := ⟨Reg.PRF_STEP_OWNER j, 8, 1⟩
def PRF_STEP_OWNER_PART (j : Nat) : FieldRef := ⟨Reg.PRF_STEP_OWNER j, 0, 6⟩
def PRF_STEP_CFG_ENABLE (j : Nat) : FieldRef := ⟨Reg.PRF_STEP_CFG j, 31, 1⟩
def PRF_STEP_CFG_PLM_EN (j : Nat) : FieldRef := ⟨Reg.PRF_STEP_CFG j, 22, 1⟩
def PRF_STEP_CFG_PLM_SLOT (j : Nat) : FieldRef := ⟨Reg.PRF_STEP_CFG j, 16, 6⟩
def PRF_STEP_CFG_COMMIT_TARGET (j : Nat) : FieldRef := ⟨Reg.PRF_STEP_CFG j, 0, 9⟩
def PRF_STEP_GEY_ABORT_GEY (j : Nat) : FieldRef := ⟨Reg.PRF_STEP_GEY j, 48, 16⟩
def PRF_STEP_GEY_NAY_GEY (j : Nat) : FieldRef := ⟨Reg.PRF_STEP_GEY j, 32, 16⟩
def PRF_STEP_GEY_COMMIT_GEY (j : Nat) : FieldRef := ⟨Reg.PRF_STEP_GEY j, 16, 16⟩
def PRF_STEP_GEY_BEGIN_GEY (j : Nat) : FieldRef := ⟨Reg.PRF_STEP_GEY j, 0, 16⟩
def PRF_STEP_MARK_MARK_EN (j : Nat) : FieldRef := ⟨Reg.PRF_STEP_MARK j, 32, 1⟩
def PRF_STEP_MARK_DONE_GEY (j : Nat) : FieldRef := ⟨Reg.PRF_STEP_MARK j, 16, 16⟩
def PRF_STEP_MARK_MARK_BASE (j : Nat) : FieldRef := ⟨Reg.PRF_STEP_MARK j, 0, 16⟩
def PRF_STEP_END0_END4 (j : Nat) : FieldRef := ⟨Reg.PRF_STEP_END0 j, 48, 16⟩
def PRF_STEP_END0_END3 (j : Nat) : FieldRef := ⟨Reg.PRF_STEP_END0 j, 32, 16⟩
def PRF_STEP_END0_END2 (j : Nat) : FieldRef := ⟨Reg.PRF_STEP_END0 j, 16, 16⟩
def PRF_STEP_END0_END1 (j : Nat) : FieldRef := ⟨Reg.PRF_STEP_END0 j, 0, 16⟩
def PRF_STEP_END1_END7 (j : Nat) : FieldRef := ⟨Reg.PRF_STEP_END1 j, 32, 16⟩
def PRF_STEP_END1_END6 (j : Nat) : FieldRef := ⟨Reg.PRF_STEP_END1 j, 16, 16⟩
def PRF_STEP_END1_END5 (j : Nat) : FieldRef := ⟨Reg.PRF_STEP_END1 j, 0, 16⟩
def PRF_STEP_STATUS_STATE (j : Nat) : FieldRef := ⟨Reg.PRF_STEP_STATUS j, 30, 2⟩
def PRF_STEP_STATUS_CFG_ERR (j : Nat) : FieldRef := ⟨Reg.PRF_STEP_STATUS j, 29, 1⟩
def PRF_STEP_STATUS_IGNORED (j : Nat) : FieldRef := ⟨Reg.PRF_STEP_STATUS j, 0, 16⟩
def PRF_STEP_NUM_STEP (j : Nat) : FieldRef := ⟨Reg.PRF_STEP_NUM j, 0, 64⟩
def PRF_STEP_TAG_TAG (j : Nat) : FieldRef := ⟨Reg.PRF_STEP_TAG j, 0, 64⟩
def PRF_STEP_COUNTS_COMMITS (j : Nat) : FieldRef := ⟨Reg.PRF_STEP_COUNTS j, 32, 32⟩
def PRF_STEP_COUNTS_ABORTS (j : Nat) : FieldRef := ⟨Reg.PRF_STEP_COUNTS j, 0, 32⟩
def PRF_RING_WORD (j n w : Nat) : FieldRef := ⟨Reg.PRF_RING j n w, 0, 64⟩
def LOG_CTL_ENABLE : FieldRef := ⟨Reg.LOG_CTL, 31, 1⟩
def LOG_CTL_MIRROR_EN : FieldRef := ⟨Reg.LOG_CTL, 30, 1⟩
def LOG_CTL_MIRROR_DEVICE : FieldRef := ⟨Reg.LOG_CTL, 20, 8⟩
def LOG_CTL_MIRROR_CND : FieldRef := ⟨Reg.LOG_CTL, 0, 20⟩
def LOG_STATUS_MIRRORED : FieldRef := ⟨Reg.LOG_STATUS, 31, 1⟩
def LOG_STATUS_FULL : FieldRef := ⟨Reg.LOG_STATUS, 30, 1⟩
def LOG_STATUS_FILL : FieldRef := ⟨Reg.LOG_STATUS, 23, 7⟩
def LOG_STATUS_LOST : FieldRef := ⟨Reg.LOG_STATUS, 0, 16⟩
def LOG_LSN_NEXT : FieldRef := ⟨Reg.LOG_LSN, 0, 64⟩
def LOG_DURABLE_LSN : FieldRef := ⟨Reg.LOG_DURABLE, 0, 64⟩
def LOG_AREA_MIRROR_GB : FieldRef := ⟨Reg.LOG_AREA, 32, 32⟩
def LOG_AREA_OWN_GB : FieldRef := ⟨Reg.LOG_AREA, 0, 32⟩
def LOG_BUF_BASE : FieldRef := ⟨Reg.LOG_BUF, 28, 20⟩
def LOG_STAGE_SIZE : FieldRef := ⟨Reg.LOG_STAGE, 48, 16⟩
def LOG_STAGE_BASE : FieldRef := ⟨Reg.LOG_STAGE, 30, 18⟩
def LOG_PROT_THRESH_CHURN_MIN : FieldRef := ⟨Reg.LOG_PROT_THRESH, 16, 11⟩
def LOG_PROT_THRESH_SIZE_MIN : FieldRef := ⟨Reg.LOG_PROT_THRESH, 0, 16⟩
def LOG_THR0_ARRAY_REPLAY : FieldRef := ⟨Reg.LOG_THR0, 24, 8⟩
def LOG_THR0_ARRAY_ECC : FieldRef := ⟨Reg.LOG_THR0, 16, 8⟩
def LOG_THR0_ARRAY_UE : FieldRef := ⟨Reg.LOG_THR0, 8, 8⟩
def LOG_THR0_LANE_RETRAIN : FieldRef := ⟨Reg.LOG_THR0, 0, 8⟩
def LOG_THR1_PC_CE : FieldRef := ⟨Reg.LOG_THR1, 16, 16⟩
def LOG_THR1_PC_UE : FieldRef := ⟨Reg.LOG_THR1, 0, 16⟩
def LOG_THR_WINDOW_SECONDS : FieldRef := ⟨Reg.LOG_THR_WINDOW, 0, 32⟩
def LOG_SNAP_STATE : FieldRef := ⟨Reg.LOG_SNAP, 56, 8⟩
def LOG_SNAP_SCOPE : FieldRef := ⟨Reg.LOG_SNAP, 48, 8⟩
def LOG_SNAP_LAST_ID : FieldRef := ⟨Reg.LOG_SNAP, 0, 48⟩
def LOG_LOCK_LOCK : FieldRef := ⟨Reg.LOG_LOCK, 0, 1⟩
def LOG_APPEND_BASE (p : Nat) : FieldRef := ⟨Reg.LOG_APPEND p, 12, 36⟩
def LOG_APPEND_LOG2DEPTH (p : Nat) : FieldRef := ⟨Reg.LOG_APPEND p, 0, 5⟩
def LOG_APPEND_GEY_EN (p : Nat) : FieldRef := ⟨Reg.LOG_APPEND_GEY p, 48, 1⟩
def LOG_APPEND_GEY_DURABLE_GEY (p : Nat) : FieldRef := ⟨Reg.LOG_APPEND_GEY p, 32, 16⟩
def LOG_APPEND_GEY_ACK_GEY (p : Nat) : FieldRef := ⟨Reg.LOG_APPEND_GEY p, 16, 16⟩
def LOG_APPEND_GEY_ANNOUNCE_GEY (p : Nat) : FieldRef := ⟨Reg.LOG_APPEND_GEY p, 0, 16⟩
def LOG_PROT_COUNT (p : Nat) : FieldRef := ⟨Reg.LOG_PROT p, 52, 12⟩
def LOG_PROT_BASE (p : Nat) : FieldRef := ⟨Reg.LOG_PROT p, 6, 42⟩
def LOG_SHADOW_HDR_BASE (p : Nat) : FieldRef := ⟨Reg.LOG_SHADOW_HDR p, 6, 42⟩
def LOG_REPLAY_ENABLE (p : Nat) : FieldRef := ⟨Reg.LOG_REPLAY p, 63, 1⟩
def LOG_REPLAY_BASE (p : Nat) : FieldRef := ⟨Reg.LOG_REPLAY p, 4, 44⟩
def LOG_ACCEPTED_COUNT (p : Nat) : FieldRef := ⟨Reg.LOG_ACCEPTED p, 0, 64⟩
def VNT_CTL_ENABLE (v : Nat) : FieldRef := ⟨Reg.VNT_CTL v, 31, 1⟩
def VNT_CTL_RESET (v : Nat) : FieldRef := ⟨Reg.VNT_CTL v, 30, 1⟩
def VNT_CTL_AN_EN (v : Nat) : FieldRef := ⟨Reg.VNT_CTL v, 5, 1⟩
def VNT_CTL_PMD (v : Nat) : FieldRef := ⟨Reg.VNT_CTL v, 3, 2⟩
def VNT_CTL_MODE (v : Nat) : FieldRef := ⟨Reg.VNT_CTL v, 0, 2⟩
def VNT_STATUS_LINK_UP (v : Nat) : FieldRef := ⟨Reg.VNT_STATUS v, 28, 4⟩
def VNT_STATUS_LANES (v : Nat) : FieldRef := ⟨Reg.VNT_STATUS v, 24, 4⟩
def VNT_STATUS_RETIRED (v : Nat) : FieldRef := ⟨Reg.VNT_STATUS v, 23, 1⟩
def VNT_STATUS_TRAINING (v : Nat) : FieldRef := ⟨Reg.VNT_STATUS v, 16, 4⟩
def VNT_STATUS_RATE (v : Nat) : FieldRef := ⟨Reg.VNT_STATUS v, 0, 16⟩
def VNT_MAC_ADDR_BASE (v : Nat) : FieldRef := ⟨Reg.VNT_MAC_ADDR v, 0, 48⟩
def VNT_MAC_CFG_MAX_FRAME (v : Nat) : FieldRef := ⟨Reg.VNT_MAC_CFG v, 16, 16⟩
def VNT_MAC_CFG_VLAN_EN (v : Nat) : FieldRef := ⟨Reg.VNT_MAC_CFG v, 15, 1⟩
def VNT_MAC_CFG_LLDP_EN (v : Nat) : FieldRef := ⟨Reg.VNT_MAC_CFG v, 14, 1⟩
def VNT_MAC_CFG_VID (v : Nat) : FieldRef := ⟨Reg.VNT_MAC_CFG v, 0, 12⟩
def VNT_IP4_ADDR (v : Nat) : FieldRef := ⟨Reg.VNT_IP4 v, 0, 32⟩
def VNT_IP6_HI_ADDR (v : Nat) : FieldRef := ⟨Reg.VNT_IP6_HI v, 0, 64⟩
def VNT_IP6_LO_ADDR (v : Nat) : FieldRef := ⟨Reg.VNT_IP6_LO v, 0, 64⟩
def VNT_NEXTHOP_VALID (v n : Nat) : FieldRef := ⟨Reg.VNT_NEXTHOP v n, 63, 1⟩
def VNT_NEXTHOP_MAC (v n : Nat) : FieldRef := ⟨Reg.VNT_NEXTHOP v n, 0, 48⟩
def VNT_TXQ_THRESH_CEIL (v q : Nat) : FieldRef := ⟨Reg.VNT_TXQ_THRESH v q, 16, 8⟩
def VNT_TXQ_THRESH_STEP (v q : Nat) : FieldRef := ⟨Reg.VNT_TXQ_THRESH v q, 8, 8⟩
def VNT_TXQ_THRESH_START (v q : Nat) : FieldRef := ⟨Reg.VNT_TXQ_THRESH v q, 0, 8⟩
def VNT_TXQ_UNDERRUN_COUNT (v q : Nat) : FieldRef := ⟨Reg.VNT_TXQ_UNDERRUN v q, 0, 32⟩
def VNT_SEC_CFG_VALIDATE (v : Nat) : FieldRef := ⟨Reg.VNT_SEC_CFG v, 30, 2⟩
def VNT_SEC_CFG_SUITE (v : Nat) : FieldRef := ⟨Reg.VNT_SEC_CFG v, 29, 1⟩
def VNT_SEC_CFG_REPLAY_WIN (v : Nat) : FieldRef := ⟨Reg.VNT_SEC_CFG v, 0, 8⟩
def VNT_SEC_STATUS_PORTS (v : Nat) : FieldRef := ⟨Reg.VNT_SEC_STATUS v, 0, 16⟩
def VNT_LOCK_LOCK (v : Nat) : FieldRef := ⟨Reg.VNT_LOCK v, 0, 1⟩
def VNT_TX_FRAMES_COUNT (v n : Nat) : FieldRef := ⟨Reg.VNT_TX_FRAMES v n, 0, 64⟩
def VNT_RX_FRAMES_COUNT (v n : Nat) : FieldRef := ⟨Reg.VNT_RX_FRAMES v n, 0, 64⟩
def VNT_RX_FCS_ERR_COUNT (v n : Nat) : FieldRef := ⟨Reg.VNT_RX_FCS_ERR v n, 0, 64⟩
def VNT_RX_OVERFLOW_COUNT (v n : Nat) : FieldRef := ⟨Reg.VNT_RX_OVERFLOW v n, 0, 64⟩
def VNT_TX_FLUSHED_COUNT (v n : Nat) : FieldRef := ⟨Reg.VNT_TX_FLUSHED v n, 0, 64⟩
def VNT_FEC_CORR_COUNT (v n : Nat) : FieldRef := ⟨Reg.VNT_FEC_CORR v n, 0, 64⟩
def VNT_FEC_UNCORR_COUNT (v n : Nat) : FieldRef := ⟨Reg.VNT_FEC_UNCORR v n, 0, 64⟩
def VNT_RX_DISCARD_SEC (v n : Nat) : FieldRef := ⟨Reg.VNT_RX_DISCARD v n, 48, 16⟩
def VNT_RX_DISCARD_PAUSE (v n : Nat) : FieldRef := ⟨Reg.VNT_RX_DISCARD v n, 32, 16⟩
def VNT_RX_DISCARD_FIRMWARE_LIMIT (v n : Nat) : FieldRef := ⟨Reg.VNT_RX_DISCARD v n, 16, 16⟩
def VNT_RX_DISCARD_OTHER (v n : Nat) : FieldRef := ⟨Reg.VNT_RX_DISCARD v n, 0, 16⟩
def VNT_LANE_STAT_RETIRED (v l : Nat) : FieldRef := ⟨Reg.VNT_LANE_STAT v l, 31, 1⟩
def VNT_LANE_STAT_CHARGES (v l : Nat) : FieldRef := ⟨Reg.VNT_LANE_STAT v l, 16, 8⟩
def VNT_LANE_STAT_SYMERR (v l : Nat) : FieldRef := ⟨Reg.VNT_LANE_STAT v l, 0, 16⟩
def VNT_PTP_CFG_EN (v : Nat) : FieldRef := ⟨Reg.VNT_PTP_CFG v, 31, 1⟩
def VNT_PTP_CFG_SOURCE (v : Nat) : FieldRef := ⟨Reg.VNT_PTP_CFG v, 30, 1⟩
def VNT_PTP_CFG_PORT (v : Nat) : FieldRef := ⟨Reg.VNT_PTP_CFG v, 28, 2⟩
def VNT_PTP_LAT_TX_LAT (v : Nat) : FieldRef := ⟨Reg.VNT_PTP_LAT v, 16, 16⟩
def VNT_PTP_LAT_RX_LAT (v : Nat) : FieldRef := ⟨Reg.VNT_PTP_LAT v, 0, 16⟩
def VNT_PTP_FIFO_POP (v : Nat) : FieldRef := ⟨Reg.VNT_PTP_FIFO v, 31, 1⟩
def VNT_PTP_FIFO_LOST (v : Nat) : FieldRef := ⟨Reg.VNT_PTP_FIFO v, 16, 8⟩
def VNT_PTP_FIFO_COUNT (v : Nat) : FieldRef := ⟨Reg.VNT_PTP_FIFO v, 0, 7⟩
def VNT_PTP_TS_TIME_TIME (v : Nat) : FieldRef := ⟨Reg.VNT_PTP_TS_TIME v, 0, 64⟩
def VNT_PTP_TS_AON_AON (v : Nat) : FieldRef := ⟨Reg.VNT_PTP_TS_AON v, 0, 48⟩
def VNT_PTP_TS_INFO_DIR (v : Nat) : FieldRef := ⟨Reg.VNT_PTP_TS_INFO v, 33, 1⟩
def VNT_PTP_TS_INFO_UNSYNC (v : Nat) : FieldRef := ⟨Reg.VNT_PTP_TS_INFO v, 32, 1⟩
def VNT_PTP_TS_INFO_PORT (v : Nat) : FieldRef := ⟨Reg.VNT_PTP_TS_INFO v, 30, 2⟩
def VNT_PTP_TS_INFO_MSGTYPE (v : Nat) : FieldRef := ⟨Reg.VNT_PTP_TS_INFO v, 24, 4⟩
def VNT_PTP_TS_INFO_DOMAIN (v : Nat) : FieldRef := ⟨Reg.VNT_PTP_TS_INFO v, 16, 8⟩
def VNT_PTP_TS_INFO_SEQID (v : Nat) : FieldRef := ⟨Reg.VNT_PTP_TS_INFO v, 0, 16⟩
def VNT_WAKE_CFG_MODE : FieldRef := ⟨Reg.VNT_WAKE_CFG, 30, 2⟩
def VNT_WAKE_CFG_COUNT : FieldRef := ⟨Reg.VNT_WAKE_CFG, 20, 4⟩
def VNT_WAKE_CFG_QUIET : FieldRef := ⟨Reg.VNT_WAKE_CFG, 0, 8⟩
def VNT_WAKE_TIMES_ON_MIN : FieldRef := ⟨Reg.VNT_WAKE_TIMES, 24, 8⟩
def VNT_WAKE_TIMES_ON_MAX : FieldRef := ⟨Reg.VNT_WAKE_TIMES, 16, 8⟩
def VNT_WAKE_TIMES_OFF_MIN : FieldRef := ⟨Reg.VNT_WAKE_TIMES, 8, 8⟩
def VNT_WAKE_TIMES_OFF_MAX : FieldRef := ⟨Reg.VNT_WAKE_TIMES, 0, 8⟩
def VNT_WAKE_STATUS_ARMED : FieldRef := ⟨Reg.VNT_WAKE_STATUS, 31, 1⟩
def VNT_WAKE_STATUS_VALID : FieldRef := ⟨Reg.VNT_WAKE_STATUS, 24, 1⟩
def VNT_WAKE_STATUS_CAUSE : FieldRef := ⟨Reg.VNT_WAKE_STATUS, 0, 4⟩
def MBX_TIMEOUT_MS : FieldRef := ⟨Reg.MBX_TIMEOUT, 0, 16⟩
def MBX_LOCK_LOCK : FieldRef := ⟨Reg.MBX_LOCK, 0, 1⟩
def MBX_DATA_DATA (c i : Nat) : FieldRef := ⟨Reg.MBX_DATA c i, 0, 32⟩
def MBX_CTL_GO (c : Nat) : FieldRef := ⟨Reg.MBX_CTL c, 8, 1⟩
def MBX_CTL_LEN (c : Nat) : FieldRef := ⟨Reg.MBX_CTL c, 0, 5⟩
def MBX_STATUS_SEQ (c : Nat) : FieldRef := ⟨Reg.MBX_STATUS c, 16, 16⟩
def MBX_STATUS_REASON (c : Nat) : FieldRef := ⟨Reg.MBX_STATUS c, 8, 8⟩
def MBX_STATUS_STATE (c : Nat) : FieldRef := ⟨Reg.MBX_STATUS c, 0, 3⟩
def MBX_ACK_TAKE (c : Nat) : FieldRef := ⟨Reg.MBX_ACK c, 0, 1⟩
def DBL_PEND_PEND (p : Nat) : FieldRef := ⟨Reg.DBL_PEND p, 0, 32⟩
def DBL_MASK_MASK (p : Nat) : FieldRef := ⟨Reg.DBL_MASK p, 0, 32⟩
def DBL_RING_RING (p : Nat) : FieldRef := ⟨Reg.DBL_RING p, 16, 16⟩
def DBL_CFG_VECTOR (p : Nat) : FieldRef := ⟨Reg.DBL_CFG p, 0, 11⟩
def PRT_SCHED_QUANTUM : FieldRef := ⟨Reg.PRT_SCHED, 24, 8⟩
def PRT_SCHED_WAIT_MIN : FieldRef := ⟨Reg.PRT_SCHED, 0, 16⟩
def PRT_LOCK_LOCK : FieldRef := ⟨Reg.PRT_LOCK, 0, 1⟩
def PRT_SEG_OWNER_GRANTED (s : Nat) : FieldRef := ⟨Reg.PRT_SEG_OWNER s, 31, 1⟩
def PRT_SEG_OWNER_WITHHELD (s : Nat) : FieldRef := ⟨Reg.PRT_SEG_OWNER s, 30, 1⟩
def PRT_SEG_OWNER_PART (s : Nat) : FieldRef := ⟨Reg.PRT_SEG_OWNER s, 16, 6⟩
def PRT_SEG_OWNER_RSEG (s : Nat) : FieldRef := ⟨Reg.PRT_SEG_OWNER s, 0, 10⟩
def PRT_STATE_STATE (p : Nat) : FieldRef := ⟨Reg.PRT_STATE p, 29, 3⟩
def PRT_STATE_ACLASS (p : Nat) : FieldRef := ⟨Reg.PRT_STATE p, 27, 2⟩
def PRT_STATE_BCLASS (p : Nat) : FieldRef := ⟨Reg.PRT_STATE p, 25, 2⟩
def PRT_STATE_LARRAYS (p : Nat) : FieldRef := ⟨Reg.PRT_STATE p, 16, 8⟩
def PRT_STATE_HBM_GIB (p : Nat) : FieldRef := ⟨Reg.PRT_STATE p, 0, 16⟩
def PRT_MODE_LEND_EN (p : Nat) : FieldRef := ⟨Reg.PRT_MODE p, 1, 1⟩
def PRT_MODE_IDX (p : Nat) : FieldRef := ⟨Reg.PRT_MODE p, 0, 1⟩
def PRT_BLOCKS_BLOCKS (p : Nat) : FieldRef := ⟨Reg.PRT_BLOCKS p, 0, 21⟩
def PRT_JOB_JOB (p : Nat) : FieldRef := ⟨Reg.PRT_JOB p, 0, 32⟩
def PRT_GEY_COUNT (p : Nat) : FieldRef := ⟨Reg.PRT_GEY p, 32, 17⟩
def PRT_GEY_BASE (p : Nat) : FieldRef := ⟨Reg.PRT_GEY p, 0, 16⟩
def PRT_LIMITS_CONDUITS (p : Nat) : FieldRef := ⟨Reg.PRT_LIMITS p, 32, 21⟩
def PRT_LIMITS_BANK (p : Nat) : FieldRef := ⟨Reg.PRT_LIMITS p, 8, 8⟩
def PRT_LIMITS_PLUMES (p : Nat) : FieldRef := ⟨Reg.PRT_LIMITS p, 0, 8⟩
def PRT_EVT_NOTIFY (p : Nat) : FieldRef := ⟨Reg.PRT_EVT p, 21, 1⟩
def PRT_EVT_VALID (p : Nat) : FieldRef := ⟨Reg.PRT_EVT p, 20, 1⟩
def PRT_EVT_CONDUIT (p : Nat) : FieldRef := ⟨Reg.PRT_EVT p, 0, 20⟩
def PRT_QOS_CND (p : Nat) : FieldRef := ⟨Reg.PRT_QOS p, 48, 10⟩
def PRT_QOS_VENT (p : Nat) : FieldRef := ⟨Reg.PRT_QOS p, 32, 10⟩
def PRT_QOS_HBM (p : Nat) : FieldRef := ⟨Reg.PRT_QOS p, 16, 10⟩
def PRT_QOS_ARRAY (p : Nat) : FieldRef := ⟨Reg.PRT_QOS p, 0, 10⟩
def PRT_IRQ_MAX_COUNT (p : Nat) : FieldRef := ⟨Reg.PRT_IRQ p, 24, 8⟩
def PRT_IRQ_MAX_DELAY (p : Nat) : FieldRef := ⟨Reg.PRT_IRQ p, 0, 16⟩
def PRT_PEER_PEERS (p i : Nat) : FieldRef := ⟨Reg.PRT_PEER p i, 0, 32⟩
def PRT_USE_ARRAY_COUNT (p : Nat) : FieldRef := ⟨Reg.PRT_USE_ARRAY p, 0, 64⟩
def PRT_USE_HBM_COUNT (p : Nat) : FieldRef := ⟨Reg.PRT_USE_HBM p, 0, 64⟩
def PRT_USE_VENT_COUNT (p : Nat) : FieldRef := ⟨Reg.PRT_USE_VENT p, 0, 64⟩
def PRT_USE_CND_COUNT (p : Nat) : FieldRef := ⟨Reg.PRT_USE_CND p, 0, 64⟩
def PRT_USE_LENT_COUNT (p : Nat) : FieldRef := ⟨Reg.PRT_USE_LENT p, 0, 64⟩
def PRT_LMAP_VALID (p n : Nat) : FieldRef := ⟨Reg.PRT_LMAP p n, 31, 1⟩
def PRT_LMAP_PHYS (p n : Nat) : FieldRef := ⟨Reg.PRT_LMAP p n, 16, 8⟩
def PCI_CFG_HEAD : FieldRef := ⟨Reg.PCI_CFG, 31, 1⟩
def PCI_CFG_MAX_GEN : FieldRef := ⟨Reg.PCI_CFG, 0, 4⟩
def PCI_LINK_GEN : FieldRef := ⟨Reg.PCI_LINK, 28, 4⟩
def PCI_LINK_WIDTH : FieldRef := ⟨Reg.PCI_LINK, 16, 5⟩
def PCI_LINK_UP : FieldRef := ⟨Reg.PCI_LINK, 0, 1⟩
def PCI_ERR_UR : FieldRef := ⟨Reg.PCI_ERR, 48, 16⟩
def PCI_ERR_CA : FieldRef := ⟨Reg.PCI_ERR, 32, 16⟩
def PCI_ERR_IRQ_LOST : FieldRef := ⟨Reg.PCI_ERR, 16, 16⟩
def PCI_ERR_POISONED : FieldRef := ⟨Reg.PCI_ERR, 0, 16⟩
def PCI_LOCK_LOCK : FieldRef := ⟨Reg.PCI_LOCK, 0, 1⟩
def PCI_APERTURE_BASE (p : Nat) : FieldRef := ⟨Reg.PCI_APERTURE p, 30, 18⟩
def PCI_GEY_INC_AMOUNT (p : Nat) : FieldRef := ⟨Reg.PCI_GEY_INC p, 32, 32⟩
def PCI_GEY_INC_GEYSER (p : Nat) : FieldRef := ⟨Reg.PCI_GEY_INC p, 0, 16⟩
def PCI_FN_STATUS_PSTATE (p : Nat) : FieldRef := ⟨Reg.PCI_FN_STATUS p, 29, 3⟩
def PCI_FN_STATUS_LEVEL (p : Nat) : FieldRef := ⟨Reg.PCI_FN_STATUS p, 24, 2⟩
def PCI_FN_STATUS_DEVNUM (p : Nat) : FieldRef := ⟨Reg.PCI_FN_STATUS p, 16, 8⟩
def PCI_FN_STATUS_HEAD (p : Nat) : FieldRef := ⟨Reg.PCI_FN_STATUS p, 0, 1⟩
def SEC_LIFECYCLE_RELEASING : FieldRef := ⟨Reg.SEC_LIFECYCLE, 16, 1⟩
def SEC_LIFECYCLE_TRANSFERS : FieldRef := ⟨Reg.SEC_LIFECYCLE, 8, 5⟩
def SEC_LIFECYCLE_LAST : FieldRef := ⟨Reg.SEC_LIFECYCLE, 7, 1⟩
def SEC_LIFECYCLE_STATE : FieldRef := ⟨Reg.SEC_LIFECYCLE, 0, 3⟩
def SEC_OWNER_VALID : FieldRef := ⟨Reg.SEC_OWNER, 63, 1⟩
def SEC_OWNER_DIGEST : FieldRef := ⟨Reg.SEC_OWNER, 0, 63⟩
def SEC_DEBUG_ARMED : FieldRef := ⟨Reg.SEC_DEBUG, 31, 1⟩
def SEC_DEBUG_EVER : FieldRef := ⟨Reg.SEC_DEBUG, 30, 1⟩
def SEC_DEBUG_KIND : FieldRef := ⟨Reg.SEC_DEBUG, 28, 2⟩
def SEC_DEBUG_SCOPE : FieldRef := ⟨Reg.SEC_DEBUG, 24, 4⟩
def SEC_DEBUG_CAPTURES : FieldRef := ⟨Reg.SEC_DEBUG, 16, 8⟩
def SEC_DEBUG_USES : FieldRef := ⟨Reg.SEC_DEBUG, 0, 16⟩
def SEC_SEAL0_SEALED : FieldRef := ⟨Reg.SEC_SEAL0, 0, 64⟩
def SEC_SEAL1_SEALED : FieldRef := ⟨Reg.SEC_SEAL1, 0, 64⟩
def SEC_CONSENT0_CONSENT : FieldRef := ⟨Reg.SEC_CONSENT0, 0, 64⟩
def SEC_CONSENT1_EXPLICIT : FieldRef := ⟨Reg.SEC_CONSENT1, 0, 64⟩
def SEC_INTEGRITY_FIRST_PART : FieldRef := ⟨Reg.SEC_INTEGRITY, 24, 8⟩
def SEC_INTEGRITY_COUNT : FieldRef := ⟨Reg.SEC_INTEGRITY, 0, 24⟩
def SEC_SESSIONS_OPEN : FieldRef := ⟨Reg.SEC_SESSIONS, 0, 5⟩
def SEC_LOCK_LOCK : FieldRef := ⟨Reg.SEC_LOCK, 0, 1⟩
def CLK_SRC_REFCLK_OK : FieldRef := ⟨Reg.CLK_SRC, 31, 1⟩
def CLK_SRC_TRIMMED : FieldRef := ⟨Reg.CLK_SRC, 30, 1⟩
def CLK_SRC_TRIM_SRC : FieldRef := ⟨Reg.CLK_SRC, 28, 2⟩
def CLK_SRC_LOSSES : FieldRef := ⟨Reg.CLK_SRC, 0, 16⟩
def CLK_AON_TRIM_ERROR : FieldRef := ⟨Reg.CLK_AON_TRIM, 16, 16⟩
def CLK_AON_TRIM_TRIM : FieldRef := ⟨Reg.CLK_AON_TRIM, 0, 16⟩
def CLK_TIME_STATUS_SYNC : FieldRef := ⟨Reg.CLK_TIME_STATUS, 31, 1⟩
def CLK_LOCK_LOCK : FieldRef := ⟨Reg.CLK_LOCK, 0, 1⟩
def CLK_ISL_FREQ_LIMIT (i : Nat) : FieldRef := ⟨Reg.CLK_ISL_FREQ i, 28, 4⟩
def CLK_ISL_FREQ_EFF (i : Nat) : FieldRef := ⟨Reg.CLK_ISL_FREQ i, 16, 12⟩
def CLK_ISL_FREQ_REQ (i : Nat) : FieldRef := ⟨Reg.CLK_ISL_FREQ i, 0, 11⟩
def CLK_GATE_EN (k : Nat) : FieldRef := ⟨Reg.CLK_GATE k, 0, 32⟩
def CLK_GATE_STAT_RUN (k : Nat) : FieldRef := ⟨Reg.CLK_GATE_STAT k, 0, 32⟩
def PWR_CFG_COOLING : FieldRef := ⟨Reg.PWR_CFG, 31, 1⟩
def PWR_CFG_AUTO_IDLE : FieldRef := ⟨Reg.PWR_CFG, 30, 1⟩
def PWR_CFG_CAP : FieldRef := ⟨Reg.PWR_CFG, 0, 16⟩
def PWR_STATUS_STATE : FieldRef := ⟨Reg.PWR_STATUS, 29, 3⟩
def PWR_STATUS_P_1MS : FieldRef := ⟨Reg.PWR_STATUS, 16, 13⟩
def PWR_STATUS_P_100MS : FieldRef := ⟨Reg.PWR_STATUS, 0, 13⟩
def PWR_CEIL_F_CAP : FieldRef := ⟨Reg.PWR_CEIL, 21, 11⟩
def PWR_CEIL_F_THERM : FieldRef := ⟨Reg.PWR_CEIL, 10, 11⟩
def PWR_CEIL_DUTY : FieldRef := ⟨Reg.PWR_CEIL, 0, 2⟩
def PWR_TEMP_SENSOR : FieldRef := ⟨Reg.PWR_TEMP, 24, 8⟩
def PWR_TEMP_TJ : FieldRef := ⟨Reg.PWR_TEMP, 8, 8⟩
def PWR_TEMP_HBM : FieldRef := ⟨Reg.PWR_TEMP, 0, 8⟩
def PWR_THERM_CFG_T_CRIT : FieldRef := ⟨Reg.PWR_THERM_CFG, 16, 8⟩
def PWR_THERM_CFG_T_THROTTLE : FieldRef := ⟨Reg.PWR_THERM_CFG, 8, 8⟩
def PWR_THERM_CFG_T_WARN : FieldRef := ⟨Reg.PWR_THERM_CFG, 0, 8⟩
def PWR_ENERGY_MJ : FieldRef := ⟨Reg.PWR_ENERGY, 0, 64⟩
def PWR_WAKE_WAKE_N : FieldRef := ⟨Reg.PWR_WAKE, 1, 1⟩
def PWR_WAKE_DETECTOR : FieldRef := ⟨Reg.PWR_WAKE, 0, 1⟩
def PWR_LOCK_LOCK : FieldRef := ⟨Reg.PWR_LOCK, 0, 1⟩
def RST_CAUSE_AFTER_FREEZE : FieldRef := ⟨Reg.RST_CAUSE, 31, 1⟩
def RST_CAUSE_WARM : FieldRef := ⟨Reg.RST_CAUSE, 16, 8⟩
def RST_CAUSE_CAUSE : FieldRef := ⟨Reg.RST_CAUSE, 0, 4⟩
def RST_ARRAY_GO : FieldRef := ⟨Reg.RST_ARRAY, 31, 1⟩
def RST_ARRAY_BUSY : FieldRef := ⟨Reg.RST_ARRAY, 30, 1⟩
def RST_ARRAY_ARRAY : FieldRef := ⟨Reg.RST_ARRAY, 0, 8⟩
def RST_VENT_GO : FieldRef := ⟨Reg.RST_VENT, 31, 1⟩
def RST_VENT_VENT : FieldRef := ⟨Reg.RST_VENT, 0, 4⟩
def RST_WARM_KEY : FieldRef := ⟨Reg.RST_WARM, 0, 32⟩
def FRZ_CTL_TRIGGER : FieldRef := ⟨Reg.FRZ_CTL, 31, 1⟩
def FRZ_CFG_MODE : FieldRef := ⟨Reg.FRZ_CFG, 31, 1⟩
def FRZ_CFG_DRIVE : FieldRef := ⟨Reg.FRZ_CFG, 30, 1⟩
def FRZ_CFG_ON_REFCLK : FieldRef := ⟨Reg.FRZ_CFG, 29, 1⟩
def FRZ_CFG_PASSES : FieldRef := ⟨Reg.FRZ_CFG, 24, 4⟩
def FRZ_CFG_RATE : FieldRef := ⟨Reg.FRZ_CFG, 16, 8⟩
def FRZ_CFG_DEST_PORT : FieldRef := ⟨Reg.FRZ_CFG, 0, 16⟩
def FRZ_DEST_MAC_MAC : FieldRef := ⟨Reg.FRZ_DEST_MAC, 0, 48⟩
def FRZ_DEST_IP_HI_ADDR : FieldRef := ⟨Reg.FRZ_DEST_IP_HI, 0, 64⟩
def FRZ_DEST_IP_LO_ADDR : FieldRef := ⟨Reg.FRZ_DEST_IP_LO, 0, 64⟩
def FRZ_STATUS_FROZEN : FieldRef := ⟨Reg.FRZ_STATUS, 31, 1⟩
def FRZ_STATUS_HELD : FieldRef := ⟨Reg.FRZ_STATUS, 30, 1⟩
def FRZ_STATUS_CAUSE : FieldRef := ⟨Reg.FRZ_STATUS, 16, 8⟩
def FRZ_STATUS_PORT_FALLBACK : FieldRef := ⟨Reg.FRZ_STATUS, 5, 1⟩
def FRZ_STATUS_PORT_WAIT : FieldRef := ⟨Reg.FRZ_STATUS, 4, 1⟩
def FRZ_STATUS_PASS : FieldRef := ⟨Reg.FRZ_STATUS, 0, 4⟩
def FRZ_SIZE_TAP_BYTES : FieldRef := ⟨Reg.FRZ_SIZE_TAP, 0, 64⟩
def FRZ_SIZE_PORT_BYTES : FieldRef := ⟨Reg.FRZ_SIZE_PORT, 0, 64⟩
def FRZ_LOCK_LOCK : FieldRef := ⟨Reg.FRZ_LOCK, 0, 1⟩
def FW_STATUS_RECOVERY : FieldRef := ⟨Reg.FW_STATUS, 31, 1⟩
def FW_STATUS_UNCONFIRMED : FieldRef := ⟨Reg.FW_STATUS, 30, 1⟩
def FW_STATUS_LOSSY : FieldRef := ⟨Reg.FW_STATUS, 29, 1⟩
def FW_STATUS_BUSY : FieldRef := ⟨Reg.FW_STATUS, 28, 1⟩
def FW_STATUS_BOOTED : FieldRef := ⟨Reg.FW_STATUS, 0, 1⟩
def FW_SLOT0_STATE : FieldRef := ⟨Reg.FW_SLOT0, 61, 3⟩
def FW_SLOT0_TRIES : FieldRef := ⟨Reg.FW_SLOT0, 58, 3⟩
def FW_SLOT0_SVN : FieldRef := ⟨Reg.FW_SLOT0, 48, 7⟩
def FW_SLOT0_VERSION : FieldRef := ⟨Reg.FW_SLOT0, 0, 32⟩
def FW_SLOT1_STATE : FieldRef := ⟨Reg.FW_SLOT1, 61, 3⟩
def FW_SLOT1_TRIES : FieldRef := ⟨Reg.FW_SLOT1, 58, 3⟩
def FW_SLOT1_SVN : FieldRef := ⟨Reg.FW_SLOT1, 48, 7⟩
def FW_SLOT1_VERSION : FieldRef := ⟨Reg.FW_SLOT1, 0, 32⟩
def FW_SVN_MIN_MIN : FieldRef := ⟨Reg.FW_SVN_MIN, 0, 7⟩
def FW_POLICY_REQUIRE_APPROVAL : FieldRef := ⟨Reg.FW_POLICY, 63, 1⟩
def FW_POLICY_MIN_VERSION : FieldRef := ⟨Reg.FW_POLICY, 0, 32⟩
def FW_LOCK_LOCK : FieldRef := ⟨Reg.FW_LOCK, 0, 1⟩
def CRT_STATUS_STATE : FieldRef := ⟨Reg.CRT_STATUS, 28, 4⟩
def CRT_STATUS_PRESENT : FieldRef := ⟨Reg.CRT_STATUS, 27, 1⟩
def CRT_STATUS_LINK_UP : FieldRef := ⟨Reg.CRT_STATUS, 26, 1⟩
def CRT_STATUS_WRITABLE : FieldRef := ⟨Reg.CRT_STATUS, 25, 1⟩
def CRT_STATUS_SNAP_OK : FieldRef := ⟨Reg.CRT_STATUS, 24, 1⟩
def CRT_STATUS_LIFE : FieldRef := ⟨Reg.CRT_STATUS, 0, 14⟩
def CRT_ID_ID : FieldRef := ⟨Reg.CRT_ID, 0, 64⟩
def CRT_WRITTEN_MB : FieldRef := ⟨Reg.CRT_WRITTEN, 0, 64⟩
def CRT_BIND_ORIGIN : FieldRef := ⟨Reg.CRT_BIND, 24, 8⟩
def CRT_BIND_BINDS : FieldRef := ⟨Reg.CRT_BIND, 16, 8⟩
def CRT_ERR_IO : FieldRef := ⟨Reg.CRT_ERR, 16, 16⟩
def CRT_ERR_RETRIED : FieldRef := ⟨Reg.CRT_ERR, 0, 16⟩
def CRT_CFG_AUTO_BIND : FieldRef := ⟨Reg.CRT_CFG, 0, 1⟩
def CRT_LOCK_LOCK : FieldRef := ⟨Reg.CRT_LOCK, 0, 1⟩
end Fld

end Sys2Proof.Machine
end

