-- ==== Sys2Proof/Machine/State.lean ====
section
/-! DEFINITION. The state of the device: the registers of every block of Table 1.6 in one store, the memories, and
every queue, buffer and record that the manual gives a unit.  All of it is plain data. -/
namespace Sys2Proof.Machine

/-- What an access to something that does not exist ends in. -/
inductive Fault where
  /-- A command names a unit number that the device does not have (an array above 143, a stack above 11, a vent
  above 15, a partition above 63 ...).  Raised by every command that carries a unit number.  Safe: the model stops
  where no hardware could receive the command. -/
  | noSuchUnit (n : Nat)
  deriving DecidableEq, Repr

/-- What the model turns away by name. -/
inductive Refusal where
  /-- The command's meaning is not written.  Safe: nothing is claimed of it. -/
  | notModelled (mnemonic : String)
  /-- A private TAP instruction that is obeyed: the manual says under which conditions it is obeyed (R451) and not
  what it does.  Raised by TAP_PRIVATE.  Safe: nothing is claimed of its effect. -/
  | privateTap
  deriving DecidableEq, Repr

/-! ## Arrays (The Runen instruction set; Matrix engine and accumulation; Vector and element-wise engine) -/

/-- The registers of a context (Tables 3.1 and 3.2).  `s0` and `p0` are hard-wired in the operations that read and
write registers, and never stored. -/
structure Ctx where
  s : Sparse Word64
  a : Sparse Word64
  v : Sparse VReg
  p : Sparse PReg
  vl : Nat
  vfill : Word32
  srSeed : Word64
  srCtr : Word64
  nstat : Word32
  rmoCnd : Nat
  cycles : Nat
  groups : Nat
  deriving DecidableEq, Repr

def Ctx.zero : Ctx := ⟨[], [], [], [], 256, 0, 0, 0, 0, 0, 0, 0⟩

/-- The context that an array runs: its partition, its logical array, and whether it runs in the bubble class. -/
structure CtxId where
  part : Nat
  larray : Nat
  bubble : Bool
  deriving DecidableEq, Repr

/-- A buffered operand-cache write (R98): physical offset in the array's operand cache and the bytes. -/
structure OcWrite where
  off : Nat
  data : List Byte
  deriving DecidableEq, Repr

/-- The four operand-cache transfers (R108). -/
inductive XferKind where
  | load | pref | store | evict
  deriving DecidableEq, Repr

/-- An operand-cache transfer: physical offset of the operand-cache side, partition-relative address of the HBM side,
row bytes, stride and rows. -/
structure Xfer where
  kind : XferKind
  part : Nat
  oc : Nat
  hbm : Nat
  row : Nat
  stride : Nat
  rows : Nat
  deriving DecidableEq, Repr

/-- A deferred operation of a group (R97). -/
inductive Deferred where
  /-- OC.LOAD, OC.STORE, OC.PREF, OC.EVICT. -/
  | xfer (x : Xfer)
  /-- GEY.INC and the RMO class: the 64-byte entry of Table 7.3 as a number, the remote-operation conduit, the
  completion conduit whose credit the release reserves, the operand-cache range it uses and whether it writes it. -/
  | rmo (entry : List Byte) (cnd : Nat) (cw : Word64) (oc : Option (Nat × Nat × Bool))
  /-- The posting of CND.POST: conduit and entry. -/
  | post (cnd : Nat) (entry : List Byte)
  deriving DecidableEq, Repr

/-- An amax capture held until commit (R187): the record's address in the table in force when it was made, `none` where ENABLE was 0
then (NUM_AMAX_CFG); captured binary32 bits; non-finite bit. -/
structure Capture where
  record : Option Nat
  mag : Word32
  nonfinite : Bool
  deriving DecidableEq, Repr

/-- What the last instruction of a group waits for (R95, R115 to R117): a count; an entry for a physical
operand-cache offset; a credit for an entry; scopes.  `d` is the status register. -/
inductive Wait where
  | gey (g : Nat) (value : Word64)
  | take (cnd : Nat) (oc : Nat) (d : Nat)
  | post (cnd : Nat) (entry : List Byte) (d : Nat)
  | fence (scopes : Nat)
  deriving DecidableEq, Repr

/-- What the commit of a group asks for (ARR_STATUS.REASON): HALT, BRK, the end of a STEP. -/
inductive StopReq where
  | halt
  | brk (code : Nat)
  | step
  deriving DecidableEq, Repr

/-- Numeric flags raised by one instruction: the flags, SOURCE_KIND and the device time (R78, R79). -/
structure RaisedFlags where
  flags : Word32
  kind : Nat
  time : Nat
  deriving DecidableEq, Repr

/-- An instruction group in flight (R94 to R99). -/
structure Group where
  startPc : Nat
  count : Nat
  lastCls : Nat
  lastOp : Nat
  lastPc : Nat
  checkpoint : Ctx
  writes : List OcWrite
  wbytes : Nat
  deferred : List Deferred
  captures : List Capture
  flags : List RaisedFlags
  /-- Operand-cache ranges (offset, length) that the group's own transfers write, and read (R100). -/
  xferWrites : List (Nat × Nat)
  xferReads : List (Nat × Nat)
  /-- Ranges that its OC.EVICTs read and then zero: R100 forbids only writes to them, R120 holds them as written. -/
  xferClears : List (Nat × Nat)
  /-- Claimed conduit entries that the group delivers (R222): conduit and entry. -/
  taken : List (Nat × List Byte)
  /-- Conduit in which CND.POST of the group holds a granted credit (R221). -/
  granted : List Nat
  wait : Option Wait
  onCommit : Option StopReq
  deriving DecidableEq, Repr

/-- An accumulation group of a context (R143).  `res` is RES_FIRST of its context's reservation (R139). -/
structure AccGroup where
  state : Nat
  shape : Nat
  store : Nat
  idx : Nat
  first : Nat
  count : Nat
  res : Nat
  deriving DecidableEq, Repr

def AccGroup.closed : AccGroup := ⟨0, 0, 0, 0, 0, 0, 0⟩

/-- A drain in the drain queue (R148): the group, the units, the conversion fields of R111 and the destination, a
partition-relative HBM address or a physical operand-cache offset, with the row stride in bytes. -/
structure Drain where
  grp : Nat
  first : Nat
  count : Nat
  target : Nat
  rm : Nat
  sat : Bool
  ftz : Bool
  add : Bool
  close : Bool
  scale : Option Word32
  addr : Nat
  toOc : Bool
  stride : Nat
  rows : Nat
  cols : Nat
  seed : Word64
  ctr : Word64
  started : Bool
  /-- How many of the MMAs in flight issued before it. -/
  ahead : Nat
  /-- Its rows, as stored element codes, before an MMA that issued after it entered one of its units (Table 4.6). -/
  held : Option (List (List Nat))
  deriving DecidableEq, Repr

/-- The MMA whose sums have not all reached accumulator memory (R148): group, first unit, units. -/
structure MmaFlight where
  grp : Nat
  first : Nat
  count : Nat
  binary32 : Bool
  deriving DecidableEq, Repr

/-- Element program slot (R192): the operand-cache offset of the image and its bytes as checked. -/
structure EProg where
  off : Nat
  image : List Byte
  deriving DecidableEq, Repr

/-- A physical array beyond its registers of the ARR block. -/
structure Arr where
  ident : Option CtxId
  ctx : Ctx
  pc : Nat
  cur : Option Group
  done : List Group
  released : List Deferred
  xfers : List Xfer
  /-- Operand-cache ranges of remote operations in flight (R120): operation number, offset, length, writes. -/
  rmoRanges : List (Nat × Nat × Nat × Bool)
  /-- Remote operations of this array that have not completed, by operation number (R117), and those of them that are GETs into
  HBM. -/
  rmoOut : List Nat
  hbmGets : List Nat
  /-- MMAs whose sums have not all reached accumulator memory, oldest first. -/
  mma : List MmaFlight
  drains : List Drain
  /-- The eight accumulation groups of the context. -/
  acc : List AccGroup
  progs : List (Option EProg)
  stopReq : Option StopReq
  /-- STOP has been asked for (ARR_CTL.STOP). -/
  stopBit : Bool
  /-- The array runs one group and then stops (ARR_CTL.STEP). -/
  stepping : Bool
  /-- A pending preemption (R123): the context that comes onto the array. -/
  switchReq : Option CtxId
  /-- ARR_STATUS.STATE that the outgoing context is saved with, while the array is SWITCHING (R125). -/
  was : Nat
  /-- The wait that a pending switch found unsatisfied and abandoned (R123, R238). -/
  leftWait : Option Wait
  /-- The instruction cache (R87): address and word of each instruction fetched since it was last invalidated. -/
  icache : List (Nat × BitVec 128)
  /-- When the context on it last began to wait (R407). -/
  waitSince : Nat
  /-- Accumulation groups of the context that SVC_ACC_RESERVE saved into its image and that no restore has brought back. -/
  savedOut : List Nat
  deriving DecidableEq, Repr

def Arr.initial : Arr :=
  { ident := none, ctx := Ctx.zero, pc := 0, cur := none, done := [], released := [], xfers := [], rmoRanges := [],
    rmoOut := [], hbmGets := [], mma := [], drains := [], acc := List.replicate 8 AccGroup.closed,
    progs := [none, none, none, none], stopReq := none, stopBit := false, stepping := false, switchReq := none, was := 0, leftWait := none,
    icache := [], waitSince := 0, savedOut := [] }

/-- What firmware knows of a context: the array it is mapped to, its image address and its reservations as firmware
loads them when the context comes onto the array (R125, R139, R215). -/
structure CtxInfo where
  id : CtxId
  phys : Nat
  image : Nat
  ocFirst : Nat
  ocUnits : Nat
  accFirst : Nat
  accCount : Nat
  /-- The image holds the context: it was saved there when it last left an array. -/
  saved : Bool
  deriving DecidableEq, Repr

/-- What the device holds of a context that has left its array, beside its image: groups left in place, bound programs, the reason of its
last stop, whether a WAKE has resumed it since (R233), and what it waits for in the image: the wait of the group that was abandoned
(R123, R238). -/
structure Parked where
  id : CtxId
  phys : Nat
  acc : List AccGroup
  progs : List (Option EProg)
  state : Nat
  reason : Nat
  woken : Bool
  waits : Option Wait
  deriving DecidableEq, Repr

/-- A conduit entry claimed by a context and not yet delivered (R222). -/
structure Claim where
  part : Nat
  larray : Nat
  cnd : Nat
  entry : List Byte
  deriving DecidableEq, Repr

/-! ## HBM, operand caches, accumulator memory -/

/-- What a memory controller answers to its requester: the line, its poison mark, and whether its tag failed. -/
structure LineReply where
  addr : Nat
  data : List Byte
  poison : Bool
  integrity : Bool
  performed : Bool
  deriving DecidableEq, Repr

structure Mem where
  /-- HBM by physical address. -/
  hbm : List Host.Cell
  /-- Poisoned HBM lines, by physical line number (R208). -/
  poison : Sparse Bool
  /-- HBM lines whose stored integrity tag does not match (R441), by physical line number. -/
  badTag : Sparse Bool
  /-- HBM segments (1 GiB, physical) that hold no storage any more (R210, R212). -/
  lostSeg : Sparse Bool
  /-- Segments a retirement copy will remove when it ends: stack, segment (R211). -/
  copying : List (Nat × Nat)
  /-- Segments lost by each partition: partition, physical segment, partition-relative segment (Table 6.7). -/
  segLost : List (Nat × Nat × Nat)
  /-- Operand caches: physical array times 6 MiB plus physical offset. -/
  oc : List Host.Cell
  /-- Poisoned operand-cache lines: physical array times 98,304 plus line. -/
  ocPoison : Sparse Bool
  /-- Accumulator memory: physical array times 786,432 plus byte. -/
  acc : List Host.Cell
  /-- The last answer of an HBM controller. -/
  reply : Option LineReply
  deriving DecidableEq, Repr

/-! ## Conduits and geysers -/

/-- A conduit context (Table 6.2). -/
structure Cnd where
  ring : Nat
  valid : Bool
  kind : Nat
  home : Nat
  log2depth : Nat
  owner : Nat
  cls : Nat
  notifyEn : Bool
  notify : Nat
  prod : Nat
  cons : Nat
  granted : Nat
  dropped : Nat
  posted : Nat
  taken : Nat
  deriving DecidableEq, Repr

/-- An array that waits at a conduit: physical array; `true` for CND.TAKE. -/
structure CndWaiter where
  arr : Nat
  cnd : Nat
  take : Bool
  deriving DecidableEq, Repr

structure Conduits where
  /-- The contexts each of the four engines caches, least recently used first (R224). -/
  cache : List (Nat × Cnd)
  /-- Held conduits (R225): under `holdAll`, every conduit but the listed ones; otherwise the listed ones. -/
  holdAll : Bool
  holdExcept : List Nat
  waiters : List CndWaiter
  /-- What waits at the engine for a hold to end (R225): a conduit, and how many discarded entries to count in it; 0 for a credit that
  returns to FREE. -/
  owed : List (Nat × Nat)
  /-- Conduits of partition 0 whose ledger check failed and which are to be destroyed (R404). -/
  doomed : List Nat
  /-- Firmware's list of the conduits it has created: number and owner (SVC_CND_CREATE, R396). -/
  owned : List (Nat × Nat)
  deriving DecidableEq, Repr

/-- A firing of a geyser waiting for its POST credit (R231). -/
structure Firing where
  gey : Nat
  count : Word64
  target : Word64
  time : Nat
  /-- The conduit with which a started POST waits; `none` while the firing is only queued. -/
  cnd : Option Nat
  /-- POST is done with, and the firing waits for a credit of its RINC. -/
  posted : Bool
  deriving DecidableEq, Repr

/-- The message classes of the on-die network (R20). -/
inductive NetClass where
  | request | response | control
  deriving DecidableEq, Repr

/-- A network word (R19, R21): the clock domains whose attachment points send and receive it, its class, and its payload, here the
increment of a geyser.  A word in the list lies wholly in the network; delivery takes it out whole. -/
structure NetWord where
  src : Nat
  dst : Nat
  cls : NetClass
  gey : Nat
  amount : Word64
  deriving DecidableEq, Repr

structure Geysers where
  /-- Increments on their way to the geyser block, oldest first. -/
  inflight : List NetWord
  pending : List Firing
  /-- Wake latches, by partition times 256 plus logical array (R233). -/
  wake : Sparse Bool
  deriving DecidableEq, Repr

/-! ## Events -/

/-- An event record (Table 1.8) before its SEQ is assigned; `ord` numbers the records in the order they were raised. -/
structure EvtRec where
  ord : Nat
  time : Nat
  source : Nat
  part : Nat
  cls : Nat
  code : Nat
  flags : Nat
  count : Nat
  addr : Word64
  detail : List Word32
  deriving DecidableEq, Repr

/-- The records of one source that wait for one destination, oldest first; the head is the undelivered record (R37).  `lost` are those
discarded since the last post (R38). -/
structure Stream where
  source : Nat
  dest : EvtDest
  queue : List EvtRec
  lost : Nat
  deriving DecidableEq, Repr

/-- The SEQ of the next record that a source posts to an event conduit (R36). -/
structure SeqNo where
  source : Nat
  cnd : Nat
  next : Nat
  deriving DecidableEq, Repr

/-! ## Remote operations and ZRT (Remote memory operations and ZRT) -/

/-- What a plume's remote operation is for: a segment or another message of the ring; part of the ESCROW or PERMUTE at an
index of the program, and for PERMUTE the bucket it copies; the end of a gather of a bucket that this device serves; the notice of an
abort. -/
inductive PlmUse where
  | msg
  | escrow (ix : Nat)
  | permute (ix b : Nat)
  | serve (b : Nat)
  | notice
  deriving DecidableEq, Repr

/-- Who issued a remote operation (SOURCE_KIND): an array; a geyser's RINC action with the count at its firing;
firmware on behalf of a partition's host; firmware itself, with the bytes it sends (R240, R332); a plume sequencer for a plume slot, with the bytes it sends and the offsets of
poisoned lines among them where it does not send them out of memory. -/
inductive RmoSrc where
  | array (n : Nat)
  | geyser (g : Nat) (count : Word64)
  | host (part : Nat)
  | firmware (data : List Byte)
  | plume (slot : Nat) (use : PlmUse) (data : Option (List Byte × List Nat))
  deriving DecidableEq, Repr

/-- An entry that lies in a remote-operation conduit: the operation's number and who issued it; the completion conduit in which the
operation holds a credit (R113, R221), `none` where it has none or that conduit has been destroyed; when it was released; and the status
and DETAIL with which it completes when it is taken, where they are known before: it has been aborted (R252), OP_TIMEOUT has passed
(R268), or it was released to an unreachable peer (R256). -/
structure RmoQueued where
  cnd : Nat
  id : Nat
  src : RmoSrc
  cc : Option Nat
  released : Nat
  fate : Option (Nat × Nat)
  deriving DecidableEq, Repr

/-- An operation that a conduit engine tracks (R245): its entry (Table 7.3), where it goes, the completion conduit in which it holds a
credit, and what is known of its outcome.  `status` is set when it may complete; `got` counts GET bytes written locally. -/
structure RmoOp where
  id : Nat
  cnd : Nat
  eng : Nat
  part : Nat
  src : RmoSrc
  entry : List Byte
  dev : Nat
  cc : Option Nat
  status : Option Nat
  old : Nat
  done : Nat
  detail : Nat
  retx : Nat
  poison : Option Nat
  deriving DecidableEq, Repr

/-- A data frame that is sent and not acknowledged (R263). -/
structure Unacked where
  psn : Nat
  segs : List ZrtSeg
  sentAt : Nat
  resent : Bool
  deriving DecidableEq, Repr

/-- A path (Table 7.6): what its entry configures, and what the engine keeps of it.  Rates are in Mb/s, times in ns,
`alpha` in units of 2^-16. -/
structure Path where
  valid : Bool
  ipv6 : Bool
  jumbo : Bool
  ecn : Bool
  rvent : Nat
  window : Nat
  port : Nat
  ip : List Byte
  state : Nat
  epoch : Nat
  peerBoot : Nat
  txNext : Nat
  rxApplied : Nat
  srtt : Nat
  rttvar : Nat
  measured : Bool
  rto : Nat
  expiries : Nat
  rate : Nat
  alpha : Nat
  lastCut : Nat
  echoSeen : Bool
  retx : Nat
  nextSend : Nat
  tsEcho : Nat
  lastAckAdvance : Nat
  /-- Data frames to be sent again, in order, each once the rate allows it (R263, R264): PSN, and whether an acknowledgement is asked for
  at once. -/
  again : List (Nat × Bool)
  /-- The peer has closed this epoch (R267): none of its frames is performed or sent any more. -/
  shut : Bool
  ceSeen : Bool
  sinceAck : Nat
  ackDue : Option Nat
  sendq : List ZrtSeg
  unacked : List Unacked
  /-- Frames in the reorder pool: PSN and segments. -/
  pool : List (Nat × List ZrtSeg)
  deriving DecidableEq, Repr

/-- A previous epoch of a path whose frames are not accounted for yet (R267): what this side performed of it, the
frames this side sent in it and the peer has not acknowledged, whether CLOSE has gone out, and `settled` once a CLOSE_ACK has accounted
for this side's frames; the record goes when a CLOSE for the epoch has been answered. -/
structure Closing where
  dev : Nat
  vent : Nat
  epoch : Nat
  rxApplied : Nat
  unacked : List Unacked
  sendq : List ZrtSeg
  sent : Bool
  settled : Bool
  deriving DecidableEq, Repr

/-- An operation of another device that this device performs fragment by fragment: its status so far. -/
structure Inbound where
  dev : Nat
  opId : Nat
  status : Nat
  deriving DecidableEq, Repr

structure Rmo where
  nextId : Nat
  queued : List RmoQueued
  ops : List RmoOp
  inbound : List Inbound
  /-- Operations that have completed while frames of theirs are unacknowledged, which pin their conduit's stream to its path (R250,
  R252): number, conduit, peer. -/
  late : List (Nat × Nat × Nat)
  /-- Segments of operations that a peer has not performed and to which no path is UP (R267): they wait for one. -/
  stranded : List (Nat × ZrtSeg)
  /-- Paths by peer times 16 plus local vent. -/
  paths : Sparse Path
  closing : List Closing
  /-- ZRT frames handed to a vent's transmit queue and not sent yet, oldest first: vent, queue, frame. -/
  out : List (Nat × Nat × ZrtFrame)
  deriving DecidableEq, Repr

def Path.closed : Path :=
  { valid := false, ipv6 := false, jumbo := false, ecn := false, rvent := 0, window := 0, port := 0, ip := [], state := 0,
    epoch := 0, peerBoot := 0, txNext := 0, rxApplied := 0, srtt := 0, rttvar := 0, measured := false, rto := 0,
    expiries := 0, rate := 0, alpha := 65536, lastCut := 0, echoSeen := false, retx := 0, nextSend := 0, tsEcho := 0,
    lastAckAdvance := 0, again := [], shut := false, ceSeen := false, sinceAck := 0, ackDue := none, sendq := [], unacked := [], pool := [] }
/-! ## Plumes (Mapping a job and collective operations) -/

/-- A bucket descriptor (Table 8.3). -/
structure PlmBucket where
  elems : Nat
  contrib : Nat
  out : Nat
  home : Nat
  stage : Nat
  target : Nat
  gey : Nat
  deriving DecidableEq, Repr

/-- A plume operation record (Table 8.4). -/
structure PlmOp where
  op : Nat
  flags : Nat
  first : Nat
  count : Nat
  gey : Nat
  value : Word64
  addr : Nat
  tag : Nat
  deriving DecidableEq, Repr

/-- What the sequencer read at START: the descriptor (Table 8.1), the ring as pairs of device and partition, the buckets
and the program. -/
structure PlmDesc where
  npos : Nat
  mypos : Nat
  elemFmt : Nat
  carryFmt : Nat
  outFmt : Nat
  carry : Bool
  sharded : Bool
  ncnd : Nat
  nslot : Nat
  log2seg : Nat
  wfmt : Nat
  geyBase : Nat
  id : Nat
  cpl : Nat
  bstatus : Nat
  vtable : Nat
  staging : Nat
  reducers : List Nat
  cnds : List Nat
  ring : List (Nat × Nat)
  buckets : List PlmBucket
  ops : List PlmOp
  deriving DecidableEq, Repr

/-- A segment tag (Table 8.6). -/
structure PlmTag where
  id : Nat
  kind : Nat
  opix : Nat
  bucket : Nat
  step : Nat
  first : Nat
  count : Nat
  hops : Nat
  chunk : Nat
  version : Nat
  deriving DecidableEq, Repr

/-- An operation that has started and not completed: index, step, start; the next segment number (R278); what its record
will give; decisions made (bucket, taken); reports of the owned chunk by bucket; elements in place (bucket, chunk, count);
buckets whose record is complete; gather requests not answered (bucket, chunk); remote operations not completed; for
PERMUTE, its descriptor, who has joined, and whether its copies have begun. -/
structure PlmRun where
  ix : Nat
  step : Word64
  tStart : Nat
  seg : Nat
  late : Nat
  nonfin : Nat
  poison : Option Nat
  decided : List (Nat × Bool)
  reports : List (Nat × PlmReport)
  got : List (Nat × Nat × Nat)
  recorded : List Nat
  asked : List (Nat × Nat)
  waiting : Nat
  reshard : Option PlmReshard
  joined : List (Nat × Nat)
  /-- Chunks of which a segment came too early to be written (R294): bucket, chunk. -/
  missed : List (Nat × Nat)
  /-- Buckets whose contribution is ready, and since when (R285). -/
  ready : List (Nat × Nat)
  copying : Bool
  deriving DecidableEq, Repr

/-- A remote operation that the plume has still to issue: conduit index, whether it is the PUT of a segment, the operation
it serves, code, fabric address, local address, length, amount, and what it sends. -/
structure PlmEmit where
  cnd : Nat
  seg : Bool
  ix : Nat
  use : PlmUse
  opc : Nat
  fabric : Nat
  loc : Nat
  len : Nat
  amount : Word64
  data : Option (List Byte × List Nat)
  deriving DecidableEq, Repr

/-- A segment at a reducer: the logical array, the tag of the partial as it arrived, its elements and the poisoned ones
among them, the report so far, how many elements have been added, and the conduit whose slot it holds. -/
structure PlmWork where
  larray : Nat
  tag : PlmTag
  acc : List Nat
  marks : List Nat
  rep : Option PlmReport
  done : Nat
  cnd : Nat
  deriving DecidableEq, Repr

/-- A position status record (R289). -/
structure PlmStatus where
  bucket : Nat
  pos : Nat
  taken : Bool
  rep : Option PlmReport
  deriving DecidableEq, Repr

/-- A join record as it arrived (R274): position, PLUME_ID, NPOS and CRC. -/
structure PlmJoin where
  pos : Nat
  id : Nat
  npos : Nat
  crc : Word32
  deriving DecidableEq, Repr

/-- The content of a message between plumes whose layout the manual does not give. -/
inductive PlmMsgBody where
  | join (j : PlmJoin)
  | status (x : PlmStatus)
  | request (pos bucket chunk version addr : Nat)
  | noVersion (bucket chunk found : Nat)
  /-- The report so far that goes with a partial (R289), for which the tag has no field. -/
  | report (t : PlmTag) (rep : PlmReport)
  | abort (pos : Nat)
  | rejoin (dev part reshardId : Nat)
  | reshard (z : PlmReshard)
  deriving DecidableEq, Repr

/-- A message sent: by a slot, to a device and partition. -/
structure PlmMsg where
  slot : Nat
  dev : Nat
  part : Nat
  body : PlmMsgBody
  deriving DecidableEq, Repr

/-- A running plume.  `awaited` are the neighbours that have not joined; `budget` the deadline budget of the present step
in us; `fresh` says that the next operation opens a step; `relStep` is the last step whose RELEASE was sent; `carryIn` and
`carry` are the buckets carried into the present step and into the next. -/
structure Plume where
  desc : PlmDesc
  stepStart : Word64
  budget : Nat
  fresh : Bool
  next : Nat
  awaited : List Nat
  joins : List PlmJoin
  runs : List PlmRun
  ctl : List PlmEmit
  segs : List PlmEmit
  sent : List Nat
  handled : List Nat
  work : List PlmWork
  turn : Nat
  status : List PlmStatus
  flips : Sparse Nat
  relStep : Option Word64
  carryIn : List Nat
  carry : List Nat
  /-- Completion records that wait for a credit of CND_CPL. -/
  records : List (List Byte)
  /-- The re-shard that firmware has arranged for the next LOOP (SVC_PLM_RESHARD), and whether its PERMUTE, which then stands
  behind the program, has started. -/
  armed : Option PlmReshard
  permuting : Bool
  /-- When the wait for a neighbour began (R297). -/
  waitFrom : Nat
  /-- Joins of a re-shard that came before its PERMUTE started here (R296): device, partition, RESHARD_ID. -/
  rejoins : List (Nat × Nat × Nat)
  /-- Abort notices and completion records of an earlier use of the slot that wait for a credit still: conduit, and what goes there
  (R276, R298). -/
  owed : List (Nat × PlmEmit)
  owedRecords : List (Nat × List Byte)
  deriving DecidableEq, Repr

def PlmDesc.empty : PlmDesc :=
  { npos := 0, mypos := 0, elemFmt := 0, carryFmt := 0, outFmt := 0, carry := false, sharded := false, ncnd := 0, nslot := 0,
    log2seg := 0, wfmt := 0, geyBase := 0, id := 0, cpl := 0, bstatus := 0, vtable := 0, staging := 0, reducers := [], cnds := [],
    ring := [], buckets := [], ops := [] }
def Plume.none : Plume :=
  { desc := PlmDesc.empty, stepStart := 0, budget := 0, fresh := false, next := 0, awaited := [], joins := [], runs := [],
    ctl := [], segs := [], sent := [], handled := [], work := [], turn := 0, status := [], flips := [], relStep := .none,
    carryIn := [], carry := [], records := [], armed := .none, permuting := false, waitFrom := 0, rejoins := [], owed := [], owedRecords := [] }

/-! ## Tephra log (Surviving failure) -/

/-- A record handed to the logger and not accepted yet. -/
structure LogPending where
  type : Nat
  part : Nat
  source : Nat
  body : List Byte
  /-- The TAG of the attempt that it belongs to, where that attempt has ended (R307). -/
  tag : Option Nat
  /-- Descriptors of the partition's append ring that must be handled first: those announced when the step bank observed
  the commit condition (R329). -/
  need : Nat
  deriving DecidableEq, Repr

/-- A record that the logger has accepted (Table 10.1): its bytes, header included, and the storage key under which its body goes to
the cartridge where its partition was sealed (R454). -/
structure LogRecord where
  lsn : Nat
  part : Nat
  type : Nat
  tag : Nat
  step : Nat
  bytes : List Byte
  key : Option (List Byte)
  deriving DecidableEq, Repr

/-- A 64 KiB block of the own log: the LSNs of its first and last record, and which of its two writes are complete. -/
structure LogBlock where
  first : Nat
  last : Nat
  written : Bool
  acked : Bool
  deriving DecidableEq, Repr

/-- A region of a snapshot: partition, index in its protection table, base, and the bytes copied. -/
structure SnapRegion where
  part : Nat
  index : Nat
  base : Nat
  data : List Byte
  deriving DecidableEq, Repr

/-- A snapshot: SNAP_ID, SCOPE, the step it belongs to, the stop time in us, what it holds, and the LSN of its SNAPSHOT record
once it is durable. -/
structure Snapshot where
  id : Nat
  scope : Nat
  step : Nat
  stopUs : Nat
  regions : List SnapRegion
  lsn : Nat
  deriving DecidableEq, Repr

structure Log where
  waiting : List LogPending
  /-- Accepted records, in LSN order. -/
  records : List LogRecord
  blocks : List LogBlock
  /-- Where the next record goes in the log buffer. -/
  bufPos : Nat
  /-- Descriptors of each partition's append ring handled so far (R328). -/
  appended : Sparse Nat
  /-- Blocks handed to firmware for the mirror device: device and first LSN. -/
  mirrorOut : List (Nat × Nat)
  /-- The first LSN that was not mirrored (R333). -/
  unmirrored : Option Nat
  /-- The highest durable LSN, once one is. -/
  durable : Option Nat
  /-- Blocks of other devices in this device's mirror area: origin, first LSN, bytes; and the blocks acknowledged. -/
  mirrored : List (Nat × Nat × List Byte)
  ackOut : List (Nat × Nat)
  ingressPos : Nat
  /-- LOG_FULL has been raised at 90 % of the present filling. -/
  warned : Bool
  snap : Option Snapshot
  kept : List Snapshot
  nextSnap : Nat
  /-- A device of the group has failed while a snapshot is under way (R345). -/
  snapLost : Bool
  /-- When the mirror last acknowledged a block, or blocks began to wait (R333). -/
  mirrorAt : Nat
  deriving DecidableEq, Repr

def Log.initial : Log :=
  { waiting := [], records := [], blocks := [], bufPos := 0, appended := [], mirrorOut := [], unmirrored := none, durable := none, mirrored := [],
    ackOut := [], ingressPos := 0, warned := false, snap := none, kept := [], nextSnap := 1, snapLost := false,
    mirrorAt := 0 }

/-! ## Step banks (Training steps, scaling and generation) -/

/-- What a step bank keeps beside its registers (R304 to R307): attempts begun since ENABLE was set, the baselines of ABORT_GEY
and NAY_GEY, the cause of an abort under way, and the ring entry that takes the times of phase 7. -/
structure Bank where
  begun : Nat
  baseAbort : Word64
  baseNay : Word64
  cause : Nat
  phase7 : Option Nat
  deriving DecidableEq, Repr

def Bank.none : Bank := ⟨0, 0, 0, 0, .none⟩

/-! ## Upsets and retirement (Surviving failure) -/

/-- A logical array that a retired array held and firmware has not mapped again (R355). -/
structure Refill where
  info : CtxInfo
  spare : Option Nat
  /-- The array that was retired, and when. -/
  lost : Nat
  time : Nat
  deriving DecidableEq, Repr

structure Retire where
  /-- Upsets counted in the present window, by unit and kind (R354). -/
  upsets : Sparse Nat
  /-- Spares that stand in for a retired array (R16). -/
  used : List Nat
  /-- The retirement list (R356): domain and sub-unit. -/
  list : List (Nat × Nat)
  refill : List Refill
  deriving DecidableEq, Repr

/-! ## Vents (Ethernet ports) -/

/-- The MACsec associations of a port (R373 to R375): the transmit association in use, with the next packet number; those
installed to take over; and the receive associations, with the highest packet number accepted. -/
structure PortSec where
  tx : Option (Nat × Nat)
  rx : List (Nat × Nat)
  deriving DecidableEq, Repr

/-- A PTP timestamp (R376): the words TIME, AON and INFO. -/
structure PtpStamp where
  time : Word64
  aon : Word64
  info : Word64
  deriving DecidableEq, Repr

/-- A loss of UP: port, device time, and the FEC symbol errors of each lane in the 100 us before it (R371). -/
structure LinkLoss where
  port : Nat
  time : Nat
  errs : List Nat
  deriving DecidableEq, Repr

/-- A vent beyond its registers.  `limit` counts the frames to firmware of each port in a second of device time (R365);
`wire` is the frame that a port sends now: port, queue and length. -/
structure Vent where
  sec : List (Nat × PortSec)
  fifo : List PtpStamp
  loss : List LinkLoss
  limit : List (Nat × Nat × Nat)
  wire : List (Nat × Nat × Nat)
  cak : Bool
  mka : Bool
  deriving DecidableEq, Repr

def Vent.initial : Vent := { sec := [], fifo := [], loss := [], limit := [], wire := [], cak := false, mka := false }

/-- A frame that firmware or the sinter sends, or that the read-out sends: vent, port, its kind (the row of Table 11.2 of what
it answers; 0 for read-out), whether it is an IP frame, its length, the messageType, domainNumber and sequenceId of a PTP message marked
for a timestamp, and the ZRT frames ahead of it in queue 7 (R366). -/
structure FwFrame where
  vent : Nat
  port : Nat
  kind : Nat
  ip : Bool
  len : Nat
  stamp : Option (Nat × Nat × Nat)
  ahead : Nat
  deriving DecidableEq, Repr

/-- The packet that carries a ZRT frame (R257): IP version and address, UDP ports, don't-fragment, hop limit, DSCP and ECN field, and the
UDP payload, byte for byte (R258). -/
structure ZrtPacket where
  ipv6 : Bool
  address : List Byte
  srcPort : Nat
  dstPort : Nat
  df : Bool
  hops : Nat
  dscp : Nat
  ecn : Nat
  payload : List Byte
  deriving DecidableEq, Repr

/-- A frame that a port has started: vent, port, queue, source MAC address, the next hop's MAC address on an IP frame, VLAN tag as VID and
PCP (R363), the association number and packet number under which it is protected (R373), and the ZRT frame it carries, if it is one, with
its packet. -/
structure SentFrame where
  vent : Nat
  port : Nat
  queue : Nat
  src : Nat
  hop : Option Nat
  vlan : Option (Nat × Nat)
  sec : Option (Nat × Nat)
  zrt : Option (ZrtFrame × ZrtPacket)
  deriving DecidableEq, Repr

structure Ether where
  vents : Sparse Vent
  /-- Frames of firmware and the sinter that wait in queue 7, oldest first. -/
  fwOut : List FwFrame
  /-- Frames handed to firmware or the sinter: vent, port and row of Table 11.2. -/
  toFw : List (Nat × Nat × Nat)
  /-- Frames started, oldest first. -/
  sent : List SentFrame
  /-- Transport and domain of firmware's PTP clock (SVC_PTP_SET). -/
  ptp : Option (Nat × Nat)
  deriving DecidableEq, Repr

/-! ## The host side (Host interface, partitions and mailboxes) -/

/-- A reply or notice of the fumarole or of the sinter to a partition (R415, R418): a notice has code 0 and tag 0. -/
structure Reply where
  part : Nat
  /-- The device that performed the call (0 for a notice). -/
  dev : Nat
  sinter : Bool
  code : Nat
  tag : Nat
  status : Nat
  words : List Word32
  /-- Failed deliveries so far (R416). -/
  fails : Nat
  deriving DecidableEq, Repr

/-- Signals held for coalescing on a vector of a function (R401): how many, and since when. -/
structure HeldIrq where
  fn : Nat
  vec : Nat
  count : Nat
  since : Nat
  deriving DecidableEq, Repr

/-- The MSI-X message of a vector: what the endpoint wrote. -/
structure Msi where
  fn : Nat
  vec : Nat
  addr : Word64
  data : Word32
  deriving DecidableEq, Repr

/-- What the device answered to a register read or an aperture read: the data, and how the request completed
(0 successful, 1 Unsupported Request, 2 Completer Abort, 3 successful with EP, 4 Request Retry Status). -/
structure HostReply where
  data : List Byte
  status : Nat
  deriving DecidableEq, Repr

structure HostSide where
  /-- Functions whose MSI-X Enable is 1, whose Function Mask is 1, and which are in D3hot. -/
  msixEn : List Nat
  msixFnMask : List Nat
  d3hot : List Nat
  /-- VF Enable of the SR-IOV capability. -/
  vfEnable : Bool
  /-- PERST_N is low. -/
  perst : Bool
  /-- MSI-X tables, two 64-bit words an entry: function times 4,096 plus twice the vector. -/
  msixTable : Sparse Word64
  /-- Pending Bit Arrays: function times 2,048 plus the vector. -/
  pba : Sparse Bool
  held : List HeldIrq
  /-- MSI-X writes made, oldest first. -/
  sent : List Msi
  /-- IRQ actions handed to the head's firmware: function and vector (R400). -/
  toHead : List (Nat × Nat)
  /-- Inboxes of the fumarole and of the sinter: bit 0, by channel number. -/
  inbox : Sparse Bool
  /-- When the message of a channel was posted, by channel number. -/
  postedAt : Sparse Nat
  /-- Replies and notices that wait for their channel, oldest first, and how many were discarded, by channel. -/
  replies : List Reply
  lost : Sparse Nat
  /-- The reply that lies posted in a channel, to be posted again when its delivery fails (R416). -/
  inChannel : List Reply
  /-- Functions whose next message brings replies back whose delivery failed. -/
  retry : List Reply
  /-- Replies to calls that the head forwarded to this device, which go back to it (R393). -/
  back : List Reply
  /-- Messages that this head has forwarded to other devices (R393): the target and the words. -/
  forwards : List (Nat × List Word32)
  /-- The head's device number on a member that knows one (R391). -/
  headDev : Option Nat
  /-- The last answer to a read. -/
  answer : Option HostReply
  deriving DecidableEq, Repr

def HostSide.initial : HostSide :=
  { msixEn := [], msixFnMask := [], d3hot := [], vfEnable := false, perst := true, msixTable := [], pba := [],
    held := [], sent := [], toHead := [], inbox := [], postedAt := [], replies := [], lost := [], inChannel := [],
    retry := [], back := [], forwards := [], headDev := none, answer := none }
/-! ## Register access and service calls in progress -/

/-- The latched high half of a 64-bit register that a requester has read (R8). -/
structure Latch where
  rq : Requester
  reg : Nat
  high : Word32
  deriving DecidableEq, Repr

/-- A register write as it reaches the device: requester, BAR0 or register space, offset, width in bytes, value. -/
structure RegWrite where
  rq : Requester
  bar0 : Bool
  off : Nat
  width : Nat
  value : Word64
  deriving DecidableEq, Repr

/-- What a service call that has not replied waits for. -/
inductive CallWait where
  /-- An array that is no longer RUNNING, WAITING or SWITCHING; the second says that SAVE follows; the third that the
  reservation is then scrubbed. -/
  | arrayStop (n : Nat)
  | arrayDump (n : Nat)
  | arrayScrub (n : Nat)
  /-- Every path to a peer UP, until a time. -/
  | peer (d until' : Nat)
  /-- The join of a plume. -/
  | plume (k : Nat)
  /-- PLM_RESHARD of every position of a list. -/
  | reshard (id left : Nat)
  /-- A snapshot that is being taken. -/
  | snap (id : Nat)
  /-- A refill of a device by a spare: the target step, when it began, and the slot of the head's own plume. -/
  | refill (dev spare target t0 k : Nat)
  /-- A refill that waits for another whose sources it shares (R352): its slot and arguments. -/
  | refillNext (k lost : Nat) (spare : Option Nat) (step : Nat) (f : StepFinding) (paths : List PathEntry) (arrays : List (Nat × Nat × Nat × Nat))
  /-- A partition's reset. -/
  | reset (p : Nat)
  /-- Clocks of domains that agree with CLK_GATE: domain and EN before the call, with EN asked for. -/
  | gate (l : List (Nat × Bool × Bool))
  /-- The log is durable to an LSN, until a time; then DORMANT. -/
  | dormant (lsn until' : Nat)
  /-- A vent's ports UP, until a time. -/
  | vent (vs : List Nat) (until' : Nat)
  /-- The logger's writes in flight and the snapshot drain. -/
  | eject
  /-- The handling of a descriptor of the caller's append ring, by number. -/
  | append (n : Nat)
  /-- Arrays that stop for a snapshot: its number, SCOPE and step, when it began, and the arrays that run on afterwards. -/
  | snapStop (id scope step t0 : Nat) (arrays : List Nat)
  /-- The programming of a firmware slot. -/
  | fwWrite (slot : Nat) (im : FwImage)
  /-- A context that stops for a new accumulator reservation: partition and logical array, array, first line and lines, and whether it
  runs on. -/
  | accReserve (p l n first count : Nat) (go : Bool)
  /-- The reset of a partition that is then destroyed, or that is then given other grants. -/
  | destroy (p : Nat)
  | grant (g : PartGrant)
  /-- An array whose reset waits for its island. -/
  | arrayReset (n : Nat)
  /-- The release erase, and the lifecycle state that follows it. -/
  | erase (next : Nat)
  /-- An import (`true`) or export of SVC_SEC_IMPORT and EXPORT: destination, source, bytes, the key and nonce in use, the associated
  data, and the tag that an import checks (R438). -/
  | crypt (imp : Bool) (dst src len : Nat) (key nonce aad tag : List Byte)
  /-- Its reply is queued; what it asked for follows once the reply has been taken (SVC_RST_WARM, SVC_FW_RECOVERY). -/
  | replied
  /-- What it waited for has failed: it replies STATE. -/
  | failed
  deriving DecidableEq, Repr

/-- A service call in progress: who called, its code, the target of a forwarded call, the blocks it owns (R12), and what
it waits for. -/
structure Call where
  caller : Caller
  code : Nat
  target : Option Nat
  blocks : List Nat
  wait : Option CallWait
  deriving DecidableEq, Repr

/-- A periodic copy of usage counters (SVC_PERF_SET): partition, buffer, period and next time in ns. -/
structure PerfCopy where
  part : Nat
  addr : Nat
  period : Nat
  next : Nat
  deriving DecidableEq, Repr

structure RegState where
  latches : List Latch
  /-- Held low halves of 64-bit writes. -/
  halves : List Latch
  /-- Expert writes held back while a call owns their block (R12). -/
  held : List RegWrite
  calls : List Call
  perf : List PerfCopy
  deriving DecidableEq, Repr

def RegState.initial : RegState := { latches := [], halves := [], held := [], calls := [], perf := [] }
/-! ## What firmware keeps (the group, Host interface) -/

/-- An entry of the device table that the head keeps (Table 12.4). -/
structure DevEntry where
  dev : Nat
  role : Nat
  state : Nat
  level : Nat
  fdom : Nat
  boot : Nat
  caps : Nat
  identity : List Byte
  mac : Nat
  tSeen : Nat
  deriving DecidableEq, Repr


/-- The buddy map of a job's ring (R338): PLUME_ID, and for each position its buddy, if it has one. -/
structure BuddyMap where
  plume : Nat
  buddies : List (Option Nat)
  deriving DecidableEq, Repr

/-- What firmware keeps of a partition that it has created (R396): its three conduits and the addresses of their rings, the depth
of the event conduit, the address of the first context image area, and how many of the highest segments hold these areas. -/
structure PartInfo where
  part : Nat
  evt : Nat
  gey : Nat
  rmo : Nat
  evtRing : Nat
  geyRing : Nat
  rmoRing : Nat
  evtDepth : Nat
  images : Nat
  areaSegs : Nat
  deriving DecidableEq, Repr
/-! ## Secrecy (Secrecy: who may learn or change what) -/

/-- A tenant's policy (POLICY_SET, Table 13.8): its text segments, whether its aperture is closed (0), open only on an
IDE stream bound in its session (1) or open (2), whether its remote operations may leave the device, and whether it may
migrate. -/
structure Policy where
  part : Nat
  textFirst : Nat
  textCount : Nat
  aperture : Nat
  netExpose : Bool
  migrate : Bool
  deriving DecidableEq, Repr

/-- A key that a tenant has imported: partition, SLOT (8: STORAGE), the key, and its export counter (R437, R438). -/
structure PartKey where
  part : Nat
  slot : Nat
  key : List Byte
  counter : Nat
  deriving DecidableEq, Repr

/-- A seal record (R425): the measurement of the text segments and the policy. -/
structure SealRecord where
  part : Nat
  measure : List Byte
  policy : Policy
  deriving DecidableEq, Repr

/-- An SPDM session (R433, R435): its number, the partition it is bound to, whether FINISH has completed it, and whether the
owner key authenticated its requester. -/
structure Session where
  id : Nat
  part : Nat
  established : Bool
  owner : Bool
  deriving DecidableEq, Repr

/-- An SPDM message of the sinter: to a partition's requester, the SPDM response, a number with it, and measurement blocks. -/
inductive SpdmReply where
  | version
  | capabilities
  | algorithms
  | digests
  | certificate (slot : Nat)
  | challengeAuth (sig : Word64)
  | measurements (blocks : List (Nat × List Byte)) (sig : Word64)
  | keyExchange (session : Nat)
  | finish (session : Nat)
  | heartbeat (session : Nat)
  | keyUpdate (session : Nat)
  | endSession (session : Nat)
  | vendor (session : Nat)
  | error (code : Nat)
  /-- The reply to a service call made inside a session (R435). -/
  | call (session : Nat) (r : Reply)
  deriving DecidableEq, Repr

/-- An SPDM message that the sinter reassembles from fragments on a partition's channels (R436). -/
structure SpdmPartial where
  part : Nat
  bytes : List Byte
  deriving DecidableEq, Repr

/-- The keys and the seal record of a partition that were sent to the sinter of a replacement device (R439). -/
structure Migration where
  part : Nat
  dev : Nat
  keys : List PartKey
  sealed : SealRecord
  deriving DecidableEq, Repr

structure Sec where
  policies : List Policy
  /-- Partitions to which SEC_EXPOSED has been raised since power-on (R445). -/
  exposed : List Nat
  keys : List PartKey
  seals : List SealRecord
  sessions : List Session
  nextSession : Nat
  assembling : List SpdmPartial
  /-- SPDM messages received whole on the sinter channels, and replies sent: partition and message. -/
  received : List (Nat × List Byte)
  replies : List (Nat × SpdmReply)
  /-- Nonces given out and not used (R429). -/
  nonces : List Nat
  /-- The digest of the owner's public key in the owner record. -/
  owner : Option Nat
  /-- The group storage key, wrapped in the sinter area. -/
  groupKey : Option Nat
  token : Option Token
  /-- Captures produced since power-on (block 6). -/
  capturesMade : Nat
  /-- Generation of the memory key set of each partition; 255 stands for the device set (Table 13.6). -/
  keyGen : Sparse Nat
  /-- IDE selective streams: stream, the partition whose function it is limited to, and whether its keys come from that
  partition's session (R443). -/
  ide : List (Nat × Nat × Bool)
  /-- The step of the release erase that is not done yet, and the fuse state it leads to (R430). -/
  erase : Option Nat
  migrated : List Migration
  deriving DecidableEq, Repr

def Sec.initial : Sec :=
  { policies := [], exposed := [], keys := [], seals := [], sessions := [], nextSession := 1, assembling := [], received := [],
    replies := [], nonces := [], owner := none, groupKey := none, token := none, capturesMade := 0, keyGen := [], ide := [], erase := none, migrated := [] }

/-! ## Clocks, power, reset and freeze -/

/-- The power states of Table 14.3. -/
inductive PowerState where
  | off | starting | running | hold | frozen | dormant
  deriving DecidableEq, Repr

/-- The wake-pattern detector of the dormant state (R378 to R380): it waits for QUIET, is armed, or has seen elements of the
pattern. -/
structure Power where
  state : PowerState
  /-- REFCLK is present (R456), and some PLL domain has locked since the reset. -/
  refclk : Bool
  locked : Bool
  /-- Contacts that are low: RESET_N, FREEZE_N. -/
  resetLow : Bool
  freezeLow : Bool
  /-- THERMTRIP_N is driven low. -/
  tripped : Bool
  /-- The device drives FREEZE_N low (R479). -/
  drives : Bool
  /-- Why the next start-up begins, where the island knows it: the CAUSE code. -/
  nextCause : Option Nat
  /-- Time held, to be reported after the restart (R476). -/
  heldUs : Option Nat
  /-- Islands whose array clocks are stopped under R461. -/
  autoIdle : List Nat
  /-- The detector is armed (R378). -/
  armed : Bool
  /-- A warm firmware reset is in progress (R473), and one is held while a slot is WRITING (R490). -/
  warm : Bool
  warmHeld : Bool
  /-- RST_DONE has been raised since the start-up (R475), and when that began. -/
  doneRaised : Bool
  startedAt : Nat
  /-- How long the start-up took, in ns. -/
  startupNs : Nat
  /-- Temperature thresholds whose event has been raised and not left: warn, throttle, critical. -/
  warned : Bool
  throttled : Bool
  critical : Bool
  /-- When F_CAP, and F_THERM, were last moved (R466, R468). -/
  capAt : Nat
  thermAt : Nat
  /-- Arrays whose reset waits for their gated island (R474). -/
  resetWait : List Nat
  /-- A unit of the MINIMAL set is lost: until the next start-up the device offers no service of any kind (R45). -/
  noService : Bool
  deriving DecidableEq, Repr

def Power.initial : Power :=
  { state := .starting, refclk := false, locked := false, resetLow := false, freezeLow := false, tripped := false, drives := false,
    nextCause := none, heldUs := none, autoIdle := [], armed := false, warm := false, warmHeld := false, doneRaised := false,
    startedAt := 0, startupNs := 0, warned := false, throttled := false, critical := false, capAt := 0, thermAt := 0, resetWait := [], noService := false }

/-- A datagram of the read-out (R483). -/
structure Readout where
  type : Nat
  pass : Nat
  captureId : Nat
  offset : Nat
  total : Nat
  data : List Byte
  deriving DecidableEq, Repr

/-- A UDP datagram of the read-out as it is sent (R483): its destination, its source address of the same family, the UDP port, and the
payload, byte for byte. -/
structure Datagram where
  mac : Nat
  ipHi : Nat
  ipLo : Nat
  srcHi : Nat
  srcLo : Nat
  port : Nat
  payload : List Byte
  deriving DecidableEq, Repr

/-- The freeze controller and the TAP: the capture identifier, the next offset of the present pass, datagrams sent; the bit position of
RDOUT_STREAM, the instruction in force, the preloaded boundary register, and the last bits shifted out. -/
structure Debug where
  captureId : Nat
  offset : Nat
  sent : List Datagram
  /-- The read-out by the TAP of the whole stream has been counted against USES. -/
  tapCounted : Bool
  bit : Nat
  instr : Nat
  boundary : Nat
  tdo : List Bool
  deriving DecidableEq, Repr

def Debug.initial : Debug :=
  { captureId := 0, offset := 0, sent := [], tapCounted := false, bit := 0, instr := 0x01, boundary := 0, tdo := [] }

/-- The I3C target (R523, R524): its dynamic address, the index, the window, and the last bytes it returned. -/
structure I3c where
  addr : Option Nat
  index : Nat
  window : List Byte
  answer : List Byte
  deriving DecidableEq, Repr

def I3c.initial : I3c := { addr := none, index := 0, window := List.replicate 32 0, answer := [] }

/-! ## Firmware and cartridge -/

/-- A recovery download: path (1 PCIe, 2 vent 0, 3 cartridge), target slot, length, bytes received, and the image they spell. -/
structure Download where
  path : Nat
  slot : Nat
  length : Nat
  got : Nat
  data : List Byte
  deriving DecidableEq, Repr

/-- A boot in progress (R491): the slot chosen and whether it is of a warm firmware reset; and the slot that failed three
times, with the cause, to be reported. -/
structure Boot where
  slot : Nat
  warm : Bool
  fallback : Option (Nat × Nat)
  deriving DecidableEq, Repr

/-- A REPLY to a recovery frame (R499): STATUS, the SEQ it copies, NEXT, and what the REPLY to QUERY holds after them. -/
structure RcvReply where
  status : Nat
  seq : Nat
  next : Nat
  extra : List Byte
  deriving DecidableEq, Repr

structure Fw where
  /-- The images in slots 0 and 1. -/
  slots : List (Option FwImage)
  boot : Option Boot
  download : Option Download
  /-- The group record in flash, and what SVC_GROUP_SET handed to members. -/
  group : Option GroupRecord
  groupOut : List (Nat × GroupRecord)
  /-- Rows of Table 15.3 whose old copies are retained (R494), by bit. -/
  retained : Nat
  /-- Replies to recovery frames. -/
  recoveryOut : List RcvReply
  deriving DecidableEq, Repr

/-- The image in the ACTIVE slot of a device as shipped, with the SVN and VERSION that FW_SLOT0 shows (DESIGN CHOICE). -/
def FwImage.shipped : FwImage :=
  { badCheck := 0, minStepping := 0, svn := 0, version := 0, digest := 0, sinterChanged := false, migrates := 0 }

def Fw.initial : Fw := { slots := [some FwImage.shipped, none], boot := none, download := none, group := none, groupOut := [], retained := 0, recoveryOut := [] }

structure Crt where
  drive : Option Drive
  /-- The identity that was last bound here (R508). -/
  lastBound : Word64
  /-- The last refusal point reported (R504): 0 to 4. -/
  level : Nat
  /-- SVC_CRT_EJECT has stopped the writes. -/
  ejected : Bool
  /-- When RESEEDING began. -/
  reseedAt : Nat
  deriving DecidableEq, Repr

def Crt.initial : Crt := { drive := none, lastBound := 0, level := 0, ejected := false, reseedAt := 0 }
/-! ## The state -/

structure State where
  /-- The commands that wait, first in, first out. -/
  pending : List Instr
  /-- Every register of Table 1.6, by offset in register space; an unlisted one holds its reset value. -/
  regs : Sparse Word64
  /-- Device time in ns (R458). -/
  time : Nat
  /-- The model's own count of free values drawn. -/
  fresh : Nat
  /-- Physical arrays by number. -/
  arrays : Sparse Arr
  parked : List Parked
  /-- Firmware's table of contexts. -/
  contexts : List CtxInfo
  claims : List Claim
  mem : Mem
  cnd : Conduits
  gey : Geysers
  streams : List Stream
  seqs : List SeqNo
  /-- Event records raised so far. -/
  raised : Nat
  /-- Amax tables in force (R82, R314): partition, base and COUNT_M1, as ENABLE found them. -/
  amax : List (Nat × Nat × Nat)
  /-- Partitions whose amax table has been written in its empty form since reset (R314). -/
  amaxEmpty : List Nat
  /-- Partitions stopped by a PARTITION-class error and not reset since (Table 1.10); partition 0 is listed until its plumes and its
  step bank have been aborted (R404). -/
  stopped : List Nat
  rmo : Rmo
  /-- Plumes by slot, and the messages they have sent whose layout the manual does not give. -/
  plm : Sparse Plume
  plmSent : List PlmMsg
  eth : Ether
  host : HostSide
  sec : Sec
  /-- The head's device table (R392): the entries that are not empty. -/
  devTable : List DevEntry
  parts : List PartInfo
  buddies : List BuddyMap
  /-- Step banks by number. -/
  banks : Sparse Bank
  log : Log
  ret : Retire
  acc : RegState
  pow : Power
  dbg : Debug
  i3c : I3c
  fw : Fw
  crt : Crt
  deriving DecidableEq, Repr

/-! ## Reset values of registers -/

/-- A register description covers the register at `off`. -/
def strideHit : List (Nat × Nat) → Nat → Bool
  | [], r => r == 0
  | (st, n) :: t, r => if r / st < n then strideHit t (r % st) else false

def RegDesc.hit (d : RegDesc) (off : Nat) : Bool := decide (d.base ≤ off) && strideHit d.strides (off - d.base)

/-- The description of the register at an offset. -/
def regFind (off : Nat) : Option RegDesc :=
  match regBlocks.find? fun b => decide (b.1 ≤ off) && decide (off < b.2.1) with
  | none => none
  | some b => b.2.2.find? fun d => d.hit off

/-- The value of a register at reset: its fields' reset values (R4). -/
def resetReg (off : Nat) : Word64 :=
  match regFind off with
  | none => 0
  | some d => BitVec.ofNat 64 (d.fields.foldl (fun a f => a + (f.reset off % 2 ^ f.width) * 2 ^ f.lo) 0)

/-- The device right after power-on reset: every register at its reset value, every store empty, every queue empty. -/
def State.reset : State :=
  { pending := []
    regs := []
    time := 0
    fresh := 0
    arrays := []
    parked := []
    contexts := []
    claims := []
    mem := { hbm := [], poison := [], badTag := [], lostSeg := [], copying := [], segLost := [], oc := [], ocPoison := [],
             acc := [], reply := none }
    cnd := { cache := [], holdAll := false, holdExcept := [], waiters := [], owed := [], doomed := [], owned := [] }
    gey := { inflight := [], pending := [], wake := [] }
    streams := []
    seqs := []
    raised := 0
    amax := []
    amaxEmpty := []
    stopped := []
    rmo := { nextId := 0, queued := [], ops := [], inbound := [], late := [], stranded := [], paths := [], closing := [], out := [] }
    plm := []
    plmSent := []
    eth := { vents := [], fwOut := [], toFw := [], sent := [], ptp := none }
    host := HostSide.initial
    sec := Sec.initial
    devTable := []
    parts := []
    buddies := []
    banks := []
    log := Log.initial
    ret := { upsets := [], used := [], list := [], refill := [] }
    acc := RegState.initial
    pow := Power.initial
    dbg := Debug.initial
    i3c := I3c.initial
    fw := Fw.initial
    crt := Crt.initial }

end Sys2Proof.Machine
end

