-- ==== Sys2Proof/Machine/Network.lean ====
section
/-! DEFINITION. The on-die network (R19 to R22): where each clock domain attaches, the one path between two attachment points, and the
words under way.  Its links' buffers and credits have no figures in the manual and only delay a word. -/
namespace Sys2Proof.Machine

/-- The quadrant of a clock domain's units (Tables 1.1 to 1.3). -/
def domainQuadrant (d : Nat) : Nat :=
  if d < 36 then d / 9
  else if d < 48 then (d - 36) / 3
  else if d < 64 then (d - 48) / 4
  else if d < 80 then (d - 64) / 4
  else if 84 ≤ d ∧ d < 92 then d % 4
  else 0

/-- The router, as row and column of the 6 x 6 grid, at which a clock domain attaches: an island at its own; any other unit at a router of
its quadrant that the manual does not name. -/
def domainRouter (d : Nat) : Nat × Nat :=
  let q := domainQuadrant d
  let j := if d < 36 then d % 9 else Config.attachRouter d % 9
  (3 * (q / 2) + j / 3, 3 * (q % 2) + j % 3)

/-- The numbers passed on the way from `a` to `b`, without `a`. -/
def walk (a b : Nat) : List Nat :=
  if a ≤ b then (List.range (b - a)).map fun i => a + i + 1 else (List.range (a - b)).map fun i => a - (i + 1)

/-- The path of R21: first along the row, then along the column. -/
def netPath (src dst : Nat) : List (Nat × Nat) :=
  let a := domainRouter src
  let b := domainRouter dst
  a :: ((walk a.2 b.2).map fun c => (a.1, c)) ++ ((walk a.1 b.1).map fun r => (r, b.2))

/-- The oldest word from one attachment point to another in a class, which R21 has arrive next, and what stays under way. -/
def netTake (src dst : Nat) (cls : NetClass) : List NetWord → Option (NetWord × List NetWord)
  | [] => none
  | x :: t =>
    if x.src = src ∧ x.dst = dst ∧ x.cls = cls then some (x, t)
    else (netTake src dst cls t).map fun r => (r.1, x :: r.2)

/-- An increment of a local geyser on its way from a clock domain to the geyser block.  Its class is a request (DESIGN CHOICE: the manual
sorts no message into the classes). -/
def NetWord.increment (d g : Nat) (amount : Word64) : NetWord := { src := d, dst := 95, cls := .request, gey := g, amount }

end Sys2Proof.Machine
end

