-- ==== Sys2Proof/Machine/Ops.lean ====
section
/-! DEFINITION. The named operations over the state that every meaning shares: register fields, the address maps, HBM
and operand-cache bytes, event records, log records, and increments on their way to the geyser block. -/
namespace Sys2Proof.Machine

/-! ## Registers -/

/-- Register `off` of the state. -/
def State.reg (s : State) (off : Nat) : Word64 := Sparse.get resetReg s.regs off
def State.setReg (s : State) (off : Nat) (v : Word64) : State := { s with regs := Sparse.set resetReg s.regs off v }

/-- The field of a register value. -/
def fieldOf (v : Word64) (lo w : Nat) : Nat := bits v.toNat lo w
/-- A register value with a field replaced. -/
def putField (v : Word64) (lo w x : Nat) : Word64 :=
  (v &&& ~~~ (BitVec.ofNat 64 ((2 ^ w - 1) * 2 ^ lo))) ||| BitVec.ofNat 64 ((x % 2 ^ w) * 2 ^ lo)

def State.getF (s : State) (f : FieldRef) : Nat := fieldOf (s.reg f.reg) f.lo f.width
def State.setF (s : State) (f : FieldRef) (x : Nat) : State := s.setReg f.reg (putField (s.reg f.reg) f.lo f.width x)
/-- Set several fields in order. -/
def State.setFs (s : State) (l : List (FieldRef × Nat)) : State := l.foldl (fun s e => s.setF e.1 e.2) s
/-- Add to a counter field that saturates. -/
def State.incSat (s : State) (f : FieldRef) (n : Nat) : State := s.setF f (min (s.getF f + n) (2 ^ f.width - 1))
/-- Add to a counter field that wraps. -/
def State.incF (s : State) (f : FieldRef) (n : Nat) : State := s.setF f (s.getF f + n)
/-- A one-bit field. -/
def State.flag (s : State) (f : FieldRef) : Bool := s.getF f == 1
/-- Return the registers at offsets `lo ≤ off < hi` to their reset values; the held halves of writes to them are discarded (R8). -/
def State.resetRegs (s : State) (lo hi : Nat) : State :=
  { s with
    regs := Sparse.clear s.regs lo hi
    acc := { s.acc with halves := s.acc.halves.filter fun l => !(decide (lo ≤ l.reg) && decide (l.reg < hi)) } }

/-! ## Free values -/

/-- A value that nothing constrains, and the state that has drawn it. -/
def State.draw (s : State) : Word64 × State := (Config.freeValue s.fresh, { s with fresh := s.fresh + 1 })

/-- `k` bytes that nothing constrains. -/
def State.drawBytes (s : State) (k : Nat) : List Byte × State :=
  ((List.range k).map fun i => (Config.freeValue (s.fresh + i)).setWidth 8, { s with fresh := s.fresh + k })

/-! ## Whether the clocks run (R463, R476, R480) -/

/-- The units of the die run: during start-up once the PLLs have locked to REFCLK and while it is there (R475, R477), and in
RUNNING; not while the device is off, dormant, held or frozen, and not once a unit of the MINIMAL set is lost: it then offers nothing and
answers nowhere (R45). -/
def State.alive (s : State) : Bool := !s.pow.noService && match s.pow.state with
  | .starting => s.pow.locked && s.pow.refclk
  | .running => true
  | _ => false

/-- A step of a unit whose clock a freeze, HOLD, DORMANT or OFF stops: while it is stopped nothing of it happens. -/
def live (s : State) (o : Host.Outcome State Fault Refusal) : Host.Outcome State Fault Refusal := if s.alive then o else .next s

/-- The clock of a domain runs (CLK_GATE_STAT). -/
def State.domainRuns (s : State) (d : Nat) : Bool := bits (s.getF (Fld.CLK_GATE_STAT_RUN (d / 32))) (d % 32) 1 == 1

/-! ## Time (R458) -/

/-- TIME_UNSYNC: the time base is not yet disciplined. -/
def State.unsync (s : State) : Bool := !s.flag Fld.CLK_TIME_STATUS_SYNC

/-! ## Arrays -/

def arrDefault : Nat → Arr := fun _ => Arr.initial
def State.arr (s : State) (n : Nat) : Arr := Sparse.get arrDefault s.arrays n
def State.setArr (s : State) (n : Nat) (a : Arr) : State := { s with arrays := Sparse.set arrDefault s.arrays n a }
def State.modArr (s : State) (n : Nat) (f : Arr → Arr) : State := s.setArr n (f (s.arr n))

/-- ARR_STATUS.STATE codes. -/
def stIdle : Nat := 0
def stRunning : Nat := 1
def stWaiting : Nat := 2
def stStopped : Nat := 3
def stFaulted : Nat := 4
def stSwitching : Nat := 5
def stRetired : Nat := 6

def State.arrState (s : State) (n : Nat) : Nat := s.getF (Fld.ARR_STATUS_STATE n)
def State.setArrState (s : State) (n st : Nat) : State := s.setF (Fld.ARR_STATUS_STATE n) st

/-- The context on an array.  While firmware has mapped none, the array is partition 0's, with the array's number as
the logical array (DESIGN CHOICE, log entry 12). -/
def State.ident (s : State) (n : Nat) : CtxId := (s.arr n).ident.getD ⟨0, n, false⟩

/-! ## Address map (R25 to R29) -/

def gib : Nat := 2 ^ 30
def hbmBytes : Nat := 768 * gib
def ocBase : Nat := 0x010000000000
def ocBytes : Nat := 0x600000
def accDbgBase : Nat := 0x010100000000
def accBytes : Nat := 0xC0000
def regBase : Nat := 0x020000000000
def geySpace : Nat := 0x020003000000

/-- What lies at a local address (Table 1.5): HBM by partition-relative address, an operand-cache window, the
accumulator debug window, register space, or nothing. -/
inductive LocalKind where
  | hbm
  | oc (window off : Nat)
  | acc (window off : Nat)
  | reg (off : Nat)
  | unmapped
  deriving DecidableEq, Repr

def localKind (a : Nat) : LocalKind :=
  if a < hbmBytes then .hbm
  else if ocBase ≤ a ∧ a < ocBase + 144 * ocBytes then .oc ((a - ocBase) / ocBytes) ((a - ocBase) % ocBytes)
  else if accDbgBase ≤ a ∧ a < accDbgBase + 144 * accBytes then
    .acc ((a - accDbgBase) / accBytes) ((a - accDbgBase) % accBytes)
  else if regBase ≤ a ∧ a < regBase + 2 ^ 32 then .reg (a - regBase)
  else .unmapped

def boolDefault : Nat → Bool := fun _ => false

/-- The physical segment that holds partition-relative segment `r` of partition `p` (R26, R398): partition 0 holds
every segment that is neither granted nor withheld, at its own number; a segment that was lost (R211, R212) is mapped by nobody. -/
def State.segPhys (s : State) (p r : Nat) : Option Nat :=
  let cand : Option Nat :=
    if p = 0 then
      if r < 768 ∧ s.getF (Fld.PRT_SEG_OWNER_GRANTED r) = 0 ∧ s.getF (Fld.PRT_SEG_OWNER_WITHHELD r) = 0 then some r else none
    else
      (s.regs.find? fun e =>
        decide (Reg.PRT_SEG_OWNER 0 ≤ e.1) && decide (e.1 < Reg.PRT_SEG_OWNER 768) &&
        fieldOf e.2 31 1 == 1 && fieldOf e.2 16 6 == p && fieldOf e.2 0 10 == r).map fun e =>
          (e.1 - Reg.PRT_SEG_OWNER 0) / 4
  match cand with
  | none => none
  | some t => if Sparse.get boolDefault s.mem.lostSeg t then none else some t

/-- The physical address of a partition-relative HBM address, where one is mapped. -/
def State.hbmPhys (s : State) (p a : Nat) : Option Nat :=
  if a < hbmBytes then (s.segPhys p (a / gib)).map fun t => t * gib + a % gib else none

/-- Every byte of a partition-relative HBM range is mapped. -/
def State.hbmRangeOk (s : State) (p a len : Nat) : Bool :=
  decide (a + len ≤ hbmBytes) &&
  (List.range ((a + len - 1) / gib - a / gib + 1)).all fun i => (s.segPhys p (a / gib + i)).isSome

/-- The bytes of a partition-relative HBM range; a byte that is not mapped reads as zero. -/
def State.hbmRead (s : State) (p a len : Nat) : List Byte :=
  if a % gib + len ≤ gib then
    match s.hbmPhys p a with
    | some pa => readBytes s.mem.hbm pa len
    | none => List.replicate len 0
  else (List.range len).map fun i =>
    match s.hbmPhys p (a + i) with
    | some pa => Sparse.get zeroByte s.mem.hbm pa
    | none => 0

def setBool (m : Sparse Bool) (k : Nat) (b : Bool) : Sparse Bool := Sparse.set boolDefault m k b
def getBool (m : Sparse Bool) (k : Nat) : Bool := Sparse.get boolDefault m k

/-- The lines wholly inside a physical range. -/
def wholeLines (a len : Nat) : List Nat :=
  (List.range (len / 64 + 1)).filterMap fun i =>
    let l := ceilDiv a 64 + i
    if l * 64 + 64 ≤ a + len then some l else none
/-- The lines that a range touches. -/
def touchedLines (a len : Nat) : List Nat :=
  if len = 0 then [] else (List.range ((a + len - 1) / 64 - a / 64 + 1)).map (a / 64 + ·)

/-- Write bytes at a physical HBM address: a write of a whole line clears its poison mark and stores a fresh tag
(R209). -/
def State.hbmWritePhys (s : State) (pa : Nat) (l : List Byte) : State :=
  let w := wholeLines pa l.length
  { s with mem := { s.mem with
      hbm := writeBytes s.mem.hbm pa l
      poison := w.foldl (fun m k => setBool m k false) s.mem.poison
      badTag := w.foldl (fun m k => setBool m k false) s.mem.badTag } }

/-- Write bytes that lie in one segment; what is not mapped is dropped. -/
def State.hbmWriteSeg (s : State) (p a : Nat) (l : List Byte) : State :=
  match s.hbmPhys p a with
  | some pa => s.hbmWritePhys pa l
  | none => s

/-- The parts of a range in the segments that it meets. -/
def segParts (a len : Nat) : List (Nat × Nat) :=
  (List.range ((a + len - 1) / gib - a / gib + 1)).map fun i =>
    let lo := max a ((a / gib + i) * gib)
    (lo, min (a + len) ((a / gib + i + 1) * gib) - lo)

/-- Write a partition-relative HBM range; bytes that are not mapped are dropped. -/
def State.hbmWrite (s : State) (p a : Nat) (l : List Byte) : State :=
  if a % gib + l.length ≤ gib then s.hbmWriteSeg p a l
  else (segParts a l.length).foldl (fun s x => s.hbmWriteSeg p x.1 ((l.drop (x.1 - a)).take x.2)) s

/-- Whether a line of a partition-relative range is poisoned. -/
def State.hbmPoisoned (s : State) (p a len : Nat) : Bool :=
  (touchedLines a len).any fun l => match s.hbmPhys p (l * 64) with
    | some pa => getBool s.mem.poison (pa / 64)
    | none => false
/-- Whether the integrity tag of a line of a partition-relative range fails (R441). -/
def State.hbmBadTag (s : State) (p a len : Nat) : Bool :=
  (touchedLines a len).any fun l => match s.hbmPhys p (l * 64) with
    | some pa => getBool s.mem.badTag (pa / 64)
    | none => false
def State.hbmSetPoison (s : State) (p a : Nat) (b : Bool) : State :=
  match s.hbmPhys p a with
  | some pa => { s with mem := { s.mem with poison := setBool s.mem.poison (pa / 64) b } }
  | none => s

/-! ## Lifecycle (R426) and sealed partitions (R424, R425, Table 13.2) -/

def State.lifecycle (s : State) : Nat := s.getF Fld.SEC_LIFECYCLE_STATE
def lcManufacturing : Nat := 0
def lcProvisioned : Nat := 1
def lcOwned : Nat := 2
def lcReturned : Nat := 3
def lcDecommissioned : Nat := 4
def State.isOwned (s : State) : Bool := s.lifecycle == lcOwned

def State.isSealed (s : State) (p : Nat) : Bool := fieldOf (s.reg Reg.SEC_SEAL0) p 1 == 1
def State.policy (s : State) (p : Nat) : Option Policy := s.sec.policies.find? fun x => x.part == p
/-- A partition-relative HBM range meets a sealed partition's text segments, which nothing may write. -/
def State.textHit (s : State) (p a len : Nat) : Bool :=
  s.isSealed p && match s.policy p with
    | some x => decide (a < (x.textFirst + x.textCount) * gib) && decide (x.textFirst * gib < a + len)
    | none => false

/-! ## Operand caches (R215, R216) -/

def ocLines : Nat := 98304

/-- OC_FIRST and OC_SIZE of the context on an array, in bytes. -/
def State.ocFirst (s : State) (n : Nat) : Nat := s.getF (Fld.ARR_OC_CFG_FIRST n) * 65536
def State.ocSize (s : State) (n : Nat) : Nat := s.getF (Fld.ARR_OC_CFG_UNITS n) * 65536

def State.ocRead (s : State) (n off len : Nat) : List Byte := readBytes s.mem.oc (n * ocBytes + off) len
/-- Write bytes at a physical operand-cache offset; a write of a whole line clears its mark (R201). -/
def State.ocWrite (s : State) (n off : Nat) (l : List Byte) : State :=
  { s with mem := { s.mem with
      oc := writeBytes s.mem.oc (n * ocBytes + off) l
      ocPoison := (wholeLines off l.length).foldl (fun m k => setBool m (n * ocLines + k) false) s.mem.ocPoison } }
def State.ocPoisoned (s : State) (n off len : Nat) : Option Nat :=
  (touchedLines off len).find? fun k => getBool s.mem.ocPoison (n * ocLines + k)

/-- Bytes of HBM that a partition has read or written (PRT_USE_HBM, R409). -/
def State.hbmUse (s : State) (p n : Nat) : State := if p < 64 then s.incF (Fld.PRT_USE_HBM_COUNT p) n else s

/-! ## Events (R33 to R38) -/

/-- Source identifiers (R33). -/
def srcArray (n : Nat) : Nat := (n / 4) * 256 + n % 4
def srcDomain (d : Nat) : Nat := d * 256
def srcGeyser : Nat := 95 * 256
def srcSinter : Nat := 93 * 256
def srcFumarole : Nat := 92 * 256 + 0xFF
def srcConduit (q : Nat) : Nat := (84 + q) * 256
def srcPlume (q : Nat) : Nat := (88 + q) * 256
def srcLogger : Nat := 96 * 256
def srcTime : Nat := 98 * 256
def srcPower : Nat := 99 * 256
def srcFreeze : Nat := 97 * 256
def srcPcie : Nat := 81 * 256
def srcNvme : Nat := 83 * 256

/-- Add a record to a stream: a second event of the undelivered record's CODE and ADDRESS is counted in it (R37). -/
def Stream.add (st : Stream) (r : EvtRec) : Stream :=
  match st.queue with
  | h :: t =>
    if h.code = r.code ∧ h.addr = r.addr then { st with queue := { h with count := h.count + 1, flags := h.flags ||| 2 } :: t }
    else { st with queue := h :: t ++ [r] }
  | [] => { st with queue := [r] }

def Stream.sameKey (source : Nat) (dest : EvtDest) (st : Stream) : Bool := decide (st.source = source) && decide (st.dest = dest)

/-- Add a record to the stream of its source and destination, which comes into being with its first record. -/
def addRecord (l : List Stream) (dest : EvtDest) (r : EvtRec) : List Stream :=
  if l.any (Stream.sameKey r.source dest) then
    l.map fun st => if Stream.sameKey r.source dest st then st.add r else st
  else l ++ [{ source := r.source, dest := dest, queue := [r], lost := 0 }]

/-- The stream of a source to a destination. -/
def State.stream (s : State) (source : Nat) (dest : EvtDest) : Option Stream :=
  s.streams.find? (Stream.sameKey source dest)

/-- Classes of Table 1.10. -/
def clsInfo : Nat := 0
def clsCorrected : Nat := 1
def clsRetired : Nat := 2
def clsOperation : Nat := 3
def clsPartition : Nat := 4
def clsDevice : Nat := 5

/-- Partition value of a record about the device as a whole (Table 1.8). -/
def wholeDevice : Nat := 0xFF

/-- The stream for partition 0's records and its copies of other partitions' records: records of one source to one conduit
are one stream (R36), so it is the device-wide one where TOP_EVT_DEST names partition 0's event conduit. -/
def State.zeroDest (s : State) : EvtDest :=
  if s.flag Fld.TOP_EVT_DEST_ENABLE ∧ s.flag (Fld.PRT_EVT_VALID 0) ∧ s.getF Fld.TOP_EVT_DEST_CONDUIT = s.getF (Fld.PRT_EVT_CONDUIT 0)
  then .device else .part 0

/-- Partition 0's copy of a record about another partition, whose DETAIL and ADDRESS are withheld while that partition is sealed (R35,
Table 13.2). -/
def State.zeroCopy (s : State) (r : EvtRec) : EvtRec :=
  if s.isSealed r.part then { r with flags := r.flags ||| 4, addr := 0, detail := List.replicate 8 0 } else r

/-- Raise an event (R34, R35): the record about one partition goes to that partition's stream, with a copy for
partition 0; a record about the device goes to the device-wide stream.  A gated domain raises none (R40), nor does a frozen or held
device (R485). -/
def State.raise (s : State) (source part cls code : Nat) (addr : Word64) (detail : List Word32) : State :=
  let r : EvtRec := { ord := s.raised, time := s.time, source, part, cls, code, flags := if s.unsync then 1 else 0, count := 1, addr,
                      detail := (detail ++ List.replicate 8 0).take 8 }
  if !s.domainRuns (source / 256) || s.pow.state == .frozen || s.pow.state == .hold then s
  else if part = wholeDevice then { s with streams := addRecord s.streams .device r, raised := s.raised + 1 }
  else if part = 0 then { s with streams := addRecord s.streams s.zeroDest r, raised := s.raised + 1 }
  else { s with streams := addRecord (addRecord s.streams (.part part) r) s.zeroDest (s.zeroCopy r), raised := s.raised + 1 }

/-- Two 32-bit words of a 64-bit value, low first. -/
def w2 (v : Word64) : List Word32 := [v.setWidth 32, (v >>> 32).setWidth 32]
def w (n : Nat) : Word32 := BitVec.ofNat 32 n
def dw (n : Nat) : Word64 := BitVec.ofNat 64 n

/-! ## The address that an event concerns (Table 1.8, R31) -/

/-- The fabric address of a local address of partition `p` of this device. -/
def State.fabOf (s : State) (p a : Nat) : Word64 := dw (s.getF Fld.TOP_DEVNUM_DEVNUM * 2 ^ 56 + p % 64 * 2 ^ 50 + a)
/-- The line of a physical HBM address, as the partition that holds its segment names it; zero in withheld memory. -/
def State.fabPhys (s : State) (pa : Nat) : Word64 :=
  let t := pa / gib
  if s.flag (Fld.PRT_SEG_OWNER_GRANTED t) then
    s.fabOf (s.getF (Fld.PRT_SEG_OWNER_PART t)) (s.getF (Fld.PRT_SEG_OWNER_RSEG t) * gib + pa % gib / 64 * 64)
  else if s.flag (Fld.PRT_SEG_OWNER_WITHHELD t) then 0
  else s.fabOf 0 (pa / 64 * 64)
/-- Byte `o` of an array's operand cache in the window of the context on it (R28). -/
def State.fabOc (s : State) (n o : Nat) : Word64 :=
  let id := s.ident n
  if id.part = 0 then s.fabOf 0 (ocBase + n * ocBytes + o) else s.fabOf id.part (ocBase + id.larray * ocBytes + (o - s.ocFirst n))
/-- A line of an array's accumulator memory in the debug window of a context (R28). -/
def State.fabAcc (s : State) (id : CtxId) (n line : Nat) : Word64 :=
  s.fabOf id.part (accDbgBase + (if id.part = 0 then n else id.larray) * accBytes + line * 128)

/-! ## Firmware slots -/

/-- States of FW_SLOT. -/
def slEmpty : Nat := 0
def slWriting : Nat := 1
def slValid : Nat := 2
def slPending : Nat := 3
def slActive : Nat := 4
def slFailed : Nat := 5

def slotReg (i : Nat) : Nat := if i = 0 then Reg.FW_SLOT0 else Reg.FW_SLOT1
def State.slotState (s : State) (i : Nat) : Nat := fieldOf (s.reg (slotReg i)) 61 3
def State.slotTries (s : State) (i : Nat) : Nat := fieldOf (s.reg (slotReg i)) 58 3
def State.setFwSlot (s : State) (i st tries : Nat) : State := s.setFs [(⟨slotReg i, 61, 3⟩, st), (⟨slotReg i, 58, 3⟩, tries)]
def State.slotImage (s : State) (i : Nat) : Option FwImage := (s.fw.slots[i]?).getD none

/-! ## Units of the log and of the geyser block that other units feed -/

/-- Hand a record to the tephra logger (R325), with the TAG that it carries where that is not the one of an attempt still open: it waits
until the logger accepts it. -/
def State.logTagged (s : State) (type part source : Nat) (tag : Option Nat) (body : List Byte) : State :=
  { s with log := { s.log with waiting := s.log.waiting ++ [{ type, part, source, body, tag, need := 0 }] } }
def State.logRecord (s : State) (type part source : Nat) (body : List Byte) : State := s.logTagged type part source none body

/-- Release an increment of a local geyser from a clock domain; the geyser block applies it when it reaches it (R228). -/
def State.geyRelease (s : State) (d g : Nat) (amount : Word64) : State :=
  { s with gey := { s.gey with inflight := s.gey.inflight ++ [NetWord.increment d g amount] } }

/-- The partition whose geyser grant contains a geyser, or partition 0 (R227). -/
def State.geyOwner (s : State) (g : Nat) : Nat :=
  ((List.range 64).find? fun p => decide (p ≠ 0) &&
    decide (s.getF (Fld.PRT_GEY_BASE p) ≤ g) && decide (g < s.getF (Fld.PRT_GEY_BASE p) + s.getF (Fld.PRT_GEY_COUNT p))).getD 0

/-! ## Numeric status (R77 to R80) -/

/-- The lowest-numbered flag of a non-empty set. -/
def lowestFlag (f : Word32) : Nat := ((List.range 11).find? fun i => f.getLsbD i).getD 0

/-- Set flags in a partition's bank: NUM_FIRST captures the first, and an enabled flag that rises raises NUMERIC_FLAG.
`larray` is `none` when no array issued the operation. -/
def State.numFlags (s : State) (source p : Nat) (larray : Option Nat) (kind time : Nat) (f : Word32) : State :=
  if f = 0 then s
  else
    let old := BitVec.ofNat 32 (s.getF (Fld.NUM_FLAGS_FLAGS p))
    let rose := f &&& ~~~ old
    let s1 := s.setF (Fld.NUM_FLAGS_FLAGS p) (old ||| f).toNat
    let s2 := if s1.flag (Fld.NUM_FIRST_VALID p) then s1
      else s1.setFs [(Fld.NUM_FIRST_VALID p, 1), (Fld.NUM_FIRST_FLAG p, lowestFlag f),
        (Fld.NUM_FIRST_LARRAY p, if kind = 3 ∨ kind = 4 then 0 else larray.getD 0),
        (Fld.NUM_FIRST_SOURCE_KIND p, kind), (Fld.NUM_FIRST_TIME p, time)]
    if rose &&& BitVec.ofNat 32 (s2.getF (Fld.NUM_EVT_MASK_MASK p)) = 0 then s2
    else s2.raise source p clsInfo 0x1001 0 [rose, match larray with | some l => w l | none => 0xFFFFFFFF#32, w kind]

end Sys2Proof.Machine
end

