-- ==== Sys2Proof/Machine/Queues.lean ====
section
/-! DEFINITION. Conduits: the table, the engines' caches, posting and taking, and the ledger check (R218 to R226,
R237).  What a post or a take does to a waiting array stands with the arrays, in `ArrayOps`. -/
namespace Sys2Proof.Machine

/-- The descriptor that 64 bytes spell (Table 6.2). -/
def Cnd.ofBytes (l : List Byte) : Cnd :=
  let f (o n : Nat) : Nat := ofLe ((l.drop o).take n)
  { ring := f 0 8 / 4096 % 2 ^ 36 * 4096, valid := bits (f 8 1) 0 1 == 1, kind := bits (f 8 1) 1 2, home := bits (f 8 1) 3 2,
    log2depth := f 9 1, owner := f 10 1, cls := bits (f 11 1) 0 2, notifyEn := bits (f 11 1) 7 1 == 1,
    notify := f 12 2, prod := f 16 4, cons := f 20 4, granted := f 24 4, dropped := f 28 4, posted := f 32 8,
    taken := f 40 8 }

/-- The 64 bytes of a descriptor (Table 6.2). -/
def Cnd.toBytes (c : Cnd) : List Byte :=
  toLe 8 c.ring ++ toLe 1 ((if c.valid then 1 else 0) + c.kind * 2 + c.home * 8) ++ toLe 1 c.log2depth ++ toLe 1 c.owner ++
  toLe 1 (c.cls + if c.notifyEn then 128 else 0) ++ toLe 4 c.notify ++ toLe 4 c.prod ++ toLe 4 c.cons ++ toLe 4 c.granted ++
  toLe 4 c.dropped ++ toLe 8 c.posted ++ toLe 8 c.taken ++ toLe 2 1 ++ List.replicate 14 0

def Cnd.depth (c : Cnd) : Nat := 2 ^ c.log2depth
def Cnd.occupied (c : Cnd) : Nat := (c.prod + 2 ^ 32 - c.cons) % 2 ^ 32
/-- FREE (R221). -/
def Cnd.free (c : Cnd) : Nat := c.depth - c.granted - c.occupied
/-- The ledger: the parts do not exceed the whole (R237). -/
def Cnd.ledgerOk (c : Cnd) : Bool := decide (c.granted + c.occupied ≤ c.depth)

def conduitCount : Nat := 1048576

/-- Address of a descriptor in the conduit table (R218). -/
def State.cndAddr (s : State) (c : Nat) : Nat := s.getF Fld.CND_TABLE_BASE_BASE * 2 ^ 26 + c * 64

/-- A conduit's live context: the cached one, or else the table's (R224).  Before the table is enabled every conduit
is not valid. -/
def State.cndGet (s : State) (c : Nat) : Cnd :=
  match s.cnd.cache.find? fun e => e.1 == c with
  | some e => e.2
  | none =>
    if s.flag Fld.CND_TABLE_BASE_ENABLE ∧ c < conduitCount then Cnd.ofBytes (readBytes s.mem.hbm (s.cndAddr c) 64)
    else Cnd.ofBytes []

def State.cndCached (s : State) (c : Nat) : Bool := s.cnd.cache.any fun e => e.1 == c

/-- Write a context back to the table. -/
def State.cndWriteTable (s : State) (c : Nat) (x : Cnd) : State := s.hbmWritePhys (s.cndAddr c) x.toBytes

/-- The number of contexts that engine `q` caches. -/
def cachedIn (l : List (Nat × Cnd)) (q : Nat) : Nat := (l.filter fun e => e.2.home == q).length

/-- Drop a context from its engine's cache. -/
def State.cndUncache (s : State) (c : Nat) : State :=
  let q := (s.cndGet c).home
  let l := s.cnd.cache.filter fun e => e.1 != c
  ({ s with cnd := { s.cnd with cache := l } }).setF (Fld.CND_ENG_CACHED_COUNT q) (cachedIn l q)

/-- Bring a context into its engine's cache, the most recently used last; a full engine first writes back its least
recently used context, and a load counts a miss (R224).  A descriptor that is not VALID is not kept (DESIGN CHOICE). -/
def State.cndTouch (s : State) (c : Nat) : State :=
  let x := s.cndGet c
  if !x.valid then s
  else if s.cndCached c then
    { s with cnd := { s.cnd with cache := (s.cnd.cache.filter fun e => e.1 != c) ++ [(c, x)] } }
  else
    let s1 := if cachedIn s.cnd.cache x.home < 4096 then s
      else match s.cnd.cache.find? fun e => e.2.home == x.home with
        | some e => (s.cndWriteTable e.1 e.2).cndUncache e.1
        | none => s
    let l := s1.cnd.cache ++ [(c, x)]
    (({ s1 with cnd := { s1.cnd with cache := l } }).setF (Fld.CND_ENG_CACHED_COUNT x.home) (cachedIn l x.home)).incSat
      (Fld.CND_ENG_MISS_COUNT x.home) 1

/-- Store a live context. -/
def State.cndPut (s : State) (c : Nat) (x : Cnd) : State :=
  let s1 := if s.cndCached c then s else s.cndTouch c
  { s1 with cnd := { s1.cnd with cache := s1.cnd.cache.map fun e => if e.1 = c then (c, x) else e } }

/-- A conduit is held (R225). -/
def State.cndOnHold (s : State) (c : Nat) : Bool := s.cnd.holdAll != s.cnd.holdExcept.contains c
/-- A conduit is held, or stopped with its owner by a PARTITION-class error (Table 1.10).  A stopped partition's event conduit goes on
(DEDUCED: R43 has the record of the error itself posted, and it goes to that conduit, R35), and partition 0's conduits do (R404). -/
def State.cndHeld (s : State) (c : Nat) : Bool :=
  s.cndOnHold c || (let x := s.cndGet c; x.kind != 3 && x.owner != 0 && s.stopped.contains x.owner)

/-- The conduit is valid, of the kind and owned by the partition. -/
def State.cndIs (s : State) (c p kind : Nat) : Bool :=
  let x := s.cndGet c
  x.valid && x.kind == kind && x.owner == p

/-- One more use of the conduit engine by a partition (PRT_USE_CND). -/
def State.cndUse (s : State) (p : Nat) : State := s.incF (Fld.PRT_USE_CND_COUNT p) 1

/-- The ring slot of entry `n`: its partition-relative address (R219). -/
def Cnd.slot (x : Cnd) (n : Nat) : Nat := x.ring + (n % x.depth) * 64

/-- Take a credit from FREE into GRANTED (R221). -/
def State.cndGrant (s : State) (c : Nat) : State :=
  let x := s.cndGet c
  s.cndPut c { x with granted := x.granted + 1 }
/-- Return a granted credit to FREE; on a held conduit the return waits for the end of the hold (R225). -/
def State.cndUngrant (s : State) (c : Nat) : State :=
  if s.cndOnHold c then { s with cnd := { s.cnd with owed := s.cnd.owed ++ [(c, 0)] } }
  else
    let x := s.cndGet c
    s.cndPut c { x with granted := x.granted - 1 }
/-- Count discarded entries in DROPPED; on a held conduit the count waits for the end of the hold (R222, R225). -/
def State.cndDrop (s : State) (c k : Nat) : State :=
  if s.cndOnHold c then { s with cnd := { s.cnd with owed := s.cnd.owed ++ [(c, k)] } }
  else
    let x := s.cndGet c
    s.cndPut c { x with dropped := min (x.dropped + k) (2 ^ 32 - 1) }

/-- Write an entry to the slot of PROD, then advance PROD and move the granted credit to OCCUPIED; then the NOTIFY
geyser (R221, R223, Table 6.2). -/
def State.cndPost (s : State) (c : Nat) (entry : List Byte) : State :=
  let x := s.cndGet c
  let s1 := s.hbmWrite x.owner (x.slot x.prod) (padTo 64 entry)
  let s2 := s1.cndPut c { x with prod := (x.prod + 1) % 2 ^ 32, granted := x.granted - 1, posted := x.posted + 1 }
  let s3 := s2.cndUse x.owner
  if x.notifyEn then s3.geyRelease (84 + x.home) x.notify 1 else s3

/-- The entry at CONS, and whether its line is poisoned (R208). -/
def State.cndHead (s : State) (c : Nat) : List Byte :=
  let x := s.cndGet c
  s.hbmRead x.owner (x.slot x.cons) 64
def State.cndHeadPoison (s : State) (c : Nat) : Bool :=
  let x := s.cndGet c
  s.hbmPoisoned x.owner (x.slot x.cons) 64

/-- Advance CONS and return the credit to FREE (R222). -/
def State.cndPop (s : State) (c : Nat) : State :=
  let x := s.cndGet c
  (s.cndPut c { x with cons := (x.cons + 1) % 2 ^ 32, taken := x.taken + 1 }).cndUse x.owner

/-! ## Stopping a partition (Table 1.10, R41, R404) -/

/-- While an array is SWITCHING, a STOP finds its outgoing context at a group boundary: it is saved STOPPED, and ARRAY_STOPPED is posted
(R123, R130). -/
def State.stopOutgoing (s : State) (n : Nat) : State :=
  let id := s.ident n
  if (s.arr n).was = stRunning then
    ((s.setF (Fld.ARR_STATUS_REASON n) 2).modArr n fun a => { a with was := stStopped }).raise (srcArray n) id.part clsInfo 0x2003 0
      [w id.larray, 2, 0]
  else s

/-- Ask the contexts of a partition on an array to stop at a group boundary: the one on it, and one that is coming onto it. -/
def State.askStop (s : State) (p n : Nat) : State :=
  let a := s.arr n
  let st := s.arrState n
  let mine := (s.ident n).part == p
  if st = stSwitching then
    let s1 := if mine then s.stopOutgoing n else s
    if a.switchReq.any fun i => i.part == p then s1.modArr n fun a => { a with stopBit := true } else s1
  else if mine && (st == stRunning || st == stWaiting) then s.modArr n fun a => { a with stopBit := true }
  else s

/-- A partition's state can no longer be trusted (Table 1.10): its arrays are asked to stop at a group boundary, and its conduits and
remote operations stop with it.  Partition 0 loses less (R404): what else stops of it follows in `State.settleStops`. -/
def State.partitionStop (s : State) (p : Nat) : State :=
  let s1 := (List.range 144).foldl (fun s n => s.askStop p n) s
  if s.stopped.contains p then s1 else { s1 with stopped := s1.stopped ++ [p] }

/-- The pseudo-channel of a physical HBM address (R205). -/
def pseudoChannel (pa : Nat) : Nat := bits pa 8 6 ^^^ bits pa 20 6
/-- The pseudo-channel that holds an address: where its own has retired, one of the survivors (R210); which one is not given, and the
model takes the survivor of the segment's number, so that each survivor receives one segment's share (DESIGN CHOICE). -/
def State.pcOf (s : State) (pa : Nat) : Nat :=
  let map := s.getF (Fld.HBM_PC_MAP_IN_SERVICE (pa / 2 ^ 36))
  if bits map (pseudoChannel pa) 1 = 1 then pseudoChannel pa
  else ((List.range 64).filter fun i => bits map i 1 == 1).getD (pa / 2 ^ 30 % 64) (pseudoChannel pa)
/-- The event source of the controller of a physical address (R33). -/
def State.srcHbm (s : State) (pa : Nat) : Nat := (36 + pa / 2 ^ 36) * 256 + s.pcOf pa

/-- MEM_INTEGRITY (R441): the failure is counted, reported with the stack and the offset, and stops the partition. -/
def State.memIntegrity (s : State) (p pa : Nat) : State :=
  let s1 := if s.getF Fld.SEC_INTEGRITY_COUNT = 0 then s.setF Fld.SEC_INTEGRITY_FIRST_PART p else s
  let s2 := s1.incSat Fld.SEC_INTEGRITY_COUNT 1
  (s2.raise (s.srcHbm pa) p clsPartition 0xA005 (s.fabPhys pa) ([w (pa / 2 ^ 36), 0] ++ w2 (dw (pa % 2 ^ 36)) ++ [w p])).partitionStop p

/-- An operation reaches a conduit's engine: unless it waits for a hold, the engine loads the context (R224) and checks its ledger
(R237).  A failure stops the owner's use of the conduit; one of partition 0's is then destroyed (R404). -/
def State.cndCheck (s : State) (c : Nat) : State × Bool :=
  if s.cndOnHold c then (s, true)
  else
    let s := s.cndTouch c
    let x := s.cndGet c
    if !x.valid || x.ledgerOk then (s, true)
    else
      let s1 := (s.raise (srcConduit x.home) x.owner clsPartition 0x3006 0
        [w c, w x.depth, w (x.depth - x.granted - x.occupied), w x.granted, w x.occupied]).cndPut c { x with valid := false }
      let s2 := if x.owner = 0 then { s1 with cnd := { s1.cnd with doomed := s1.cnd.doomed ++ [c] } } else s1
      (s2.partitionStop x.owner, false)

/-- Post with a credit taken just before (event sources, geyser actions, bank commands): `none` when the conduit has
no free credit or is held. -/
def State.cndTryPost (s : State) (c : Nat) (entry : List Byte) : Option State :=
  if s.cndHeld c then none
  else if (s.cndGet c).free = 0 then none
  else some ((s.cndGrant c).cndPost c entry)

/-- Settle what waited at the engine for the end of a hold, against the descriptor as the table holds it then (R225). -/
def State.settleOwed (s : State) : State :=
  let due := s.cnd.owed.filter fun e => !s.cndOnHold e.1
  due.foldl (fun s e => if e.2 = 0 then s.cndUngrant e.1 else s.cndDrop e.1 e.2)
    { s with cnd := { s.cnd with owed := s.cnd.owed.filter fun e => s.cndOnHold e.1 } }

end Sys2Proof.Machine
end

