-- ==== Sys2Proof/Machine/MemAccess.lean ====
section
/-! DEFINITION. What an HBM controller does to one element or line on behalf of an add-on-write or an atomic (R76,
R208, R213, R243, R532). -/
namespace Sys2Proof.Machine
open Sys2Proof.Num

/-- Add in a format of R76: rounded once to nearest even, or an INT32 addition that wraps and sets OVERFLOW. -/
def addElem (code x y : Nat) : Nat × Flags :=
  match floatFmt code with
  | some F =>
    let (v, f1) := addVal (decodeF F x) (decodeF F y)
    let (r, f2) := rne F v
    (r, f1 ||| f2 ||| nonfinite [decodeF F x, decodeF F y])
  | none =>
    let i := signed 32 x + signed 32 y
    (unsigned 32 i, if i < -(2 ^ 31) ∨ (2 ^ 31 - 1 : Int) < i then Flag.overflow else 0)

/-- Minimum and maximum of R76. -/
def minMaxElem (max : Bool) (code x y : Nat) : Nat × Flags :=
  match floatFmt code with
  | some F =>
    let a := decodeF F x
    let b := decodeF F y
    let (r, _) := rne F (if max then maxVal a b else minVal a b)
    (r, nonfinite [a, b])
  | none =>
    let lt := decide (signed 32 x < signed 32 y)
    (if lt != max then x else y, 0)

/-- The elements of `wb` bytes that a list of bytes spells. -/
def toElems (wb : Nat) : Nat → List Byte → List Nat
  | 0, _ => []
  | k + 1, l => ofLe (l.take wb) :: toElems wb k (l.drop wb)

/-- Status of a read-modify-write of a line: performed, poisoned, or its tag failed (Table 7.5). -/
inductive RmwStatus where
  | ok | poisoned | integrity
  deriving DecidableEq, Repr

/-- What bars a read-modify-write of a partition-relative range (R208, R532). -/
def State.rmwStatus (s : State) (p a len : Nat) : RmwStatus :=
  if s.hbmPoisoned p a len then .poisoned else if s.hbmBadTag p a len then .integrity else .ok

/-- The partition-relative line's MEM_INTEGRITY (R441). -/
def State.integrityAt (s : State) (p a : Nat) : State :=
  match s.hbmPhys p (a / 64 * 64) with
  | some pa => s.memIntegrity p pa
  | none => s

/-- One line of an add-on-write (R213): `code` is the format and `data` the values' bytes; it lies in one line.  The
flags go to the partition that issued it. -/
def State.addOnWrite (s : State) (p a code : Nat) (data : List Byte) : State × RmwStatus × Flags :=
  match s.rmwStatus p a data.length with
  | .poisoned => (s, .poisoned, 0)
  | .integrity => (s.integrityAt p a, .integrity, 0)
  | .ok =>
    let wb := fmtWidth code / 8
    let k := data.length / wb
    let rs := (List.zip (toElems wb k (s.hbmRead p a data.length)) (toElems wb k data)).map fun e => addElem code e.1 e.2
    let s1 := s.hbmWrite p a (rs.flatMap fun r => toLe wb r.1)
    let s2 := match s.hbmPhys p a with
      | some pa => s1.incF (Fld.HBM_AOW_LINES (pa / 2 ^ 36)) 1
      | none => s1
    (s2, .ok, rs.foldl (fun f r => f ||| r.2) 0)

end Sys2Proof.Machine
end

