-- ==== Sys2Proof/Machine/Accumulator.lean ====
section
/-! DEFINITION. Accumulator memory: where slots and entries lie, and opening, closing and poisoning groups (R139 to
R145, R159). -/
namespace Sys2Proof.Machine
open Sys2Proof.Num

/-- Rows and columns of a tile shape (Table 4.1). -/
def shapeRows (shape : Nat) : Nat := if shape = 2 then 128 else 64
def shapeCols (shape : Nat) : Nat := if shape = 1 then 128 else 64

/-- Bytes per stored element (Table 4.3). -/
def storeBytes (store : Nat) : Nat := if store = 0 then 6 else 4
/-- Rows and columns of a group's unit: a slot, or an entry of one row. -/
def unitRows (idx shape : Nat) : Nat := if idx = 1 then 1 else shapeRows shape
def unitCols (idx shape : Nat) : Nat := if idx = 1 then 64 else shapeCols shape
/-- Lines of a slot or entry (Table 4.3). -/
def unitLines (idx shape store : Nat) : Nat := unitRows idx shape * unitCols idx shape * storeBytes store / 128

def AccGroup.rows (g : AccGroup) : Nat := unitRows g.idx g.shape
def AccGroup.cols (g : AccGroup) : Nat := unitCols g.idx g.shape
def AccGroup.lines (g : AccGroup) : Nat := unitLines g.idx g.shape g.store
/-- The physical lines that an open or poisoned group holds: the first and how many. -/
def AccGroup.span (g : AccGroup) : Nat × Nat :=
  if g.state = 0 then (0, 0) else (g.res + g.first * g.lines, g.count * g.lines)
/-- Physical byte of row `r` of a unit, within the array's accumulator memory (R141). -/
def AccGroup.rowAt (g : AccGroup) (unit r : Nat) : Nat :=
  (g.res + unit * g.lines) * 128 + r * g.cols * storeBytes g.store
/-- Group `g` names unit `u`. -/
def AccGroup.holds (g : AccGroup) (u : Nat) : Bool := decide (g.first ≤ u) && decide (u < g.first + g.count)

def State.accGroup (s : State) (n g : Nat) : AccGroup := (s.arr n).acc.getD g AccGroup.closed
def State.setAccGroup (s : State) (n g : Nat) (x : AccGroup) : State := s.modArr n fun a => { a with acc := a.acc.set g x }

/-- Stored element codes of a row, from physical byte `o`. -/
def State.accRow (s : State) (n o store cols : Nat) : List Nat :=
  toElems (storeBytes store) cols (readBytes s.mem.acc (n * accBytes + o) (cols * storeBytes store))
def State.setAccRow (s : State) (n o store : Nat) (l : List Nat) : State :=
  { s with mem := { s.mem with acc := writeBytes s.mem.acc (n * accBytes + o) (l.flatMap fun x => toLe (storeBytes store) x) } }
/-- Mark lines zero (R144, R145). -/
def State.zeroLines (s : State) (n first count : Nat) : State :=
  { s with mem := { s.mem with
      acc := Sparse.clear s.mem.acc (n * accBytes + first * 128) (n * accBytes + (first + count) * 128) } }

/-- The units that an operation in flight names. -/
def MmaFlight.units (m : MmaFlight) : List Nat := (List.range m.count).map (m.first + ·)
def Drain.units (d : Drain) : List Nat := (List.range d.count).map (d.first + ·)

/-- Lines held by groups of contexts that are not on the array. -/
def State.heldOther (s : State) (n : Nat) : Nat :=
  ((s.parked.filter fun k => k.phys == n).flatMap Parked.acc).foldl (fun a g => a + g.span.2) 0

/-- Bring ARR_ACC_STATUS, ARR_ACC_LINES and the ARR_ACC_GRP registers up to date. -/
def State.accSync (s : State) (n : Nat) : State :=
  let a := s.arr n
  let mask (st : Nat) : Nat := a.acc.zipIdx.foldl (fun m e => if e.1.state = st then m + 2 ^ e.2 else m) 0
  let own := a.acc.foldl (fun x g => x + g.span.2) 0
  let s1 := s.setFs [(Fld.ARR_ACC_STATUS_OPEN n, mask 1), (Fld.ARR_ACC_STATUS_POISONED n, mask 2),
    (Fld.ARR_ACC_STATUS_DRAINQ n, a.drains.length), (Fld.ARR_ACC_STATUS_MMA_BUSY n, if a.mma.isEmpty then 0 else 1),
    (Fld.ARR_ACC_LINES_HELD_OTHER n, s.heldOther n), (Fld.ARR_ACC_LINES_FREE n, 6144 - own - s.heldOther n)]
  a.acc.zipIdx.foldl (fun s e =>
    let g := e.1
    let i := e.2
    let busy := (a.mma.any fun m => m.grp == i) || (a.drains.any fun d => d.grp == i)
    s.setFs [(Fld.ARR_ACC_GRP_COUNT n i, g.count), (Fld.ARR_ACC_GRP_FIRST n i, g.first),
      (Fld.ARR_ACC_GRP_BUSY n i, if busy then 1 else 0), (Fld.ARR_ACC_GRP_IDX n i, g.idx),
      (Fld.ARR_ACC_GRP_STORE n i, g.store), (Fld.ARR_ACC_GRP_SHAPE n i, g.shape), (Fld.ARR_ACC_GRP_STATE n i, g.state)]) s1

/-- A group becomes POISONED (Table 4.8): cause 1 an uncorrectable line, 2 a poisoned operand, 3 a failed
recomputation. -/
def State.poisonGroup (s : State) (n g cause detail : Nat) : State :=
  let id := s.ident n
  if (s.accGroup n g).state = 2 then s
  else
    ((s.setAccGroup n g { s.accGroup n g with state := 2 }).accSync n).raise (srcArray n) id.part clsInfo 0x2006
      (if cause = 1 then s.fabAcc id n detail else 0) [w id.larray, w g, w cause, w detail]

/-- Close a group: its lines are marked zero and its contents discarded (R145). -/
def State.closeGroup (s : State) (n g : Nat) : State :=
  let x := s.accGroup n g
  ((s.zeroLines n x.span.1 x.span.2).setAccGroup n g AccGroup.closed).accSync n

/-- The value of a stored element (R151). -/
def storedVal (store x : Nat) : Val :=
  match store with
  | 0 => decodeW x
  | 1 => decodeF f32 x
  | _ => ofInt (signed 32 x)

/-- A stored element widened exactly to the wide layout, and narrowed back (R124, R160). -/
def widenStored (store x : Nat) : Nat := if store = 0 then x else (encodeW (storedVal store x)).1
def narrowWide (store x : Nat) : Nat :=
  match store with
  | 0 => x
  | 1 => (rne f32 (decodeW x)).1
  | _ => (encodeI 32 .rne 0 false (decodeW x)).1

end Sys2Proof.Machine
end

