-- ==== Sys2Proof/Machine/Context.lean ====
section
/-! DEFINITION. A context: its registers, and the image that a switch saves and restores (R84, R85, R123 to R126,
R160, R161). -/
namespace Sys2Proof.Machine

/-- Where a logical array's wake latch stands (R233). -/
def wakeKey (p l : Nat) : Nat := p * 256 + l

/-! ## Registers of a context (Table 3.1) -/

def w64Default : Nat → Word64 := fun _ => 0
def vDefault : Nat → VReg := fun _ => 0
def pDefault : Nat → PReg := fun _ => 0

/-- s0 always reads 0. -/
def Ctx.sget (c : Ctx) (r : Nat) : Word64 := if r = 0 then 0 else Sparse.get w64Default c.s r
/-- A write to s0 is discarded. -/
def Ctx.sset (c : Ctx) (r : Nat) (v : Word64) : Ctx := if r = 0 then c else { c with s := Sparse.set w64Default c.s r v }
def Ctx.aget (c : Ctx) (r : Nat) : Word64 := Sparse.get w64Default c.a r
def Ctx.aset (c : Ctx) (r : Nat) (v : Word64) : Ctx := { c with a := Sparse.set w64Default c.a r v }
def Ctx.vget (c : Ctx) (r : Nat) : VReg := Sparse.get vDefault c.v r
def Ctx.vset (c : Ctx) (r : Nat) (v : VReg) : Ctx := { c with v := Sparse.set vDefault c.v r v }
/-- p0 always reads all ones. -/
def Ctx.pget (c : Ctx) (r : Nat) : PReg := if r = 0 then BitVec.allOnes 1024 else Sparse.get pDefault c.p r
def Ctx.pset (c : Ctx) (r : Nat) (v : PReg) : Ctx := if r = 0 then c else { c with p := Sparse.set pDefault c.p r v }

/-- Raise flags in the array's numeric status (R78). -/
def Ctx.raise (c : Ctx) (f : Flags) : Ctx := { c with nstat := c.nstat ||| f }

/-- The value of a special register (Table 3.2). -/
def sregRead (s : State) (n num : Nat) : Word64 :=
  let a := s.arr n
  let id := s.ident n
  match num with
  | 0x00 => dw (a.pc % 2 ^ 48)
  | 0x01 => dw a.ctx.vl
  | 0x02 => a.ctx.vfill.setWidth 64
  | 0x03 => a.ctx.srSeed
  | 0x04 => a.ctx.srCtr
  | 0x05 => a.ctx.nstat.setWidth 64
  | 0x06 => dw (s.getF (Fld.PRT_MODE_IDX id.part))
  | 0x07 => dw id.larray
  | 0x08 => dw id.part
  | 0x09 => dw (fieldOf (s.reg Reg.TOP_DEVNUM) 0 9)
  | 0x0A => dw a.ctx.rmoCnd
  | 0x0B => dw s.time
  | 0x0C => dw a.ctx.cycles
  | 0x0D => dw a.ctx.groups
  | 0x0E => dw (s.ocSize n)
  | _ => 0

/-! ## The context image (Table 3.11) -/

/-- Image address of the context on an array. -/
def State.imageOf (s : State) (n : Nat) : Nat := s.getF (Fld.ARR_CTX_BASE n) * 4096

/-- The first 0x9000 bytes of the image (Table 3.11) with STATE `st`: before any group of this save is added, but with the records of the
groups that SVC_ACC_RESERVE saved there and that wait for a restore. -/
def imageHead (s : State) (n st : Nat) : List Byte :=
  let a := s.arr n
  let id := s.ident n
  let zeros (k : Nat) : List Byte := List.replicate k 0
  toLe 2 1 ++ toLe 1 id.part ++ toLe 1 st ++ toLe 2 id.larray ++ toLe 1 a.savedOut.length ++ zeros 1 ++
  toLe 8 (s.getF (Fld.ARR_PC_PC n) * 16) ++
  toLe 8 (s.reg (Reg.ARR_FAULT n)).toNat ++ toLe 8 (s.reg (Reg.ARR_FAULT_VAL n)).toNat ++ zeros 32 ++
  (List.range 16).flatMap (fun i => toLe 8 (sregRead s n i).toNat) ++ zeros 64 ++
  (List.range 64).flatMap (fun i => toLe 8 (a.ctx.sget i).toNat) ++
  (List.range 16).flatMap (fun i => toLe 8 (a.ctx.aget i).toNat) ++ zeros 128 ++
  (List.range 8).flatMap (fun i => toLe 128 (a.ctx.pget i).toNat) ++
  (List.range 32).flatMap (fun i => toLe 1024 (a.ctx.vget i).toNat) ++
  (List.range 8).flatMap (fun i => if a.savedOut.contains i then s.hbmRead id.part (s.imageOf n + 0x8800 + 32 * i) 32 else zeros 32) ++
  zeros 1792

/-- Write the registers-only image of the context on an array (R125). -/
def State.saveRegs (s : State) (n st : Nat) : State := s.hbmWrite (s.ident n).part (s.imageOf n) (imageHead s n st)

/-- Bytes of a group's saved contents. -/
def AccGroup.savedBytes (g : AccGroup) : Nat := g.count * g.rows * g.cols * 6

/-- A group's contents at full width, unit by unit and row by row; a poisoned group is written as zeros (R159). -/
def groupBytesOf (s : State) (n : Nat) (g : AccGroup) : List Byte :=
  if g.state = 2 then List.replicate g.savedBytes 0
  else (List.range g.count).flatMap fun u => (List.range g.rows).flatMap fun r =>
    (s.accRow n (g.rowAt (g.first + u) r) g.store g.cols).flatMap fun x => toLe 6 (widenStored g.store x)

/-- Add a group to an image (R124): its record, its contents after those saved before, and one more in NGROUPS; its
lines are then free. -/
def State.saveGroup (s : State) (n part image g : Nat) (x : AccGroup) : State :=
  let recs := s.hbmRead part (image + 0x8800) 256
  let f (i o k : Nat) : Nat := ofLe ((recs.drop (32 * i + o)).take k)
  let endOf (i : Nat) : Nat :=
    if f i 0 1 = 0 then 0
    else f i 8 4 + (AccGroup.mk 1 (f i 1 1) (f i 2 1) (f i 3 1) 0 (f i 6 2) 0).savedBytes
  let off := (List.range 8).foldl (fun m i => max m (endOf i)) 0
  let r := toLe 1 x.state ++ toLe 1 x.shape ++ toLe 1 x.store ++ toLe 1 x.idx ++ toLe 2 x.first ++ toLe 2 x.count ++
    toLe 4 off ++ List.replicate 20 0
  let s1 := s.hbmWrite part (image + 0x8800 + 32 * g) r
  let s2 := s1.hbmWrite part (image + 0x9000 + off) (groupBytesOf s n x)
  let k := ofLe (s.hbmRead part (image + 6) 1)
  (s2.hbmWrite part (image + 6) (toLe 1 (k + 1))).zeroLines n x.span.1 x.span.2

/-- Save and free, of a list of groups, every open one that meets lines `lo` to `hi`; answers the groups left. -/
def State.saveGroups (s : State) (n part image lo hi : Nat) (l : List AccGroup) : State × List AccGroup :=
  l.zipIdx.foldl (fun acc e =>
    let g := e.1
    if g.state ≠ 0 ∧ overlaps g.span.1 g.span.2 lo (hi - lo) then
      (acc.1.saveGroup n part image e.2 g, acc.2 ++ [AccGroup.closed])
    else (acc.1, acc.2 ++ [g])) (s, [])

/-- What firmware knows of a context. -/
def State.ctxInfo (s : State) (id : CtxId) : Option CtxInfo := s.contexts.find? fun c => c.id.part == id.part && c.id.larray == id.larray

/-- Firmware's entry for a context. -/
def State.putCtx (s : State) (i : CtxInfo) : State :=
  { s with contexts := (s.contexts.filter fun x => !(x.id.part == i.id.part && x.id.larray == i.id.larray)) ++ [i] }

/-- What firmware knows of a context, with an entry for one that the device mapped without firmware. -/
def State.ctxEntry (s : State) (p l n : Nat) : CtxInfo :=
  (s.contexts.find? fun i => i.id.part == p && i.id.larray == l).getD
    { id := ⟨p, l, false⟩, phys := n, image := s.imageOf n, ocFirst := s.getF (Fld.ARR_OC_CFG_FIRST n), ocUnits := s.getF (Fld.ARR_OC_CFG_UNITS n),
      accFirst := s.getF (Fld.ARR_ACC_CFG_RES_FIRST n), accCount := s.getF (Fld.ARR_ACC_CFG_RES_COUNT n), saved := false }

/-- Lines that a restore onto the array is about to use: the open groups there, of every context left in place, that meet them are saved
into their contexts' images and freed (R124). -/
def State.saveParked (s : State) (n lo hi : Nat) : State :=
  let r := s.parked.foldl (fun (acc : State × List Parked) k =>
    if k.phys = n then
      let (s1, l) := acc.1.saveGroups n k.id.part ((s.ctxInfo k.id).map CtxInfo.image |>.getD 0) lo hi k.acc
      (s1, acc.2 ++ [{ k with acc := l }])
    else (acc.1, acc.2 ++ [k])) (s, [])
  { r.1 with parked := r.2 }

/-- The lines of the incoming reservation: its first, and the one after its last. -/
def State.resLines (s : State) (id : CtxId) : Nat × Nat := match s.ctxInfo id with
  | some c => (c.accFirst, c.accFirst + c.accCount)
  | none => (0, 0)

/-- The context on the array leaves it (R124): its image is written; its open groups, and those of every context left
in place, that meet the incoming reservation are saved and freed; the others stay where nothing sees them. -/
def State.switchOut (s : State) (n : Nat) (incoming : CtxId) : State :=
  let a := s.arr n
  let id := s.ident n
  let (lo, hi) := s.resLines incoming
  let s1 := s.saveRegs n a.was
  let (s2, left) := s1.saveGroups n id.part (s.imageOf n) lo hi a.acc
  let s3 := (s2.saveParked n lo hi).putCtx { s.ctxEntry id.part id.larray n with saved := true }
  let k : Parked := { id, phys := n, acc := left, progs := a.progs, state := a.was, reason := s.getF (Fld.ARR_STATUS_REASON n), woken := false,
                      waits := a.leftWait }
  (({ s3 with parked := s3.parked ++ [k] }).setArr n { Arr.initial with switchReq := some incoming, stopBit := a.stopBit }).accSync n

/-- Bytes of a context image as a restore receives them: of a line that is poisoned they are free values (R208: the read delivers poison;
the manual does not say what a restore does with it). -/
def State.imageRead (s : State) (part a len : Nat) : List Byte × State :=
  (touchedLines a len).foldl (fun (acc : List Byte × State) l =>
    let lo := max a (l * 64)
    let k := min (a + len) (l * 64 + 64) - lo
    if s.hbmPoisoned part (l * 64) 64 then let (b, s1) := acc.2.drawBytes k; (acc.1 ++ b, s1)
    else (acc.1 ++ s.hbmRead part lo k, acc.2)) ([], s)

/-- A group moves with its contents to the same lines of a reservation that begins elsewhere. -/
def AccGroup.moved (g : AccGroup) (res : Nat) : AccGroup := if g.state = 0 then g else { g with res }
/-- Move the contents of groups to the same context-relative lines of a reservation that begins at `res` (R139). -/
def State.relayGroups (s : State) (n res : Nat) (l : List AccGroup) : State :=
  let held := l.filter fun g => g.state != 0 && g.res != res
  let saved := held.map fun g => (g, readBytes s.mem.acc (n * accBytes + g.span.1 * 128) (g.span.2 * 128))
  let s1 := held.foldl (fun s g => s.zeroLines n g.span.1 g.span.2) s
  saved.foldl (fun s x => { s with mem := { s.mem with acc := writeBytes s.mem.acc (n * accBytes + (x.1.moved res).span.1 * 128) x.2 } }) s1

/-- Group `i` as an image holds it (Table 3.12), on a reservation that begins at `res`, and the offset of its contents. -/
def State.imageGroup (s : State) (part image i res : Nat) : AccGroup × Nat :=
  let r := s.hbmRead part (image + 0x8800 + 32 * i) 32
  let f (o k : Nat) : Nat := ofLe ((r.drop o).take k)
  ({ state := f 0 1, shape := f 1 1, store := f 2 1, idx := f 3 1, first := f 4 2, count := f 6 2, res }, f 8 4)

/-- The groups that an image holds are put back into the lines they held (R126, R161).  One whose lines lie beyond the reservation
stays in the image (DESIGN CHOICE); one whose saved contents are poisoned comes back POISONED (DESIGN CHOICE; R208). -/
def State.restoreGroups (s : State) (n part image res count : Nat) : State :=
  (List.range 8).foldl (fun s i =>
    let (g, off) := s.imageGroup part image i res
    if g.state = 0 then s
    else if res + count < g.span.1 + g.span.2 then s.modArr n fun a => { a with savedOut := a.savedOut ++ [i] }
    else
      let base := image + 0x9000 + off
      let bad := s.hbmPoisoned part base g.savedBytes
      let s1 := (List.range (g.count * g.rows)).foldl (fun s k =>
        let l := toElems 6 g.cols (s.hbmRead part (base + k * g.cols * 6) (g.cols * 6))
        s.setAccRow n (g.rowAt (g.first + k / g.rows) (k % g.rows)) g.store (l.map (narrowWide g.store))) s
      let s2 := s1.setAccGroup n i g
      if bad then s2.poisonGroup n i 2 0 else s2) s

/-- ARR_VEC_STATUS.BOUND shows the bound program slots of the context on the array. -/
def State.syncBound (s : State) (n : Nat) : State :=
  s.setF (Fld.ARR_VEC_STATUS_BOUND n) ((s.arr n).progs.zipIdx.foldl (fun acc e => if e.1.isSome then acc + 2 ^ e.2 else acc) 0)

/-- The registers of ARR that firmware and the restore load for the context on the array (R126, R139, R215, R233). -/
def State.loadCtx (s : State) (n : Nat) (c : CtxInfo) (st reason : Nat) : State :=
  (s.setFs [(Fld.ARR_CTX_BASE n, c.image / 4096), (Fld.ARR_OC_CFG_FIRST n, c.ocFirst), (Fld.ARR_OC_CFG_UNITS n, c.ocUnits),
    (Fld.ARR_ACC_CFG_RES_FIRST n, c.accFirst), (Fld.ARR_ACC_CFG_RES_COUNT n, c.accCount), (Fld.ARR_STATUS_PART n, c.id.part),
    (Fld.ARR_STATUS_BUBBLE n, if c.id.bubble then 1 else 0), (Fld.ARR_STATUS_STATE n, st), (Fld.ARR_STATUS_REASON n, reason),
    (Fld.ARR_PC_PC n, (s.arr n).pc / 16),
    (Fld.ARR_WAKE_LATCH n, if getBool s.gey.wake (wakeKey c.id.part c.id.larray) then 1 else 0)]).syncBound n

/-- The incoming context comes onto the array (R126): firmware loads its reservations and image address, its image
gives registers, saved groups and the state it runs on in; one that a WAKE has resumed since it was saved runs (R233); groups left in place
follow a reservation that has moved since (R139), and the images of bound programs are read again (R193).  A context that was never
saved comes up IDLE with the registers of a start. -/
def State.switchIn (s : State) (n : Nat) (c : CtxInfo) : State :=
  let part := c.id.part
  let (image, s0) := s.imageRead part c.image 0x9000
  let f (o k : Nat) : Nat := ofLe ((image.drop o).take k)
  let saved := c.saved && f 0 2 == 1 && f 2 1 == part && f 4 2 == c.id.larray
  let sr (i : Nat) : Nat := f (0x40 + 8 * i) 8
  let c0 : Ctx :=
    { Ctx.zero with vl := sr 1 % 512, vfill := BitVec.ofNat 32 (sr 2), srSeed := dw (sr 3), srCtr := dw (sr 4),
                    nstat := BitVec.ofNat 32 (sr 5), rmoCnd := sr 0x0A % 2 ^ 20, cycles := sr 0x0C, groups := sr 0x0D }
  let c1 := (List.range 64).foldl (fun (k : Ctx) i => k.sset i (dw (f (0x100 + 8 * i) 8))) c0
  let c2 := (List.range 16).foldl (fun (k : Ctx) i => k.aset i (dw (f (0x300 + 8 * i) 8))) c1
  let c3 := (List.range 8).foldl (fun (k : Ctx) i => k.pset i (BitVec.ofNat 1024 (f (0x400 + 128 * i) 128))) c2
  let c4 := (List.range 32).foldl (fun (k : Ctx) i => k.vset i (BitVec.ofNat 8192 (f (0x800 + 1024 * i) 1024))) c3
  let mine (k : Parked) : Bool := k.id.part == part && k.id.larray == c.id.larray && k.phys == n
  let kept := s.parked.find? mine
  let groups := match kept with | some k => k.acc | none => Arr.initial.acc
  let a : Arr := { Arr.initial with
    ident := some c.id
    ctx := if saved then c4 else Ctx.zero
    pc := if saved then f 8 8 / 16 * 16 else 0
    acc := groups.map fun g => g.moved c.accFirst
    progs := (match kept with | some k => k.progs | none => Arr.initial.progs).map fun (e : Option EProg) =>
      e.map fun (x : EProg) => { off := x.off, image := s.ocRead n x.off x.image.length } }
  let woken := kept.any Parked.woken
  let st := if !saved then stIdle else if f 3 1 = stWaiting ∨ woken then stRunning else f 3 1
  let stop := (s.arr n).stopBit && st == stRunning
  let s1 := (({ s0.relayGroups n c.accFirst groups with parked := s.parked.filter fun k => !mine k }).setArr n { a with stopBit := stop }).putCtx
    { c with saved := false }
  let s2 := s1.loadCtx n c st (match kept with | some k => if k.woken then 0 else k.reason | none => 0)
  let s3 := if saved then
      ((s2.setReg (Reg.ARR_FAULT n) (dw (f 0x10 8))).setReg (Reg.ARR_FAULT_VAL n) (dw (f 0x18 8))).restoreGroups n part c.image c.accFirst c.accCount
    else s2
  s3.accSync n

/-- Zeros over a range of an operand cache, which clear its poison marks (R201, R442). -/
def State.clearOc (s : State) (n off len : Nat) : State :=
  { s with mem := { s.mem with
      oc := Sparse.clear s.mem.oc (n * ocBytes + off) (n * ocBytes + off + len)
      ocPoison := Sparse.clear s.mem.ocPoison (n * ocLines + off / 64) (n * ocLines + (off + len) / 64) } }

/-- Firmware maps a context to an array: its reservation is zeroed (R164, R442), and the context comes onto an array that holds none:
from its image where that holds it, and IDLE otherwise (R355, R396). -/
def State.mapCtx (s : State) (i : CtxInfo) : State :=
  let p := i.id.part
  let n := i.phys
  let s1 := ((s.putCtx i).setFs [(Fld.PRT_LMAP_VALID p i.id.larray, 1), (Fld.PRT_LMAP_PHYS p i.id.larray, n)]).clearOc n (i.ocFirst * 65536)
    (i.ocUnits * 65536)
  if (s.arr n).ident.isSome then s1
  else
    let s2 := (s1.saveParked n i.accFirst (i.accFirst + i.accCount)).zeroLines n i.accFirst i.accCount
    (s2.setArr n Arr.initial).switchIn n i

/-- Firmware unmaps a context: its reservation is zeroed, and where it was on its array another context of the array comes, or none. -/
def State.unmapCtx (s : State) (i : CtxInfo) : State :=
  let p := i.id.part
  let l := i.id.larray
  let n := i.phys
  let same (x : CtxId) : Bool := x.part == p && x.larray == l
  let s0 := { s with contexts := s.contexts.filter fun x => !same x.id, parked := s.parked.filter fun x => !same x.id
                     claims := s.claims.filter fun x => !(x.part == p && x.larray == l) }
  let s1 := ((s0.setFs [(Fld.PRT_LMAP_VALID p l, 0), (Fld.PRT_LMAP_PHYS p l, 0)]).clearOc n (i.ocFirst * 65536) (i.ocUnits * 65536))
  if !((s.arr n).ident.any same) then s1
  else
    let s2 := ((s1.zeroLines n i.accFirst i.accCount).setArr n Arr.initial).resetRegs (Reg.ARR_CTX n) (Reg.ARR_CTX n + 8)
    match s2.contexts.find? fun x => x.phys == n with
    | some x => (s2.saveParked n x.accFirst (x.accFirst + x.accCount)).switchIn n x
    | none => (((s2.resetRegs (Reg.ARR_OC_CFG n) (Reg.ARR_OC_CFG n + 4)).resetRegs (Reg.ARR_ACC_CFG n) (Reg.ARR_ACC_CFG n + 4)).setFs
        [(Fld.ARR_STATUS_PART n, 0), (Fld.ARR_STATUS_BUBBLE n, 0), (Fld.ARR_STATUS_STATE n, stIdle), (Fld.ARR_WAKE_LATCH n, 0)]).syncBound n

end Sys2Proof.Machine
end

