-- ==== Sys2Proof/Machine/RmoBase.lean ====
section
/-! DEFINITION. Remote operations as far as the units that issue, abort or outlive them see them: the fields of an entry, whether a peer is
reachable, and giving an operation up (R226, R244, R252, R253, R256, R267, R268). -/
namespace Sys2Proof.Machine

/-! ## Paths to a peer (R256) -/

def pathDefault : Nat → Path := fun _ => Path.closed
def State.path (s : State) (d v : Nat) : Path := Sparse.get pathDefault s.rmo.paths (d * 16 + v)

def stClosed : Nat := 0
def stOpening : Nat := 1
def stUp : Nat := 2
def stDown : Nat := 3

/-- A path carries frames: it is UP, and the peer has not closed its epoch (R267). -/
def Path.usable (p : Path) : Bool := p.valid && p.state == stUp && !p.shut

/-- A path to a peer carries frames. -/
def State.peerUp (s : State) (d : Nat) : Bool := (List.range 16).any fun v => (s.path d v).usable
/-- A peer with no VALID entry, or whose VALID entries are all DOWN or CLOSED. -/
def State.peerUnreachable (s : State) (d : Nat) : Bool :=
  (List.range 16).all fun v => !(s.path d v).valid || (s.path d v).state == stDown || (s.path d v).state == stClosed

/-- This device's number. -/
def State.ownDev (s : State) : Nat := s.getF Fld.TOP_DEVNUM_DEVNUM

/-- An operation released now to a device completes DEVICE_UNREACHABLE (R32, R256, CND_ZRT_CFG.ENABLE). -/
def State.unreachableNow (s : State) (d : Nat) : Bool :=
  d != s.ownDev &&
    (!s.flag Fld.TOP_DEVNUM_VALID || !s.flag Fld.CND_ZRT_CFG_ENABLE || s.peerUnreachable d)

/-! ## Fields of an entry (Table 7.3) -/

def entryField (e : List Byte) (off n : Nat) : Nat := ofLe ((e.drop off).take n)
/-- The device that an entry's fabric address names. -/
def entryDev (e : List Byte) : Nat := entryField e 15 1

def RmoOp.f (o : RmoOp) (off n : Nat) : Nat := entryField o.entry off n
def RmoOp.opc (o : RmoOp) : Nat := o.f 0 1
def RmoOp.fmt (o : RmoOp) : Nat := bits (o.f 1 1) 0 4
def RmoOp.lkind (o : RmoOp) : Nat := bits (o.f 1 1) 4 1
def RmoOp.len (o : RmoOp) : Nat := o.f 4 4
def RmoOp.fabric (o : RmoOp) : Nat := o.f 8 8
def RmoOp.loc (o : RmoOp) : Nat := o.f 0x10 8
def RmoOp.operand (o : RmoOp) : Word64 := dw (o.f 0x18 8)
def RmoOp.compare (o : RmoOp) : Word64 := dw (o.f 0x20 8)
def RmoOp.cw (o : RmoOp) : Word64 := dw (o.f 0x28 8)
/-- OCLOC: the physical array and the byte offset of its reservation. -/
def RmoOp.ocArray (o : RmoOp) : Nat := o.f 0x38 1
def RmoOp.ocBase (o : RmoOp) : Nat := bits (o.f 0x39 1) 0 7 * 65536

/-- Operation codes (Table 7.1). -/
def opcPut : Nat := 0x00
def opcGet : Nat := 0x01
def opcCas : Nat := 0x06
def opcGinc : Nat := 0x10

/-- Completion status (Table 7.5). -/
def rsOk : Nat := 0x00
def rsAddrRange : Nat := 0x01
def rsAddrUnmapped : Nat := 0x02
def rsAddrKind : Nat := 0x03
def rsAccessDenied : Nat := 0x04
def rsUnreachable : Nat := 0x05
def rsTimeout : Nat := 0x06
def rsPoisoned : Nat := 0x07
def rsIntegrity : Nat := 0x08
def rsAborted : Nat := 0x09
def rsDestReset : Nat := 0x0A

/-! ## Giving an operation up (R252, R253) -/

/-- An operation that has no outcome yet gets one. -/
def RmoOp.settle (o : RmoOp) (status detail : Nat) : RmoOp := match o.status with
  | some _ => o
  | none => { o with status := some status, detail }
/-- An operation of a destroyed conduit or of a reset or aborted source completes ABORTED (R252). -/
def RmoOp.abort (o : RmoOp) (detail : Nat) : RmoOp := o.settle rsAborted detail

/-- The operation of an entry as the engine takes it. -/
def entryOp (id c eng part : Nat) (src : RmoSrc) (cc : Option Nat) (entry : List Byte) : RmoOp :=
  { id, cnd := c, eng, part, src, entry, dev := entryDev entry, cc, status := none, old := 0, done := 0, detail := 0, retx := 0,
    poison := none }

/-- A request segment of one of the operations numbered. -/
def segOfIds (g : ZrtSeg) (ids : List Nat) : Bool := decide (g.kind < 8) && ids.any fun id => id % 2 ^ 32 == g.opId

/-- The source sends nothing more of operations that it had not yet sent (R252). -/
def State.dropUnsent (s : State) (ids : List Nat) : State :=
  let keep (g : ZrtSeg) : Bool := !segOfIds g ids
  { s with rmo := { s.rmo with
      paths := s.rmo.paths.map fun (e : Nat × Path) => (e.1, { e.2 with sendq := e.2.sendq.filter keep })
      closing := s.rmo.closing.map fun k => { k with sendq := k.sendq.filter keep }
      stranded := s.rmo.stranded.filter fun e => keep e.2 } }

/-- Abort every taken operation that a test finds and that has no outcome yet. -/
def State.abortTaken (s : State) (detail : Nat) (hit : RmoOp → Bool) : State :=
  let ids := (s.rmo.ops.filter fun o => hit o && o.status.isNone).map RmoOp.id
  let upd (o : RmoOp) : RmoOp := if hit o then o.abort detail else o
  ({ s with rmo := { s.rmo with ops := s.rmo.ops.map upd } }).dropUnsent ids

/-- Abort every operation of a remote-operation conduit: those taken, and the entries that lie in it. -/
def State.abortConduit (s : State) (c detail : Nat) : State :=
  let x := s.cndGet c
  let lie := (s.rmo.queued.filter fun q => q.cnd == c).zipIdx.map fun e =>
    let o := entryOp e.1.id c x.home x.owner e.1.src e.1.cc (s.hbmRead x.owner (x.slot (x.cons + e.2)) 64)
    match e.1.fate with
    | some (st, d) => o.settle st d
    | none => o.abort detail
  let s1 := s.abortTaken detail fun o => o.cnd == c
  { s1 with rmo := { s1.rmo with queued := s1.rmo.queued.filter fun q => q.cnd != c, ops := s1.rmo.ops ++ lie } }

/-- Operations whose local side is the operand cache of an array that is retired, and whose local bytes have not all been moved: a PUT's
have been when it is taken (R253). -/
def State.abortRetired (s : State) (n : Nat) : State :=
  s.abortTaken 4 fun o => o.opc == opcGet && o.lkind == 0 && o.ocArray == n && decide (o.done < o.len)

end Sys2Proof.Machine
end

