-- ==== Sys2Proof/Machine/Signals.lean ====
section
/-! DEFINITION. How the device calls for attention: MSI-X vectors, doorbells, replies and notices, and the service level
(R41, R44 to R46, R400, R401, R414, R416, R418). -/
namespace Sys2Proof.Machine

/-! ## MSI-X (R400, R401) -/

/-- The reset contents of an MSI-X table: every vector masked, the rest zero. -/
def msixDefault : Nat → Word64 := fun k => if k % 2 = 1 then 0x100000000 else 0
def State.msixWord (s : State) (f v h : Nat) : Word64 := Sparse.get msixDefault s.host.msixTable (f * 4096 + 2 * v + h)
def State.vecMasked (s : State) (f v : Nat) : Bool := s.host.msixFnMask.contains f || (s.msixWord f v 1).getLsbD 32

/-- Send the message of a vector: a masked vector sets its pending bit instead. -/
def State.msixSend (s : State) (f v : Nat) : State :=
  if s.vecMasked f v then { s with host := { s.host with pba := setBool s.host.pba (f * 2048 + v) true } }
  else { s with host := { s.host with
    sent := s.host.sent ++ [{ fn := f, vec := v, addr := s.msixWord f v 0, data := (s.msixWord f v 1).setWidth 32 }] } }

/-- A signal that cannot be sent: discarded, counted and reported, `k` of them (R401). -/
def State.irqLost (s : State) (f v cause k : Nat) : State :=
  (List.range k).foldl (fun s _ =>
    (s.incSat Fld.PCI_ERR_IRQ_LOST 1).raise srcPcie f clsInfo 0x9005 0 [w f, w v, w cause]) s

/-- Why a function cannot send a message now. -/
def State.irqBar (s : State) (f : Nat) : Option Nat :=
  if !s.host.msixEn.contains f then some 1
  else if s.host.d3hot.contains f then some 2
  else if !s.flag Fld.PCI_LINK_UP then some 3
  else none

/-- A signal on a vector of a function, under its coalescing (R401). -/
def State.signalIrq (s : State) (f v : Nat) : State :=
  match s.irqBar f with
  | some cause => s.irqLost f v cause 1
  | none =>
    let need := max 1 (s.getF (Fld.PRT_IRQ_MAX_COUNT f))
    let mine (h : HeldIrq) : Bool := h.fn == f && h.vec == v
    let n := match s.host.held.find? mine with | some h => h.count + 1 | none => 1
    let others := s.host.held.filter fun h => !mine h
    if need ≤ n then ({ s with host := { s.host with held := others } }).msixSend f v
    else
      let since := match s.host.held.find? mine with | some h => h.since | none => s.time
      { s with host := { s.host with held := others ++ [⟨f, v, n, since⟩] } }

/-- Held signals of functions that can no longer send are lost with the cause that arose (R401). -/
def State.dropHeld (s : State) (which : HeldIrq → Bool) (cause : Nat) : State :=
  let gone := s.host.held.filter which
  gone.foldl (fun s h => s.irqLost h.fn h.vec cause h.count)
    { s with host := { s.host with held := s.host.held.filter fun h => !which h } }

/-! ## Doorbells (R414) -/

/-- A bit of a host inbox becomes pending. -/
def State.ringDoorbell (s : State) (f b : Nat) : State :=
  let pend := s.getF (Fld.DBL_PEND_PEND f)
  if bits pend b 1 = 1 then s
  else
    let s1 := s.setF (Fld.DBL_PEND_PEND f) (pend + 2 ^ b)
    if bits (s.getF (Fld.DBL_MASK_MASK f)) b 1 = 0 then s1.signalIrq f (s.getF (Fld.DBL_CFG_VECTOR f)) else s1
def State.clearDoorbell (s : State) (f b : Nat) : State :=
  let pend := s.getF (Fld.DBL_PEND_PEND f)
  if bits pend b 1 = 1 then s.setF (Fld.DBL_PEND_PEND f) (pend - 2 ^ b) else s

/-! ## Partitions -/

def psFree : Nat := 0
def psCreating : Nat := 1
def psActive : Nat := 2
def psResetting : Nat := 3
def psDestroying : Nat := 4
def State.partState (s : State) (p : Nat) : Nat := s.getF (Fld.PRT_STATE_STATE p)
def State.partActive (s : State) (p : Nat) : Bool := s.partState p == psActive
def partNumbers : List Nat := List.range 64

/-! ## Replies and notices (R416, R418) -/

/-- The channel on which the fumarole or the sinter answers a partition. -/
def replyChannel (sinter : Bool) (p : Nat) : Nat := if sinter then 192 + p else 64 + p

/-- Queue a reply or notice: 64 wait per partition, and one that finds the places full is discarded and counted. -/
def State.queueReply (s : State) (r : Reply) : State :=
  let mine := s.host.replies.filter fun x => x.part == r.part && x.sinter == r.sinter
  if mine.length < 64 then { s with host := { s.host with replies := s.host.replies ++ [r] } }
  else
    let c := replyChannel r.sinter r.part
    { s with host := { s.host with lost := Sparse.set (fun _ => 0) s.host.lost c (Sparse.get (fun _ => 0) s.host.lost c + 1) } }

/-- A notice of the fumarole (R418). -/
def State.notice (s : State) (p kind : Nat) (arg : List Word32) : State :=
  s.queueReply { part := p, dev := 0, sinter := false, code := 0, tag := 0, status := 0, words := w kind :: arg, fails := 0 }

/-! ## Service level (R44 to R46) -/

def lvStarting : Nat := 0
def lvMinimal : Nat := 1
def lvDegraded : Nat := 2
def lvFull : Nat := 3
def State.level (s : State) : Nat := s.getF Fld.TOP_SERVICE_LEVEL

/-- Change the service level: SERVICE_LEVEL (from the fumarole: the manual names no source for it or for DEVICE_ERROR, DESIGN CHOICE, log
entry 42), doorbell bit 3 and a LEVEL_CHANGED notice for every active partition. -/
def State.setLevel (s : State) (new reason : Nat) : State :=
  let old := s.level
  if new = old then s
  else
    let s1 := s.setF Fld.TOP_SERVICE_LEVEL new
    let s2 := if new < old then s1.setF Fld.TOP_SERVICE_REASON reason else s1
    let s3 := s2.raise srcFumarole wholeDevice clsInfo 0x0005 0 [w old, w new, w reason]
    (partNumbers.filter s.partActive).foldl (fun s p => (s.notice p 4 [w new]).ringDoorbell p 3) s3

/-- A fall to MINIMAL; a device already there or starting stays as it is. -/
def State.fallToMinimal (s : State) (reason : Nat) : State := if lvMinimal < s.level then s.setLevel lvMinimal reason else s

/-- The device is no longer as shipped (R44): FULL becomes DEGRADED. -/
def State.fallToDegraded (s : State) (reason : Nat) : State := if s.level = lvFull then s.setLevel lvDegraded reason else s

/-- A DEVICE-class error (Table 1.10, R46): DEVICE_ERROR first (from the fumarole: DESIGN CHOICE, log entry 42), then every partition stops and the level falls.  The
freeze that TOP_DEVERR_CFG asks for follows the posting of the record. -/
def State.deviceError (s : State) (reason domain : Nat) : State :=
  let s1 := (s.setF Fld.TOP_SERVICE_DEVICE_ERROR 1).raise srcFumarole wholeDevice clsDevice 0x0006 0 [w reason, w domain]
  let s2 := (partNumbers.filter s.partActive).foldl (fun s p => s.partitionStop p) s1
  s2.fallToMinimal 1

/-- A domain leaves service (TOP_DOMAIN_OK). -/
def State.domainOk (s : State) (d : Nat) (ok : Bool) : State :=
  let f := Fld.TOP_DOMAIN_OK_OK (d / 32)
  let v := s.getF f
  let has := bits v (d % 32) 1 == 1
  if has == ok then s else s.setF f (if ok then v + 2 ^ (d % 32) else v - 2 ^ (d % 32))

/-! ## The MINIMAL set (R44, R45, Table 1.11) -/

def State.dOk (s : State) (d : Nat) : Bool := bits (s.getF (Fld.TOP_DOMAIN_OK_OK (d / 32))) (d % 32) 1 == 1
/-- The MINIMAL set: the island, the sinter, the fumarole, and the PCIe endpoint or vent 0 with its SerDes quad. -/
def State.minimalSet (s : State) : Bool :=
  s.dOk 94 && s.dOk 93 && s.dOk 92 && ((s.dOk 80 && s.dOk 81) || (s.dOk 48 && s.dOk 64))
/-- A unit has left service: without the MINIMAL set service ends. -/
def State.minimalCheck (s : State) : State := if s.minimalSet then s else { s with pow := { s.pow with noService := true } }

end Sys2Proof.Machine
end

