-- ==== Sys2Proof/Machine/ArrayOps.lean ====
section
/-! DEFINITION. What every Runen instruction shares: reading and writing the registers of a context, the checks at
issue, instruction groups, faults, commit and release, stopping (R84 to R107, R113, R118 to R120, R123, R128 to
R131).  An instruction computes its results when it issues; what may not be seen before commit is held in its group. -/
namespace Sys2Proof.Machine

/-! ## Encoding (R88 to R93) -/

/-- The register file that a specifier of an operation names (Table 3.4). -/
inductive Role where
  | none | s | v | ad | p | sa | sv | va | sp | vsp
  deriving DecidableEq, Repr

def isS (x : Nat) : Bool := x < 0x40
def isV (x : Nat) : Bool := decide (0x40 ≤ x) && decide (x < 0x60)
def isA (x : Nat) : Bool := decide (0x60 ≤ x) && decide (x < 0x70)
def isP (x : Nat) : Bool := decide (0x70 ≤ x) && decide (x < 0x78)

def Role.ok (r : Role) (x : Nat) : Bool :=
  match r with
  | .none => x == 0
  | .s => isS x
  | .v => isV x
  | .ad => isA x
  | .p => isP x
  | .sa => isS x || isA x
  | .sv => isS x || isV x
  | .va => isV x || isA x
  | .sp => isS x || isP x
  | .vsp => isV x || isS x || isP x

/-- An operation of Table 3.7: CLASS and OP, the register file of each specifier, the MOD and IMM bits that it
defines, whether it is last-only, and whether PRED and PN apply (R90). -/
structure OpSpec where
  cls : Nat
  op : Nat
  d : Role
  a : Role
  b : Role
  c : Role
  mod : BitVec 15
  imm : BitVec 64
  last : Bool
  lanes : Bool
  deriving DecidableEq, Repr

/-- R89 and R90: every specifier is of its register file, undefined MOD and IMM bits are 0, and PRED and PN are 0 in
a class without lanes. -/
def encodingOk (sp : OpSpec) (f : Fields) : Bool :=
  sp.d.ok f.d.toNat && sp.a.ok f.a.toNat && sp.b.ok f.b.toNat && sp.c.ok f.c.toNat &&
  (f.mod &&& ~~~ sp.mod) == 0 && (f.imm &&& ~~~ sp.imm) == 0 &&
  (sp.lanes || (f.pred == 0 && !f.pn))

/-- The operand that an illegal encoding is reported against: the first specifier of a wrong file, else IMM where the fault lies in its
bits (the manual does not order the checks: DESIGN CHOICE). -/
def encodingOperand (sp : OpSpec) (f : Fields) : Nat :=
  if !sp.d.ok f.d.toNat then 1 else if !sp.a.ok f.a.toNat then 2 else if !sp.b.ok f.b.toNat then 3 else if !sp.c.ok f.c.toNat then 4
  else if (f.imm &&& ~~~ sp.imm) != 0 then 5
  else if (sp.cls == 0x01 || sp.cls == 0x02 || sp.cls == 0x03) && f.imm != 0 then 5 else 0

/-- The number of a register within its file. -/
def regNo (x : BitVec 8) : Nat :=
  if isS x.toNat then x.toNat else if isV x.toNat then x.toNat - 0x40 else if isA x.toNat then x.toNat - 0x60 else x.toNat - 0x70

/-! ## Faults (Table 3.13) -/

/-- What a fault reports: its code, the operand (0 none, 1 D, 2 A, 3 B, 4 C, 5 IMM, 6 fetch) and the value; with the
accumulation group and REASON of Table 4.4, or the slot, instruction index and REASON of Table 5.9. -/
structure FaultInfo where
  code : Nat
  operand : Nat
  val : Word64
  acc : Option (Nat × Nat) := none
  eprog : Option (Nat × Nat × Nat) := none
  deriving DecidableEq, Repr

namespace FaultCode
def illegalEncoding : Nat := 1
def illegalGroup : Nat := 2
def groupOverflow : Nat := 3
def operandRange : Nat := 4
def misaligned : Nat := 5
def ocRange : Nat := 6
def addrUnmapped : Nat := 7
def addrKind : Nat := 8
def accState : Nat := 9
def slotDiscipline : Nat := 10
def cndDenied : Nat := 11
def geyDenied : Nat := 12
def eprogInvalid : Nat := 13
def dataPoison : Nat := 14
def integrity : Nat := 15
end FaultCode

def faultClass (code : Nat) : Nat := if 14 ≤ code then clsPartition else clsOperation

/-! ## Waits (R95, R115 to R117, R222, R228) -/

/-- The group that waits is complete: its wait is satisfied and the array runs on. -/
def State.endWait (s : State) (n : Nat) : State :=
  ({ s with cnd := { s.cnd with waiters := s.cnd.waiters.filter fun x => x.arr != n } }.modArr n fun a =>
    match a.cur with
    | some g => { a with cur := none, done := a.done ++ [{ g with wait := none }] }
    | none => a).setArrState n stRunning

/-- Write the status of a satisfied wait to its register. -/
def State.waitResult (s : State) (n d v : Nat) : State := s.modArr n fun a => { a with ctx := a.ctx.sset d (dw v) }

/-- Mark an operand-cache line poisoned by data from HBM, or by an integrity failure (R128, R201, R208): it is reported, and the first
one is kept in ARR_OC_POISON. -/
def ocPoisonLine (s : State) (n line : Nat) : State :=
  let id := s.ident n
  let s1 := { s with mem := { s.mem with ocPoison := setBool s.mem.ocPoison (n * ocLines + line) true } }
  let s2 := s1.raise (srcArray n) id.part clsInfo 0x2008 (s.fabOc n (line * 64)) [w id.larray, w (line * 64 - s.ocFirst n), 2]
  if s2.flag (Fld.ARR_OC_POISON_VALID n) then s2
  else s2.setFs [(Fld.ARR_OC_POISON_VALID n, 1), (Fld.ARR_OC_POISON_LINE n, line)]

/-- Mark the lines that a taken entry will reach, where the entry was poisoned in its ring (R208: every read delivers poison; the manual
does not say what a take does with it, and the model marks the lines as OC.LOAD does: DESIGN CHOICE). -/
def State.poisonTaken (s : State) (n oc : Nat) (bad : Bool) : State :=
  if bad then (touchedLines oc 64).foldl (fun s l => ocPoisonLine s n l) s else s

/-- What a conduit can do for the first arrays that wait at it: a taker gets the entry at CONS, a poster gets a
credit; in the order they began to wait (R222). -/
def State.serveOne (s : State) (c : Nat) : Option State :=
  if s.cndHeld c then none
  else
    let (s, ok) := s.cndCheck c
    if !ok then some s
    else
    let x := s.cndGet c
    let able (k : CndWaiter) : Bool := k.cnd == c && (if k.take then decide (0 < x.occupied) else decide (0 < x.free))
    match s.cnd.waiters.find? able with
    | none => none
    | some k =>
      let n := k.arr
      match (s.arr n).cur with
      | none => none
      | some g =>
        match g.wait with
        | some (.take _ oc d) =>
          let e := s.cndHead c
          let s1 := ((s.poisonTaken n oc (s.cndHeadPoison c)).cndPop c).modArr n fun a => { a with
            cur := a.cur.map fun g => { g with writes := g.writes ++ [⟨oc, e⟩], taken := g.taken ++ [(c, e)] } }
          some ((s1.waitResult n d 1).endWait n)
        | some (.post _ e d) =>
          let s1 := (s.cndGrant c).modArr n fun a => { a with
            cur := a.cur.map fun g => { g with deferred := g.deferred ++ [.post c e], granted := g.granted ++ [c] } }
          some ((s1.waitResult n d 1).endWait n)
        | _ => none

/-- Serve the arrays that wait at a conduit, as far as its credits and entries go. -/
def State.serveConduit (s : State) (c : Nat) : State := go s (s.cnd.waiters.length)
where
  go (s : State) : Nat → State
    | 0 => s
    | k + 1 => match s.serveOne c with
      | some s1 => go s1 k
      | none => s

/-- Post an entry with a granted credit, and serve who waits for entries. -/
def State.postTo (s : State) (c : Nat) (e : List Byte) : State :=
  let (s, ok) := s.cndCheck c
  if ok then (s.cndPost c e).serveConduit c else s
/-- Return a granted credit, and serve who waits for credits. -/
def State.returnCredit (s : State) (c : Nat) : State :=
  let (s, ok) := s.cndCheck c
  if ok then (s.cndUngrant c).serveConduit c else s

/-- After a change of a geyser's count, satisfy every array whose GEY.WAIT it meets (R228). -/
def State.geyRecheck (s : State) (g : Nat) : State :=
  let count := s.getF (Fld.GEY_COUNT_COUNT g)
  (s.arrays.map Prod.fst).foldl (fun s n =>
    match (s.arr n).cur with
    | some gr => match gr.wait with
      | some (.gey g' v) => if g' = g ∧ v.toNat ≤ count then s.endWait n else s
      | _ => s
    | none => s) s

/-! ## Commit and release (R96, R97) -/

/-- BASE and COUNT_M1 of a partition's amax table as ENABLE found them: a change while ENABLE is 1 waits for the next
ENABLE (NUM_AMAX_CFG). -/
def State.amaxTable (s : State) (p : Nat) : Nat × Nat :=
  match s.amax.find? fun e => e.1 == p with
  | some e => e.2
  | none => (s.getF (Fld.NUM_AMAX_BASE_BASE p), s.getF (Fld.NUM_AMAX_CFG_COUNT_M1 p))
/-- The address of a record of the table (R314). -/
def State.amaxRecordAddr (s : State) (p i : Nat) : Nat := (s.amaxTable p).1 * 4096 + i * 128
def State.amaxRecordOk (s : State) (p i : Nat) : Bool := s.hbmRangeOk p (s.amaxRecordAddr p i) 128
def State.amaxCount (s : State) (p : Nat) : Nat := (s.amaxTable p).2 + 1
def State.amaxEnabled (s : State) (p : Nat) : Bool := s.flag (Fld.NUM_AMAX_CFG_ENABLE p)

/-- The step bank of a partition (R304). -/
def State.bankOf (s : State) (p : Nat) : Option Nat :=
  (List.range 4).find? fun j => s.flag (Fld.PRF_STEP_OWNER_VALID j) && s.getF (Fld.PRF_STEP_OWNER_PART j) == p

/-- The tag of the partition's open attempt (R315). -/
def State.openTag (s : State) (p : Nat) : Option Nat :=
  match s.bankOf p with
  | some j => if s.getF (Fld.PRF_STEP_STATUS_STATE j) = 1 then some (s.getF (Fld.PRF_STEP_TAG_TAG j)) else none
  | none => none

/-- A capture merges into its record (R315), whose FORMAT is 1 from then on (Table 9.3). -/
def State.amaxMerge (s : State) (p : Nat) (c : Capture) : State :=
  match c.record, s.openTag p with
  | none, _ => s
  | some _, none => s
  | some a, some tag =>
      let r := s.hbmRead p a 128
      let f (o n : Nat) : Nat := ofLe ((r.drop o).take n)
      let head := f 0x08 1 % 16
      let fresh := f 0x00 8 != tag
      let valid := if fresh then f 0x0A 2 - (if bits (f 0x0A 2) head 1 = 1 then 2 ^ head else 0) else f 0x0A 2
      let nonf0 := if fresh then f 0x0C 2 - (if bits (f 0x0C 2) head 1 = 1 then 2 ^ head else 0) else f 0x0C 2
      let nonf := if c.nonfinite && bits nonf0 head 1 == 0 then nonf0 + 2 ^ head else nonf0
      let mag0 := if fresh then 0 else f (0x40 + 4 * head) 4
      let mag := max mag0 c.mag.toNat
      let s1 := s.hbmWrite p a (toLe 8 tag)
      let s2 := s1.hbmWrite p (a + 0x09) (toLe 1 1 ++ toLe 2 valid ++ toLe 2 nonf)
      s2.hbmWrite p (a + 0x40 + 4 * head) (toLe 4 mag)

/-- Bytes of a completion record (Table 7.4). -/
structure RmoRecord where
  old : Nat
  addr : Nat
  length : Nat
  done : Nat
  opc : Nat
  status : Nat
  tag : Nat
  sourceKind : Nat
  larray : Nat
  retransmits : Nat
  tRelease : Nat
  tComplete : Nat
  detail : Nat

def RmoRecord.toBytes (r : RmoRecord) : List Byte :=
  toLe 8 r.old ++ toLe 8 r.addr ++ toLe 4 r.length ++ toLe 4 r.done ++ toLe 1 r.opc ++ toLe 1 r.status ++ toLe 2 r.tag ++
  toLe 1 r.sourceKind ++ toLe 1 r.larray ++ toLe 2 r.retransmits ++ toLe 8 r.tRelease ++ toLe 8 r.tComplete ++
  toLe 4 r.detail ++ toLe 1 1 ++ List.replicate 11 0

/-- Finish an operation at its completion word (R247, Table 3.8): its record is posted to the completion conduit in which it holds a
credit, if it holds one, unless ERR_ONLY suppresses an OK record; then GINC, from the conduit engine `eng`. -/
def State.completeCw (s : State) (eng : Nat) (cw : Word64) (cc : Option Nat) (ok : Bool) (rec : List Byte) : State :=
  let s1 := match cc with
    | some c => if fieldOf cw 20 1 = 1 ∧ ok then s.returnCredit c else s.postTo c rec
    | none => s
  if fieldOf cw 21 1 = 1 then s1.geyRelease (84 + eng) (fieldOf cw 22 16) 1 else s1

/-- The completion record of an operation whose remote-operation conduit is destroyed before it enters it: ABORTED with DETAIL 2
(R226, Table 7.5). -/
def abortedRecord (entry : List Byte) (now : Nat) : List Byte :=
  let f (o n : Nat) : Nat := ofLe ((entry.drop o).take n)
  RmoRecord.toBytes {
    old := 0, addr := f 8 8, length := f 4 4, done := 0, opc := f 0 1, status := 0x09, tag := f 0x2E 2,
    sourceKind := f 2 1, larray := f 3 1, retransmits := 0, tRelease := f 0x30 8, tComplete := now, detail := 2 }

/-- The 64 bytes of a remote-operation entry (Table 7.3); T_RELEASE is filled in at release. -/
def rmoBytes (opc flags kind larray len fabric loc operand compare cw ocloc : Nat) : List Byte :=
  toLe 1 opc ++ toLe 1 flags ++ toLe 1 kind ++ toLe 1 larray ++ toLe 4 len ++ toLe 8 fabric ++ toLe 8 loc ++ toLe 8 operand ++
  toLe 8 compare ++ toLe 8 cw ++ toLe 8 0 ++ toLe 2 ocloc ++ toLe 6 0

/-- An entry of Table 7.3 with its T_RELEASE. -/
def stampRelease (e : List Byte) (now : Nat) : List Byte := e.take 0x30 ++ toLe 8 now ++ e.drop 0x38

/-- Transfers whose ranges the range table holds (R120). -/
def Arr.rangeCount (a : Arr) : Nat := a.xfers.length + a.rmoRanges.length + (a.drains.filter Drain.toOc).length

/-- Post an entry to a remote-operation conduit, numbering the operation, which holds a credit in a completion conduit `cc`; `none`
while the conduit is held or has no free credit.  Whether the peer is reachable is judged now, at its release (R256). -/
def State.postRmo (s : State) (c : Nat) (e : List Byte) (src : RmoSrc) (cc : Option Nat) : Option State :=
  if s.cndHeld c || (s.cndGet c).free == 0 then none
  else
    let id := s.rmo.nextId
    let fate := if s.unreachableNow (entryDev e) then some (rsUnreachable, 0) else none
    let s1 := (s.cndGrant c).cndPost c (stampRelease e s.time)
    some { s1 with rmo := { s1.rmo with nextId := id + 1, queued := s1.rmo.queued ++ [RmoQueued.mk c id src cc s.time fate] } }

/-- A remote operation's entry is a GET into HBM, which writes it on the array's behalf (R242). -/
def getsIntoHbm (e : List Byte) : Bool := e.head? == some 1 && (e.getD 1 0).getLsbD 4

/-- Post an entry on behalf of array `n`, which tracks the operation and the operand-cache range it uses. -/
def State.enterRmo (s : State) (n c : Nat) (e : List Byte) (oc : Option (Nat × Nat × Bool)) (cc : Option Nat) : Option State :=
  let id := s.rmo.nextId
  let rs := match oc with
    | some (o, l, wr) => [(id, o, l, wr)]
    | none => []
  (s.postRmo c e (.array n) cc).map fun s1 =>
    s1.modArr n fun a => { a with
      rmoOut := a.rmoOut ++ [id], rmoRanges := a.rmoRanges ++ rs, hbmGets := a.hbmGets ++ if getsIntoHbm e then [id] else [] }

/-- Release one deferred operation of array `n`; `false` while it lacks a credit or a range-table entry.  An
operation whose remote-operation conduit is gone completes ABORTED; one whose completion conduit is gone completes
without a record. -/
def State.release1 (s : State) (n : Nat) (d : Deferred) : State × Bool :=
  match d with
  | .xfer x =>
    if (s.arr n).rangeCount < 16 then (s.modArr n fun a => { a with xfers := a.xfers ++ [x] }, true) else (s, false)
  | .post c e => if s.cndHeld c then (s, false) else (s.postTo c e, true)
  | .rmo e c cw oc =>
    let p := (s.ident n).part
    let cc := fieldOf cw 0 20
    let s := ((s.cndCheck cc).1.cndCheck c).1
    let hasRec := s.cndIs cc p 2
    if oc.isSome && decide (16 ≤ (s.arr n).rangeCount) then (s, false)
    else if hasRec && (s.cndHeld cc || (s.cndGet cc).free == 0) then (s, false)
    else
      let s0 := if hasRec then s.cndGrant cc else s
      let held := if hasRec then some cc else none
      if s0.cndIs c p 1 then
        match s0.enterRmo n c e oc held with
        | some s1 => (s1, true)
        | none => (s, false)
      else (s0.completeCw (s0.cndGet c).home cw held false (abortedRecord (stampRelease e s.time) s.time), true)

/-- Release deferred operations in order until one has to wait (R97). -/
def State.releaseAll (s : State) (n : Nat) : Nat → State
  | 0 => s
  | fuel + 1 =>
    match (s.arr n).released with
    | [] => s
    | d :: t =>
      match s.release1 n d with
      | (s1, false) => s1
      | (s1, true) => State.releaseAll (s1.modArr n fun a => { a with released := t }) n fuel

/-- Commit a group of array `n`: apply its buffered writes and captures, set its flags, release its deferred
operations in program order, and count it (R96, R98, R187). -/
def State.commitGroup (s : State) (n : Nat) (g : Group) : State :=
  let id := s.ident n
  let s1 := g.writes.foldl (fun s wr => s.ocWrite n wr.off wr.data) s
  let s2 := g.captures.foldl (fun s c => s.amaxMerge id.part c) s1
  let s3 := g.flags.foldl (fun s f => s.numFlags (srcArray n) id.part (some id.larray) f.kind f.time f.flags) s2
  let bump (c : Ctx) : Ctx := { c with groups := c.groups + 1 }
  let s4 := s3.modArr n fun a => { a with
    ctx := bump a.ctx
    cur := a.cur.map fun g => { g with checkpoint := bump g.checkpoint }
    done := a.done.map fun g => { g with checkpoint := bump g.checkpoint }
    released := a.released ++ g.deferred
    stopReq := g.onCommit <|> a.stopReq }
  let s5 := s4.incF (Fld.ARR_GROUPS_COUNT n) 1
  s5.releaseAll n (s5.arr n).released.length

/-- The first instruction of the oldest uncommitted group (ARR_PC). -/
def Arr.oldestPc (a : Arr) : Nat :=
  match a.done with
  | g :: _ => g.startPc
  | [] => match a.cur with | some g => g.startPc | none => a.pc

def State.syncPc (s : State) (n : Nat) : State := s.setF (Fld.ARR_PC_PC n) ((s.arr n).oldestPc / 16)

/-- Commit the oldest ended group, if there is one and no release of an earlier group waits (R97). -/
def State.commitOldest (s : State) (n : Nat) : State :=
  match (s.arr n).done with
  | [] => s
  | g :: t => if (s.arr n).released.isEmpty then ((s.modArr n fun a => { a with done := t }).commitGroup n g).syncPc n else s

/-! ## Abandoning and faulting (R101, R103, R222) -/

/-- Give back what an uncommitted group holds outside the array: granted credits return to FREE, and claimed entries
stay claimed by the context, before those it claimed later (R222). -/
def State.giveBack (s : State) (n : Nat) (g : Group) : State :=
  let id := s.ident n
  let s1 := g.granted.foldl (fun s c => s.returnCredit c) s
  { s1 with claims := (g.taken.map fun e => ⟨id.part, id.larray, e.1, e.2⟩) ++ s1.claims }

/-- Give back what every uncommitted group of an array holds. -/
def State.giveBackAll (s : State) (n : Nat) : State :=
  let a := s.arr n
  (a.done ++ a.cur.toList).reverse.foldl (fun s g => s.giveBack n g) s

/-- A checkpoint's registers; CYCLES goes on counting (the manual does not say whether it goes back with a checkpoint: DESIGN CHOICE). -/
def Ctx.restored (checkpoint now : Ctx) : Ctx := { checkpoint with cycles := now.cycles }

/-- Abandon the group being issued: registers as at its start, nothing of it kept. -/
def State.abandonCur (s : State) (n : Nat) : State :=
  match (s.arr n).cur with
  | none => s
  | some g =>
    let s1 := s.giveBack n g
    { s1.modArr n fun a => { a with cur := none, ctx := g.checkpoint.restored a.ctx, pc := g.startPc } with
      cnd := { s1.cnd with waiters := s1.cnd.waiters.filter fun x => x.arr != n } }

/-- Post ARRAY_STOPPED and stop with a reason (R107, Table 3.14). -/
def State.arrStop (s : State) (n reason brk : Nat) : State :=
  let id := s.ident n
  ((s.setFs [(Fld.ARR_STATUS_STATE n, stStopped), (Fld.ARR_STATUS_REASON n, reason)]).modArr n fun a =>
    { a with stopReq := none, stopBit := false, stepping := false }).raise (srcArray n) id.part clsInfo 0x2003 0
      [w id.larray, w reason, w brk]

/-- Record a fault (R129): registers of ARR, ARRAY_FAULT, and for a PARTITION-class fault its effect on the
partition. -/
def State.reportFault (s : State) (n cls op index : Nat) (startPc : Nat) (fi : FaultInfo) : State :=
  let id := s.ident n
  let s1 := s.setFs [(Fld.ARR_FAULT_VALID n, 1), (Fld.ARR_FAULT_CODE n, fi.code), (Fld.ARR_FAULT_INDEX n, index),
    (Fld.ARR_FAULT_OPERAND n, fi.operand), (Fld.ARR_FAULT_CLASS n, cls), (Fld.ARR_FAULT_OP n, op),
    (Fld.ARR_FAULT_VAL_VALUE n, fi.val.toNat), (Fld.ARR_STATUS_STATE n, stFaulted)]
  let s2 := match fi.acc with
    | some (g, r) => s1.setFs [(Fld.ARR_ACC_FAULT_GROUP n, g), (Fld.ARR_ACC_FAULT_REASON n, r)]
    | none => s1
  let s3 := match fi.eprog with
    | some (slot, idx, r) => s2.setFs [(Fld.ARR_EPROG_ERR_VALID n, 1), (Fld.ARR_EPROG_ERR_SLOT n, slot),
        (Fld.ARR_EPROG_ERR_INDEX n, idx), (Fld.ARR_EPROG_ERR_REASON n, r)]
    | none => s2
  let s4 := s3.raise (srcArray n) id.part (faultClass fi.code) 0x2001 0
    ([w (fi.code + index * 256 + fi.operand * 8192), w id.larray] ++ w2 (dw startPc) ++ w2 fi.val ++ [w (cls * 64 + op)])
  if faultClass fi.code = clsPartition then s4.partitionStop id.part else s4

/-- The manual gives the fault no register value or address: an encoding, an instruction that had to be the last of its group, a group's
total, a slot discipline, an element program. -/
def FaultInfo.valueOpen (fi : FaultInfo) : Bool :=
  fi.code == FaultCode.illegalEncoding || (fi.code == FaultCode.illegalGroup && fi.operand == 0) || fi.code == FaultCode.groupOverflow ||
  fi.code == FaultCode.slotDiscipline || fi.code == FaultCode.eprogInvalid

/-- Commit every group that is older than the one being issued, as far as releases of earlier groups allow (R97). -/
def State.commitOlder (s : State) (n : Nat) : State := (s.commitOldest n).commitOldest n

/-- Fault the group being issued (R103, R129): older groups commit, the faulting group leaves nothing.  While an older group cannot
commit yet, because a release of the group before it still waits (R97), the fault is not taken: the group's last instruction counts
as not issued, and is met again. -/
def State.arrFaultVal (s : State) (n cls op index : Nat) (fi : FaultInfo) : State :=
  let s0 := s.commitOlder n
  if !(s0.arr n).done.isEmpty then s
  else
    let start := match (s0.arr n).cur with | some g => g.startPc | none => (s0.arr n).pc
    let s1 := (s0.abandonCur n).syncPc n
    (s1.reportFault n cls op index start fi).modArr n fun a => { a with stopReq := none, stopBit := false, stepping := false }
/-- The same; a value that the manual leaves open is a free value. -/
def State.arrFault (s : State) (n cls op index : Nat) (fi : FaultInfo) : State :=
  if fi.valueOpen then let (x, s1) := s.draw; s1.arrFaultVal n cls op index { fi with val := x } else s.arrFaultVal n cls op index fi

/-! ## Stopping at a group boundary (R107, R123, R130) -/

/-- The operations that a HALT waits for have completed. -/
def Arr.quiet (a : Arr) : Bool := a.released.isEmpty && a.xfers.isEmpty && a.rmoOut.isEmpty
/-- Nothing at all of the array is in flight. -/
def Arr.idle (a : Arr) : Bool := a.quiet && a.mma.isEmpty && a.drains.isEmpty

/-- Carry out a stop that is due (R107, R123, R130, R233): at a group boundary a BRK, the end of a STEP or a HALT that a committed
group asks for, or else a STOP, which also abandons a group that waits.  A HALT that meets a set wake latch clears it and does not
stop. -/
def State.trySettle (s : State) (n : Nat) : State :=
  let a := s.arr n
  let id := s.ident n
  let atWait := match a.cur with | some g => g.wait.isSome | none => false
  if (s.arrState n ≠ stRunning ∧ s.arrState n ≠ stWaiting) || !a.done.isEmpty || (a.cur.isSome && !(atWait && a.stopBit)) then s
  else
    let stop (s : State) : State := if a.stopBit then ((s.abandonCur n).syncPc n).arrStop n 2 0 else s
    match a.stopReq with
    | none => stop s
    | some .step => (s.syncPc n).arrStop n 4 0
    | some (.brk code) => if a.quiet then (s.syncPc n).arrStop n 3 code else s
    | some .halt =>
      if !a.quiet then s
      else if getBool s.gey.wake (wakeKey id.part id.larray) then
        let s1 := (({ s with gey := { s.gey with wake := setBool s.gey.wake (wakeKey id.part id.larray) false } }.setF
          (Fld.ARR_WAKE_LATCH n) 0).modArr n fun a => { a with stopReq := none })
        if a.stepping then (s1.syncPc n).arrStop n 4 0 else stop s1
      else (s.syncPc n).arrStop n 1 0

/-! ## Fences (R117) -/

/-- Deferred operations of an array that have not been carried out. -/
def Arr.deferredAll (a : Arr) : List Deferred :=
  a.released ++ a.done.flatMap Group.deferred ++ (match a.cur with | some g => g.deferred | none => [])

/-- Every earlier operation of the array in the scopes has finished (Table 3.9). -/
def Arr.fenceDone (a : Arr) (scopes : Nat) : Bool :=
  let ds := a.deferredAll
  let sc (i : Nat) : Bool := bits scopes i 1 == 1
  (!sc 0 || (a.xfers.isEmpty && a.rmoRanges.isEmpty && ds.all fun d => match d with
    | .xfer _ => false
    | .rmo _ _ _ (some _) => false
    | _ => true)) &&
  (!sc 1 || ((a.xfers.all fun x => x.kind == .load || x.kind == .pref) && (a.drains.all fun d => d.toOc) && a.hbmGets.isEmpty &&
    ds.all fun d => match d with
      | .xfer x => x.kind == .load || x.kind == .pref
      | .rmo e _ _ _ => !getsIntoHbm e
      | .post _ _ => true)) &&
  (!sc 2 || (a.rmoOut.isEmpty && ds.all fun d => match d with | .xfer _ => true | _ => false)) &&
  (!sc 3 || (a.mma.isEmpty && a.drains.isEmpty))

/-- Satisfy a FENCE whose operations have finished. -/
def State.recheckFence (s : State) (n : Nat) : State :=
  match (s.arr n).cur with
  | some g => match g.wait with
    | some (.fence sc) => if (s.arr n).fenceDone sc then s.endWait n else s
    | _ => s
  | none => s

/-! ## Preemption (R123, R124, R130) -/

/-- Carry out a pending switch: at a group boundary, with nothing of the outgoing context in flight, the array is SWITCHING; a group that
waits is abandoned (R123).  The images are written and read with the restore (R124, R126). -/
def State.trySwitch (s : State) (n : Nat) : State :=
  let a := s.arr n
  let atWait := match a.cur with | some g => g.wait.isSome | none => false
  if a.switchReq.isNone || s.arrState n == stSwitching || s.arrState n == stRetired || !a.done.isEmpty || (a.cur.isSome && !atWait) then s
  else
    let left := match a.cur with | some g => g.wait | none => none
    let s1 := if atWait then (((s.abandonCur n).setArrState n stRunning).syncPc n).modArr n fun a => { a with leftWait := left } else s
    if !(s1.arr n).idle then s1
    else (s1.modArr n fun a => { a with was := s1.arrState n }).setArrState n stSwitching

/-- What may follow a completion in array `n`: a fence is satisfied, a stop or a switch that is due takes effect. -/
def State.poke (s : State) (n : Nat) : State := ((s.recheckFence n).trySettle n).trySwitch n

/-! ## Operand-cache access of an array (R86, R98, R119, R120) -/

/-- The buffered writes of an array's uncommitted groups, oldest first. -/
def Arr.buffered (a : Arr) : List OcWrite :=
  (a.done.flatMap Group.writes) ++ (match a.cur with | some g => g.writes | none => [])

/-- Bytes of the operand cache as the array's own instructions see them (R119). -/
def State.ocView (s : State) (n off len : Nat) : List Byte :=
  let base := s.ocRead n off len
  (s.arr n).buffered.foldl (fun l wr =>
    l.zipIdx.map fun e =>
      let x := off + e.2
      if wr.off ≤ x ∧ x < wr.off + wr.data.length then wr.data.getD (x - wr.off) 0 else e.1) base

/-- The first poisoned line in a range that no buffered write covers whole. -/
def State.ocViewPoison (s : State) (n off len : Nat) : Option Nat :=
  (touchedLines off len).find? fun k =>
    getBool s.mem.ocPoison (n * ocLines + k) &&
    !((s.arr n).buffered.any fun wr => decide (wr.off ≤ k * 64) && decide (k * 64 + 64 ≤ wr.off + wr.data.length))

/-- Bytes of a drained row (R153). -/
def Drain.rowBytes (d : Drain) : Nat := d.cols * (if d.target = 0 ∨ d.target = 10 then 4 else 2)
/-- The operand-cache ranges that a drain writes. -/
def Drain.ocRanges (d : Drain) : List (Nat × Nat) :=
  if d.toOc then (List.range d.rows).map fun r => (d.addr + r * d.stride, d.rowBytes) else []

/-- Ranges that an in-flight transfer writes, and reads (R120); OC.EVICT counts as both. -/
def Arr.writeRanges (a : Arr) : List (Nat × Nat) :=
  (a.xfers.filterMap fun x => match x.kind with
    | .load | .pref | .evict => some (x.oc, x.row * x.rows)
    | .store => none) ++
  (a.rmoRanges.filterMap fun r => if r.2.2.2 then some (r.2.1, r.2.2.1) else none) ++
  a.drains.flatMap Drain.ocRanges
def Arr.readRanges (a : Arr) : List (Nat × Nat) :=
  (a.xfers.filterMap fun x => match x.kind with
    | .store | .evict => some (x.oc, x.row * x.rows)
    | _ => none) ++
  (a.rmoRanges.filterMap fun r => if r.2.2.2 then none else some (r.2.1, r.2.2.1))

def meets (l : List (Nat × Nat)) (r : Nat × Nat) : Bool := l.any fun x => overlaps x.1 x.2 r.1 r.2

/-- What a synchronous access to operand-cache ranges meets: nothing, a wait for a transfer, or an overlap that R100
makes a fault. -/
inductive Access where
  | ok | stall | illegal
  deriving DecidableEq, Repr

def Arr.access (a : Arr) (reads writes : List (Nat × Nat)) : Access :=
  let gw := match a.cur with | some g => g.xferWrites | none => []
  let ge := match a.cur with | some g => g.xferClears | none => []
  let gr := match a.cur with | some g => g.xferReads | none => []
  if (reads ++ writes).any (meets gw) || writes.any (meets (gr ++ ge)) then .illegal
  else
    let dw := (a.done.flatMap fun g => g.xferWrites ++ g.xferClears) ++ a.released.filterMap fun d => match d with
      | .xfer x => if x.kind == .store then none else some (x.oc, x.row * x.rows)
      | .rmo _ _ _ (some (o, l, true)) => some (o, l)
      | _ => none
    let dr := (a.done.flatMap Group.xferReads) ++ a.released.filterMap fun d => match d with
      | .xfer x => if x.kind == .load || x.kind == .pref then none else some (x.oc, x.row * x.rows)
      | .rmo _ _ _ (some (o, l, false)) => some (o, l)
      | _ => none
    if (reads ++ writes).any (meets (dw ++ a.writeRanges)) || writes.any (meets (dr ++ a.readRanges)) then .stall
    else .ok

/-! ## Upset counts and the retirement of an array (R42, R354, R355) -/

/-- Keys of the upset counts: per array its replays, corrected lines, uncorrectable lines and failed recomputations;
per pseudo-channel corrected errors and poisoned lines; per lane its charged retrains. -/
def keyReplay (n : Nat) : Nat := 4 * n
def keyEcc (n : Nat) : Nat := 4 * n + 1
def keyUe (n : Nat) : Nat := 4 * n + 2
def keyRecomp (n : Nat) : Nat := 4 * n + 3
def keyPcCe (st pc : Nat) : Nat := 1000 + 2 * (64 * st + pc)
def keyPcUe (st pc : Nat) : Nat := 1000 + 2 * (64 * st + pc) + 1
def keyLane (l : Nat) : Nat := 4000 + l

def natDefault : Nat → Nat := fun _ => 0
def State.upsets (s : State) (k : Nat) : Nat := Sparse.get natDefault s.ret.upsets k
def State.countUpset (s : State) (k : Nat) : State :=
  { s with ret := { s.ret with upsets := Sparse.set natDefault s.ret.upsets k (s.upsets k + 1) } }
/-- A count that has reached its threshold (Table 10.5). -/
def State.upsetDue (s : State) (k thr : Nat) : Bool := decide (0 < s.upsets k) && decide (thr ≤ s.upsets k)

/-- A threshold of Table 10.5 is reached in the present window. -/
def State.retireDue (s : State) (n : Nat) : Bool :=
  s.upsetDue (keyReplay n) (s.getF Fld.LOG_THR0_ARRAY_REPLAY) || s.upsetDue (keyEcc n) (s.getF Fld.LOG_THR0_ARRAY_ECC) ||
  s.upsetDue (keyUe n) (s.getF Fld.LOG_THR0_ARRAY_UE) || s.upsetDue (keyRecomp n) 1

/-- Discard the claims of a context: each is counted in its conduit's DROPPED and reported (R222). -/
def State.dropClaims (s : State) (n : Nat) (id : CtxId) : State :=
  let mine (c : Claim) : Bool := c.part == id.part && c.larray == id.larray
  let cs := (s.claims.filter mine).map Claim.cnd
  let s1 := { s with claims := s.claims.filter fun c => !mine c }
  cs.dedup.foldl (fun s c =>
    let k := cs.count c
    ((s.cndCheck c).1.cndDrop c k).raise (srcArray n) id.part clsInfo 0x3005 0 [w c, w id.larray, w k]) s1

/-- The spares of a quadrant that stand free (R15, R16): shipped as spares, not retired, not standing in for a retired array, and with no
context mapped. -/
def State.freeSpares (s : State) (q : Nat) : List Nat :=
  ((List.range 36).map (36 * q + ·)).filter fun m =>
    Config.fuseArray m == 1 && s.arrState m != stRetired && !(s.contexts.any fun c => c.phys == m) && !s.ret.used.contains m

/-- A context is on an array: one that firmware mapped, or partition 0's while it runs or stands (log entry 12). -/
def State.arrBusy (s : State) (n : Nat) : Bool :=
  (s.arr n).ident.isSome || (s.arrState n != stIdle && s.arrState n != stRetired)
/-- The partition that a record about an array as such concerns: that of the context on it, or the device as a whole. -/
def State.arrPart (s : State) (n : Nat) : Nat := if s.arrBusy n then (s.ident n).part else wholeDevice

/-- Retire an array: what it held is lost, its logical arrays wait for ARRAY_REFILL, and UNIT_RETIRED names the spare
that replaces it (R42, R103, R161, R193, R199, R222, R233, R355).  The record follows the last CORRECTED record of the array in that
record's stream (R42), so it concerns the same partition.  What groups that had committed still wait to release is released in its turn;
its operand-cache transfers are lost with the cache. -/
def State.retireArray (s : State) (n : Nat) : State :=
  if s.arrState n = stRetired then s
  else
    let a := s.arr n
    let id := s.ident n
    let s1 := (s.giveBackAll n).abortRetired n
    let s2 := s1.dropClaims n id
    let q := n / 36
    let spare := (s2.freeSpares q).head?
    let held := s2.contexts.filter fun c => c.phys == n
    let lost (c : CtxInfo) : CtxInfo := if a.ident = some c.id then { c with saved := false } else c
    let s3 := held.foldl (fun s c => s.setF (Fld.PRT_LMAP_VALID c.id.part c.id.larray) 0) s2
    let s4 := { s3 with
      contexts := s3.contexts.filter fun c => c.phys != n
      parked := s3.parked.filter fun k => k.phys != n
      cnd := { s3.cnd with waiters := s3.cnd.waiters.filter fun x => x.arr != n }
      gey := { s3.gey with wake := setBool s3.gey.wake (wakeKey id.part id.larray) false }
      ret := { s3.ret with
        used := s3.ret.used ++ spare.toList
        list := s3.ret.list ++ [(n / 4, n % 4)]
        refill := s3.ret.refill ++ held.map fun c => Refill.mk (lost c) spare n s.time } }
    let rest : Arr := { Arr.initial with
      ident := a.ident, rmoOut := a.rmoOut, hbmGets := a.hbmGets
      released := a.released.filter fun d => match d with | .xfer _ => false | _ => true }
    let s5 := (s4.setArr n rest).setF (Fld.ARR_STATUS_STATE n) stRetired
    let s6 := match spare with
      | some _ => s5.setFs [(Fld.TOP_CAPS_SPARES, s5.getF Fld.TOP_CAPS_SPARES - 1),
          (Fld.TOP_CAPS_SPARE_MIN_Q, min (s5.getF Fld.TOP_CAPS_SPARE_MIN_Q) ((s5.freeSpares q).length))]
      | none => s5.setF Fld.TOP_CAPS_ARRAYS_IN_SERVICE (s5.getF Fld.TOP_CAPS_ARRAYS_IN_SERVICE - 1)
    let s7 := s6.raise (srcArray n) (s.arrPart n) clsRetired 0x0004 0
      [w (n / 4), w (n % 4), match spare with | some m => w m | none => 0xFFFFFFFF#32]
    if spare.isSome then s7
    else if s7.getF Fld.TOP_CAPS_ARRAYS_IN_SERVICE = 0 then s7.fallToMinimal 3
    else s7.fallToDegraded 0

def State.retireIfDue (s : State) (n : Nat) : State := if s.retireDue n then s.retireArray n else s

/-! ## Issue -/

/-- What an instruction's own meaning answers: a fault, a wait for an interlock (nothing happens and the instruction
has not issued), or the state after its effect; the group is open in that state. -/
inductive Sem where
  | fault (fi : FaultInfo)
  /-- A fault met after checks (ECC outcomes) that keep their effect. -/
  | faultAt (s : State) (fi : FaultInfo)
  | stall
  | done (s : State)

/-- Open the group being issued, if none is: its checkpoint is the register state now (R94, R96). -/
def State.openGroup (s : State) (n : Nat) : State :=
  s.modArr n fun a => match a.cur with
    | some _ => a
    | none => { a with cur := some {
        startPc := a.pc, count := 0, lastCls := 0, lastOp := 0, lastPc := a.pc,
        checkpoint := a.ctx, writes := [], wbytes := 0, deferred := [], captures := [], flags := [], xferWrites := [],
        xferReads := [], xferClears := [], taken := [], granted := [], wait := none, onCommit := if a.stepping then some .step else none } }

/-- Change the group being issued. -/
def State.modGroup (s : State) (n : Nat) (f : Group → Group) : State :=
  s.modArr n fun a => { a with cur := a.cur.map f }
/-- Change the context on an array. -/
def State.modCtx (s : State) (n : Nat) (f : Ctx → Ctx) : State := s.modArr n fun a => { a with ctx := f a.ctx }

/-- Raise numeric flags of an operation of a group that has committed: in NSTAT, which no replay takes back (R78). -/
def State.raiseStat (s : State) (n : Nat) (f : Flags) : State :=
  let up (g : Group) : Group := { g with checkpoint := g.checkpoint.raise f }
  s.modArr n fun a => { a with ctx := a.ctx.raise f, cur := a.cur.map up, done := a.done.map up }

/-- Raise numeric flags of the instruction being issued: in NSTAT at once, in NUM_FLAGS at its group's commit (R78). -/
def State.raiseNum (s : State) (n kind : Nat) (f : Flags) : State :=
  if f = 0 then s
  else (s.modCtx n fun c => c.raise f).modGroup n fun g => { g with flags := g.flags ++ [⟨f, kind, s.time⟩] }

/-- The instruction cache holds the instruction at the array's PC. -/
def Arr.cached (a : Arr) : Option (BitVec 128) := (a.icache.find? fun e => e.1 == a.pc).map Prod.snd

/-- What bars the fetch of the instruction at PC from HBM (R29, R128, R441); one that the instruction cache holds is not fetched again
(R87). -/
def State.fetchFault (s : State) (n : Nat) : Option FaultInfo :=
  let a := s.arr n
  let p := (s.ident n).part
  if a.cached.isSome then none
  else if !s.hbmRangeOk p a.pc 16 then
    some ⟨match localKind a.pc with | .hbm | .unmapped => FaultCode.addrUnmapped | _ => FaultCode.addrKind, 6, dw a.pc, none, none⟩
  else if s.hbmPoisoned p a.pc 16 then some ⟨FaultCode.dataPoison, 6, dw a.pc, none, none⟩
  else if s.hbmBadTag p a.pc 16 then some ⟨FaultCode.integrity, 6, dw a.pc, none, none⟩
  else none

/-- The instruction word at PC: from the instruction cache, or from HBM (R87, R88). -/
def State.fetchWord (s : State) (n : Nat) : BitVec 128 :=
  match (s.arr n).cached with
  | some x => x
  | none => BitVec.ofNat 128 (ofLe (s.hbmRead (s.ident n).part (s.arr n).pc 16))

/-- The word enters the instruction cache, which keeps every word until START, RESUME or a restore invalidates it (R87: a write to program
text takes effect only then; what the cache's 64 KiB do not hold is fetched again, which the model does not show: DESIGN CHOICE). -/
def State.fetched (s : State) (n : Nat) : State :=
  if (s.arr n).cached.isSome then s else s.modArr n fun a => { a with icache := (a.pc, s.fetchWord n) :: a.icache }

/-- The checks of group and encoding, in this order; `extra` is the operation's own encoding rule. -/
def issueCheck (sp : OpSpec) (f : Fields) (extra : Bool) : Option FaultInfo :=
  if !(encodingOk sp f && extra) then some ⟨FaultCode.illegalEncoding, encodingOperand sp f, 0, none, none⟩
  else if sp.last && !f.ge then some ⟨FaultCode.illegalGroup, 0, 0, none, none⟩
  else none

/-- A new group may issue on the array: no stop or switch is pending, none comes with the commit of the group before it (a HALT, a BRK
or the end of a STEP), and at most one older group is in flight (R99, R107, R123). -/
def Arr.mayIssue (a : Arr) : Bool :=
  match a.cur with
  | some g => g.wait.isNone
  | none => a.stopReq.isNone && !a.stopBit && a.switchReq.isNone && decide (a.done.length ≤ 1) && a.done.all fun g => g.onCommit.isNone

/-- Array cycles for which an instruction occupies the vector engine (Table 3.10, R182); an EPROG.RUN counts its own
(R198).  A tile conversion that does not fill its last 256 elements occupies a whole cycle for them. -/
def vecCycles (c : Ctx) (sp : OpSpec) (f : Fields) : Nat :=
  match sp.cls with
  | 0x05 => 1
  | 0x0C => if 0x10 ≤ sp.op ∧ sp.op ≤ 0x15 then 4 else 1
  | 0x0D => if 4 ≤ sp.op then f.imm.toNat % 512 else 1
  | 0x0E => 2
  | 0x0F => if sp.op = 0 then 1 else ceilDiv (c.sget f.c.toNat).toNat 256
  | 0x10 => if sp.op = 0 then 1 else 0
  | 0x11 => 2
  | _ => 0

/-- After an instruction took effect: count it in its group, move past it unless it set the program counter, and end
its group where GE is 1 (R94). -/
def State.retire (s : State) (n : Nat) (sp : OpSpec) (f : Fields) (pc : Option Nat) : State :=
  let s1 := s.modArr n fun a => { a with
    cur := a.cur.map fun g => { g with count := g.count + 1, lastCls := sp.cls, lastOp := sp.op, lastPc := a.pc }
    pc := match pc with | some t => t | none => a.pc + 16 }
  let s2 := s1.incF (Fld.ARR_VEC_BUSY_CYCLES n) (vecCycles (s1.arr n).ctx sp f)
  if f.ge then
    s2.modArr n fun a => match a.cur with
      | some g => if g.wait.isSome then a else { a with cur := none, done := a.done ++ [g] }
      | none => a
  else s2

/-- Fault the instruction that could not be fetched: it has no CLASS and OP to report, and those are free values. -/
def State.fetchFaulted (s : State) (n index : Nat) (fi : FaultInfo) : State :=
  let (x, s1) := s.draw
  let (y, s2) := s1.draw
  s2.arrFaultVal n (x.toNat % 64) (y.toNat % 64) index fi

/-- Issue one instruction on array `n` (R87, R92 to R95, R99, R103): where the array is not running, or may not start another
group, or the instruction has to wait for an interlock, nothing happens and it has not issued.  The word at PC decides: a reserved CLASS or
OP faults, and where the word is another instruction than the command's, the array does not issue the command's (DESIGN CHOICE, log entry
2). -/
def issue (n : Nat) (sp : OpSpec) (f : Fields) (extra : Bool) (sem : State → Sem) (pcOf : State → Option Nat)
    (after : State → State) (s : State) : Host.Outcome State Fault Refusal :=
  if 144 ≤ n then .fault (.noSuchUnit n)
  else if s.arrState n ≠ stRunning ∨ s.domainRuns (n / 4) = false then .next s
  else if !(s.arr n).mayIssue then .next (s.poke n)
  else
    let s0 := s.openGroup n
    let g := (s0.arr n).cur
    let full := match g with | some g => decide (32 ≤ g.count) | none => false
    if full then
      match g with
      | some g => .next ((s0.arrFaultVal n g.lastCls g.lastOp 31 ⟨FaultCode.illegalGroup, 0, dw g.lastPc, none, none⟩).poke n)
      | none => .next s
    else
      let index := match g with | some g => g.count | none => 0
      match s.fetchFault n with
      | some fi => .next ((s0.fetchFaulted n index fi).poke n)
      | none =>
        let word := s.fetchWord n
        let s1 := s0.fetched n
        if !wordKnown word then
          .next ((s1.arrFault n (wordClass word) (wordOp word) index ⟨FaultCode.illegalEncoding, 0, 0, none, none⟩).poke n)
        else if word ≠ f.word sp.cls sp.op then .next (s.fetched n)
        else
          match issueCheck sp f extra with
          | some fi => .next ((s1.arrFault n sp.cls sp.op index fi).poke n)
          | none =>
            match sem s1 with
            | .fault fi => .next ((s1.arrFault n sp.cls sp.op index fi).poke n)
            | .faultAt s2 fi => .next (((s2.arrFault n sp.cls sp.op index fi).poke n).retireIfDue n)
            | .stall => .next (s.fetched n)
            | .done s2 => .next ((after (s2.retire n sp f (pcOf s1))).retireIfDue n)

/-- An instruction that only computes: no jump, nothing after. -/
def issueSimple (n : Nat) (sp : OpSpec) (f : Fields) (extra : Bool) (sem : State → Sem) (s : State) :
    Host.Outcome State Fault Refusal := issue n sp f extra sem (fun _ => none) (fun s => s) s

end Sys2Proof.Machine
end

