-- ==== Sys2Proof/Machine/ArrayScalar.lean ====
section
/-! DEFINITION. The Runen classes CTL, INT, ADR and SRG: branches, scalar and address arithmetic, special registers
(R84, R85, R105 to R107, R167; Table 3.7). -/
namespace Sys2Proof.Machine

/-! ## Class CTL -/

def ctlSpec (op : Nat) (a b : Role) (imm : BitVec 64) (last : Bool) : OpSpec :=
  { cls := 0, op, d := .none, a, b, c := .none, mod := 0, imm, last, lanes := false }

/-- A branch target: a signed count of instructions relative to the branch (R106). -/
def branchTarget (s : State) (n : Nat) (f : Fields) : Nat := (dw (s.arr n).pc + f.imm * 16).toNat

/-- A conditional branch: the target where the condition holds. -/
def branch (n op : Nat) (f : Fields) (cond : Word64 → Word64 → Bool) (s : State) : Host.Outcome State Fault Refusal :=
  issue n (ctlSpec op .s .s (BitVec.allOnes 64) true) f true .done
    (fun s => let c := (s.arr n).ctx
      if cond (c.sget f.a.toNat) (c.sget f.b.toNat) then some (branchTarget s n f) else none) (fun s => s) s

def execNop (n : Nat) (f : Fields) (s : State) : Host.Outcome State Fault Refusal := live s <|
  issueSimple n (ctlSpec 0x00 .none .none 0 false) f true .done s
def execJmp (n : Nat) (f : Fields) (s : State) : Host.Outcome State Fault Refusal := live s <|
  issue n (ctlSpec 0x01 .none .none (BitVec.allOnes 64) true) f true .done (fun s => some (branchTarget s n f)) (fun s => s) s
/-- A target that is not a multiple of 16 faults MISALIGNED (R106). -/
def execJmpr (n : Nat) (f : Fields) (s : State) : Host.Outcome State Fault Refusal := live s <|
  issue n (ctlSpec 0x02 .s .none 0 true) f true
    (fun s => let t := (s.arr n).ctx.sget f.a.toNat
      if t.toNat % 16 = 0 then .done s else .fault ⟨FaultCode.misaligned, 2, t, none, none⟩)
    (fun s => some ((s.arr n).ctx.sget f.a.toNat).toNat) (fun s => s) s
def execBrEq (n : Nat) (f : Fields) (s : State) : Host.Outcome State Fault Refusal := live s <| branch n 0x03 f (fun x y => x == y) s
def execBrNe (n : Nat) (f : Fields) (s : State) : Host.Outcome State Fault Refusal := live s <| branch n 0x04 f (fun x y => x != y) s
def execBrLt (n : Nat) (f : Fields) (s : State) : Host.Outcome State Fault Refusal := live s <| branch n 0x05 f (fun x y => x.slt y) s
def execBrGe (n : Nat) (f : Fields) (s : State) : Host.Outcome State Fault Refusal := live s <| branch n 0x06 f (fun x y => y.sle x) s
def execBrLtu (n : Nat) (f : Fields) (s : State) : Host.Outcome State Fault Refusal := live s <| branch n 0x07 f (fun x y => x.ult y) s
def execBrGeu (n : Nat) (f : Fields) (s : State) : Host.Outcome State Fault Refusal := live s <| branch n 0x08 f (fun x y => y.ule x) s

/-- HALT, BRK: the stop takes effect once the group has committed (R107). -/
def stopAtCommit (n : Nat) (r : StopReq) (s : State) : Sem := .done (s.modGroup n fun g => { g with onCommit := some r })
def execHalt (n : Nat) (f : Fields) (s : State) : Host.Outcome State Fault Refusal := live s <|
  issueSimple n (ctlSpec 0x09 .none .none 0 true) f true (stopAtCommit n .halt) s
def execBrk (n : Nat) (f : Fields) (s : State) : Host.Outcome State Fault Refusal := live s <|
  issueSimple n (ctlSpec 0x0A .none .none 0xFFFF true) f true (stopAtCommit n (.brk f.imm.toNat)) s
/-- YIELD ends its group; a pending preemption already keeps the next group from issuing (R107, R123). -/
def execYield (n : Nat) (f : Fields) (s : State) : Host.Outcome State Fault Refusal := live s <|
  issueSimple n (ctlSpec 0x0B .none .none 0 true) f true .done s

/-! ## Class INT (R105) -/

def intSpec (op : Nat) : OpSpec :=
  { cls := 1, op, d := .s, a := .s, b := .s, c := .none, mod := 1, imm := BitVec.allOnes 64, last := false, lanes := false }

/-- MOD[0] = 1: IMM replaces B, whose specifier is then unused; MOD[0] = 0: IMM is unused. -/
def immForm (f : Fields) : Bool := f.mod.getLsbD 0
def immFormOk (f : Fields) : Bool := if immForm f then f.b == 0 else f.imm == 0
/-- The second source: B or IMM. -/
def srcB (c : Ctx) (f : Fields) : Word64 := if immForm f then f.imm else c.sget f.b.toNat

/-- A scalar operation: D := g A B. -/
def intOp (n op : Nat) (f : Fields) (g : Word64 → Word64 → Word64) (s : State) : Host.Outcome State Fault Refusal :=
  issueSimple n (intSpec op) f (immFormOk f)
    (fun s => .done (s.modCtx n fun c => c.sset f.d.toNat (g (c.sget f.a.toNat) (srcB c f)))) s

def execAdd (n : Nat) (f : Fields) (s : State) : Host.Outcome State Fault Refusal := live s <| intOp n 0x00 f (fun x y => x + y) s
def execSub (n : Nat) (f : Fields) (s : State) : Host.Outcome State Fault Refusal := live s <| intOp n 0x01 f (fun x y => x - y) s
def execMul (n : Nat) (f : Fields) (s : State) : Host.Outcome State Fault Refusal := live s <| intOp n 0x02 f (fun x y => x * y) s
/-- The high 64 bits of the signed 128-bit product. -/
def mulHigh (x y : Word64) : Word64 := BitVec.ofInt 64 (x.toInt * y.toInt / 2 ^ 64)
def execMulh (n : Nat) (f : Fields) (s : State) : Host.Outcome State Fault Refusal := live s <| intOp n 0x03 f mulHigh s
def execAnd (n : Nat) (f : Fields) (s : State) : Host.Outcome State Fault Refusal := live s <| intOp n 0x04 f (fun x y => x &&& y) s
def execOr (n : Nat) (f : Fields) (s : State) : Host.Outcome State Fault Refusal := live s <| intOp n 0x05 f (fun x y => x ||| y) s
def execXor (n : Nat) (f : Fields) (s : State) : Host.Outcome State Fault Refusal := live s <| intOp n 0x06 f (fun x y => x ^^^ y) s
/-- Shifts use the low 6 bits of the count. -/
def shiftCount (y : Word64) : Nat := y.toNat % 64
def execShl (n : Nat) (f : Fields) (s : State) : Host.Outcome State Fault Refusal := live s <|
  intOp n 0x07 f (fun x y => x <<< shiftCount y) s
def execShr (n : Nat) (f : Fields) (s : State) : Host.Outcome State Fault Refusal := live s <|
  intOp n 0x08 f (fun x y => x >>> shiftCount y) s
def execSra (n : Nat) (f : Fields) (s : State) : Host.Outcome State Fault Refusal := live s <|
  intOp n 0x09 f (fun x y => x.sshiftRight (shiftCount y)) s
def execMin (n : Nat) (f : Fields) (s : State) : Host.Outcome State Fault Refusal := live s <|
  intOp n 0x0A f (fun x y => if x.slt y then x else y) s
def execMax (n : Nat) (f : Fields) (s : State) : Host.Outcome State Fault Refusal := live s <|
  intOp n 0x0B f (fun x y => if x.slt y then y else x) s
def execMinu (n : Nat) (f : Fields) (s : State) : Host.Outcome State Fault Refusal := live s <|
  intOp n 0x0C f (fun x y => if x.ult y then x else y) s
def execMaxu (n : Nat) (f : Fields) (s : State) : Host.Outcome State Fault Refusal := live s <|
  intOp n 0x0D f (fun x y => if x.ult y then y else x) s
/-- MOVI reads neither A nor B; MOD[0] may be 0 or 1. -/
def execMovi (n : Nat) (f : Fields) (s : State) : Host.Outcome State Fault Refusal := live s <|
  issueSimple n { intSpec 0x0E with a := .none, b := .none } f true
    (fun s => .done (s.modCtx n fun c => c.sset f.d.toNat f.imm)) s
def execSlt (n : Nat) (f : Fields) (s : State) : Host.Outcome State Fault Refusal := live s <|
  intOp n 0x0F f (fun x y => if x.slt y then 1 else 0) s
def execSltu (n : Nat) (f : Fields) (s : State) : Host.Outcome State Fault Refusal := live s <|
  intOp n 0x10 f (fun x y => if x.ult y then 1 else 0) s

/-! ## Class ADR (R105) -/

def adrSpec (op : Nat) (d a b c : Role) (mod : BitVec 15) (imm : BitVec 64) : OpSpec :=
  { cls := 2, op, d, a, b, c, mod, imm, last := false, lanes := false }

def execAadd (n : Nat) (f : Fields) (s : State) : Host.Outcome State Fault Refusal := live s <|
  issueSimple n (adrSpec 0x00 .ad .ad .s .none 1 (BitVec.allOnes 64)) f (immFormOk f)
    (fun s => .done (s.modCtx n fun c => c.aset (regNo f.d) (c.aget (regNo f.a) + srcB c f))) s
/-- The value of a specifier that names a scalar or an address register. -/
def srcSA (c : Ctx) (x : BitVec 8) : Word64 := if isA x.toNat then c.aget (regNo x) else c.sget (regNo x)
def execAmov (n : Nat) (f : Fields) (s : State) : Host.Outcome State Fault Refusal := live s <|
  issueSimple n (adrSpec 0x01 .ad .sa .none .none 0 0) f true
    (fun s => .done (s.modCtx n fun c => c.aset (regNo f.d) (srcSA c f.a))) s
def execAset (n : Nat) (f : Fields) (s : State) : Host.Outcome State Fault Refusal := live s <|
  issueSimple n (adrSpec 0x02 .ad .none .none .none 0 (BitVec.allOnes 64)) f true
    (fun s => .done (s.modCtx n fun c => c.aset (regNo f.d) f.imm)) s
/-- A fabric address of a local address, a device number and a partition (R105, R31). -/
def fabricOf (a dev part : Word64) : Word64 :=
  ((dev &&& 0xFF#64) <<< 56) ||| ((part &&& 0x3F#64) <<< 50) ||| (a &&& 0x3FFFFFFFFFFFF#64)
def execAfab (n : Nat) (f : Fields) (s : State) : Host.Outcome State Fault Refusal := live s <|
  issueSimple n (adrSpec 0x03 .ad .ad .s .s 0 0) f true
    (fun s => .done (s.modCtx n fun c =>
      c.aset (regNo f.d) (fabricOf (c.aget (regNo f.a)) (c.sget f.b.toNat) (c.sget f.c.toNat)))) s
def execSmov (n : Nat) (f : Fields) (s : State) : Host.Outcome State Fault Refusal := live s <|
  issueSimple n (adrSpec 0x04 .s .ad .none .none 0 0) f true
    (fun s => .done (s.modCtx n fun c => c.sset f.d.toNat (c.aget (regNo f.a)))) s

/-! ## Class SRG (R85, R167) -/

def srgSpec (op : Nat) (d a : Role) (imm : BitVec 64) : OpSpec :=
  { cls := 3, op, d, a, b := .none, c := .none, mod := 0, imm, last := false, lanes := false }

/-- The special register that IMM[7:0] names is one of Table 3.2. -/
def sregOk (f : Fields) : Bool := decide (f.imm.toNat % 256 < 0x0F)

def execSregRd (n : Nat) (f : Fields) (s : State) : Host.Outcome State Fault Refusal := live s <|
  issueSimple n (srgSpec 0x00 .s .none 0xFF) f (sregOk f)
    (fun s => .done (s.modCtx n fun c => c.sset f.d.toNat (sregRead s n f.imm.toNat))) s

/-- A write of a special register: RO registers ignore it; VL must be 1 to 256; a seed resets the counter and sends a
seed record; NSTAT clears bits (R85, R64, R66). -/
def sregWrite (s : State) (n num : Nat) (v : Word64) : Sem :=
  let id := s.ident n
  match num with
  | 0x01 => if 1 ≤ v.toNat ∧ v.toNat ≤ 256 then .done (s.modCtx n fun c => { c with vl := v.toNat })
            else .fault ⟨FaultCode.operandRange, 2, v, none, none⟩
  | 0x02 => .done (s.modCtx n fun c => { c with vfill := v.setWidth 32 })
  | 0x03 => .done ((s.modCtx n fun c => { c with srSeed := v, srCtr := 0 }).logRecord 0x01 id.part (srcArray n)
              (toLe 2 id.larray ++ toLe 6 0 ++ toLe 8 v.toNat))
  | 0x05 => .done (s.modCtx n fun c => { c with nstat := c.nstat &&& ~~~ (v.setWidth 32) })
  | 0x0A => .done (s.modCtx n fun c => { c with rmoCnd := v.toNat % 2 ^ 20 })
  | _ => .done s

def execSregWr (n : Nat) (f : Fields) (s : State) : Host.Outcome State Fault Refusal := live s <|
  issueSimple n (srgSpec 0x01 .none .s 0xFF) f (sregOk f)
    (fun s => sregWrite s n f.imm.toNat ((s.arr n).ctx.sget f.a.toNat)) s

/-- VL becomes the smaller of s_A and 256 and is returned; 0 faults OPERAND_RANGE (R167). -/
def execVlSet (n : Nat) (f : Fields) (s : State) : Host.Outcome State Fault Refusal := live s <|
  issueSimple n (srgSpec 0x02 .s .s 0) f true
    (fun s =>
      let x := ((s.arr n).ctx.sget f.a.toNat).toNat
      if x = 0 then .fault ⟨FaultCode.operandRange, 2, 0, none, none⟩
      else .done (s.modCtx n fun c => { c with vl := min x 256 }.sset f.d.toNat (dw (min x 256)))) s

end Sys2Proof.Machine
end

