-- ==== Sys2Proof/Machine/Memory.lean ====
section
/-! DEFINITION. The HBM controllers: line accesses, the patrol scrubber, and the retirement of pseudo-channels and
stacks (R204 to R214, R354, R441, R532). -/
namespace Sys2Proof.Machine

def stackOf (pa : Nat) : Nat := pa / 2 ^ 36
def srcStack (st : Nat) : Nat := (36 + st) * 256 + 0xFF

/-! ## Errors of a line -/

/-- A corrected error, or an uncorrectable one that the re-read removed (R207, R208). -/
def State.eccCorrected (s : State) (pa : Nat) : State :=
  let st := stackOf pa
  ((s.incSat (Fld.HBM_ECC_CORRECTED st) 1).countUpset (keyPcCe st (s.pcOf pa))).raise (s.srcHbm pa) wholeDevice
    clsCorrected 0x3001 (s.fabPhys pa) ([w st, w (s.pcOf pa)] ++ w2 (dw (pa % 2 ^ 36)))

/-- A line becomes poisoned (R208): cause 1 read, 2 scrub, 3 retirement copy. -/
def State.poisonLine (s : State) (pa cause : Nat) : State :=
  let st := stackOf pa
  let s1 := { s with mem := { s.mem with poison := setBool s.mem.poison (pa / 64) true } }
  let s2 := (s1.incSat (Fld.HBM_ECC_POISONED st) 1).countUpset (keyPcUe st (s.pcOf pa))
  let s3 := if s2.flag (Fld.HBM_POISON_VALID st) then s2
    else s2.setFs [(Fld.HBM_POISON_VALID st, 1), (Fld.HBM_POISON_OFFSET st, pa % 2 ^ 36 / 64)]
  s3.raise (s.srcHbm pa) wholeDevice clsInfo 0x3002 (s.fabPhys pa) ([w st, 0] ++ w2 (dw (pa % 2 ^ 36)) ++ [w cause])

/-! ## Retirement (R210 to R212, R354) -/

/-- A 1 GiB segment is gone: its holder receives HBM_SEGMENT_LOST and loses it, with its contents.  Memory withheld from
every grant cannot be repaired: the device stops (R211, R404). -/
def State.loseSegment (s : State) (t : Nat) : State :=
  if getBool s.mem.lostSeg t then s
  else
    let st := t / 64
    let granted := s.flag (Fld.PRT_SEG_OWNER_GRANTED t)
    let withheld := s.flag (Fld.PRT_SEG_OWNER_WITHHELD t)
    let p := if granted then s.getF (Fld.PRT_SEG_OWNER_PART t) else 0
    let rel := if granted then s.getF (Fld.PRT_SEG_OWNER_RSEG t) else t
    let s1 := { s with mem := { s.mem with
      lostSeg := setBool s.mem.lostSeg t true
      segLost := s.mem.segLost ++ [(p, t, rel)]
      hbm := Sparse.clear s.mem.hbm (t * gib) ((t + 1) * gib)
      poison := Sparse.clear s.mem.poison (t * gib / 64) ((t + 1) * gib / 64)
      badTag := Sparse.clear s.mem.badTag (t * gib / 64) ((t + 1) * gib / 64) } }
    let s2 := if granted then
        (s1.setF (Fld.PRT_SEG_OWNER_GRANTED t) 0).setF (Fld.PRT_STATE_HBM_GIB p) (s1.getF (Fld.PRT_STATE_HBM_GIB p) - 1)
      else s1
    let s3 := (s2.raise (srcStack st) p clsPartition 0x3003 0 [w st, w (t % 64), w rel]).partitionStop p
    if withheld then
      let (r, s4) := s3.draw
      s4.deviceError r.toNat (36 + st)
    else s3

/-- A whole stack retires (R212). -/
def State.retireStack (s : State) (st : Nat) : State :=
  if s.flag (Fld.HBM_STATUS_RETIRED st) then s
  else
    let s1 := s.setFs [(Fld.HBM_STATUS_RETIRED st, 1), (Fld.HBM_STATUS_COPYING st, 0),
      (Fld.TOP_CAPS_HBM_STACKS, s.getF Fld.TOP_CAPS_HBM_STACKS - 1)]
    let s2 := { s1 with
      mem := { s1.mem with copying := s1.mem.copying.filter fun c => c.1 != st }
      ret := { s1.ret with list := s1.ret.list ++ [(36 + st, 0xFF)] } }
    let s3 := (s2.domainOk (36 + st) false).raise (srcStack st) wholeDevice clsRetired 0x0004 0 [w (36 + st), 0xFF, 0xFFFFFFFF]
    let s4 : State := (List.range 64).foldl (fun s i => s.loseSegment (64 * st + i)) s3
    if s4.getF Fld.TOP_CAPS_HBM_STACKS = 0 then s4.fallToMinimal 2 else s4.fallToDegraded 2

/-- A pseudo-channel retires (R210): its redirection copy begins, and at its end the stack's highest remaining segment is
gone; a fifth retirement takes the stack.  The device is no longer as shipped (R44). -/
def State.retirePc (s : State) (st pc : Nat) : State :=
  let map := s.getF (Fld.HBM_PC_MAP_IN_SERVICE st)
  if s.flag (Fld.HBM_STATUS_RETIRED st) || bits map pc 1 == 0 then s
  else
    let k := s.getF (Fld.HBM_STATUS_PC_RETIRED st) + (s.mem.copying.filter fun c => c.1 == st).length + 1
    let s1 := s.setF (Fld.HBM_PC_MAP_IN_SERVICE st) (map - 2 ^ pc)
    let s2 := ({ s1 with ret := { s1.ret with list := s1.ret.list ++ [(36 + st, pc)] } }).raise ((36 + st) * 256 + pc) wholeDevice
      clsRetired 0x0004 0 [w (36 + st), w pc, 0xFFFFFFFF]
    if 4 < k then s2.retireStack st
    else
      (({ s2 with mem := { s2.mem with copying := s2.mem.copying ++ [(st, 64 * st + 64 - k)] } }).setF (Fld.HBM_STATUS_COPYING st) 1).fallToDegraded 2

/-- Retire the pseudo-channel of an address whose counts have reached a threshold (Table 10.5). -/
def State.pcRetireIfDue (s : State) (pa : Nat) : State :=
  let st := stackOf pa
  let pc := s.pcOf pa
  if s.upsetDue (keyPcCe st pc) (s.getF Fld.LOG_THR1_PC_CE) || s.upsetDue (keyPcUe st pc) (s.getF Fld.LOG_THR1_PC_UE) then s.retirePc st pc
  else s

/-! ## Line accesses (R206 to R209, R213, R441, R532) -/

/-- What reading a line finds: the state after the errors it counts, and whether the line is delivered, poisoned, or
fails its tag.  Poison comes before the tag (R441). -/
def State.readCheck (s : State) (pa cause : Nat) (c : LineCheck) : State × RmwStatus :=
  if getBool s.mem.poison (pa / 64) then (s, .poisoned)
  else
    match c with
    | .uncorrectable => ((s.poisonLine pa cause).pcRetireIfDue pa, .poisoned)
    | .badTag => ({ s with mem := { s.mem with badTag := setBool s.mem.badTag (pa / 64) true } }, .integrity)
    | _ =>
      if getBool s.mem.badTag (pa / 64) then (s, .integrity)
      else
        match c with
        | .clean => (s, .ok)
        | _ => ((s.eccCorrected pa).pcRetireIfDue pa, .ok)

/-- The answer of a controller to its requester. -/
def State.lineReply (s : State) (addr : Nat) (data : List Byte) (st : RmwStatus) (performed : Bool) : State :=
  { s with mem := { s.mem with reply := some {
      addr, data, poison := st == .poisoned, integrity := st == .integrity, performed } } }

/-- HBM_LINE_ACCESS: one access of a partition to the line that holds a partition-relative address; an access to a line
that is not mapped is not performed (R29). -/
def execHbmLineAccess (part addr : Nat) (op : LineOp) (c : LineCheck) (s : State) : Host.Outcome State Fault Refusal := live s <|
  if 64 ≤ part then .fault (.noSuchUnit part)
  else
    let a := addr / 64 * 64
    match s.hbmPhys part a with
    | none => .next (s.lineReply a [] .ok false)
    | some pa =>
      let s := s.hbmUse part 64
      match op with
      | .read =>
        let (s1, st) := s.readCheck pa 1 c
        match st with
        | .integrity => .next ((s1.memIntegrity part pa).lineReply a [] st false)
        | _ => .next (s1.lineReply a (readBytes s1.mem.hbm pa 64) st true)
      | .write off data poison =>
        let o := off % 64
        let d := data.take (64 - o)
        if d.length = 64 then
          let s1 := s.hbmWritePhys pa d
          let s2 := { s1 with mem := { s1.mem with poison := setBool s1.mem.poison (pa / 64) poison } }
          .next (s2.lineReply a [] .ok true)
        else
          let (s1, st) := s.readCheck pa 1 c
          match st with
          | .integrity => .next ((s1.memIntegrity part pa).lineReply a [] st false)
          | _ =>
            let s2 := s1.hbmWritePhys (pa + o) d
            let s3 := if poison then { s2 with mem := { s2.mem with poison := setBool s2.mem.poison (pa / 64) true } } else s2
            .next (s3.lineReply a [] st true)
      | .add off fmt data =>
        let wb := fmtWidth fmt / 8
        let o := off % 64 / wb * wb
        let d := data.take ((64 - o) / wb * wb)
        let (s1, st) := s.readCheck pa 1 c
        match st with
        | .poisoned => .next ((s1.raise (s1.srcHbm pa) part clsInfo 0x3004 (s1.fabOf part (a + o)) (w2 (dw (a + o)) ++ [0xFFFFFFFF])).lineReply a [] st false)
        | .integrity => .next ((s1.memIntegrity part pa).lineReply a [] st false)
        | .ok =>
          let (s2, _, fl) := s1.addOnWrite part (a + o) fmt d
          .next ((s2.numFlags (s2.srcHbm pa) part none 3 s2.time fl).lineReply a [] .ok true)

/-- PATROL_SCRUB: the scrubber of a stack reads a line (R209); it is stopped while HBM_SCRUB_CFG.PERIOD is 0. -/
def execPatrolScrub (st line : Nat) (c : LineCheck) (s : State) : Host.Outcome State Fault Refusal := live s <|
  if 12 ≤ st then .fault (.noSuchUnit st)
  else
    let pa := st * 2 ^ 36 + line * 64 % 2 ^ 36
    if s.getF (Fld.HBM_SCRUB_CFG_PERIOD st) = 0 ∨ getBool s.mem.lostSeg (pa / gib) ∨ s.flag (Fld.HBM_STATUS_SELF_REFRESH st) then .next s
    else .next (s.readCheck pa 2 c).1

/-- PC_RETIREMENT_COPY_END: the copy has corrected and poisoned the lines named; the removed segment is lost (R211). -/
def execPcRetirementCopyEnd (st : Nat) (corrected poisoned : List Nat) (s : State) : Host.Outcome State Fault Refusal := live s <|
  if 12 ≤ st then .fault (.noSuchUnit st)
  else
    match s.mem.copying.find? fun c => c.1 == st with
    | none => .next s
    | some (_, t) =>
      let at' (l : Nat) : Nat := st * 2 ^ 36 + l * 64 % 2 ^ 36
      let s1 := corrected.foldl (fun s l => s.eccCorrected (at' l)) s
      let s2 := poisoned.foldl (fun s l => if getBool s.mem.poison (at' l / 64) then s else s.poisonLine (at' l) 3) s1
      let rest := s2.mem.copying.erase (st, t)
      let s3 := { s2 with mem := { s2.mem with copying := rest } }
      let s4 := s3.setFs [(Fld.HBM_STATUS_PC_RETIRED st, s3.getF (Fld.HBM_STATUS_PC_RETIRED st) + 1),
        (Fld.HBM_STATUS_COPYING st, if rest.any fun c => c.1 == st then 1 else 0)]
      .next (s4.loseSegment t)

/-- STACK_PHY_OR_CONTROLLER_FAILURE (R212). -/
def execStackPhyOrControllerFailure (st : Nat) (s : State) : Host.Outcome State Fault Refusal := live s <|
  if 12 ≤ st then .fault (.noSuchUnit st) else .next (s.retireStack st)

end Sys2Proof.Machine
end

