-- ==== Sys2Proof/Machine/ArrayLoad.lean ====
section
/-! DEFINITION. The Runen classes OCX and VLS: operand-cache transfers, and vector, scalar and predicate loads and
stores (R86, R98, R100, R108, R109, R120, R166 to R169, R201). -/
namespace Sys2Proof.Machine

/-! ## Elements and lanes (R166 to R169) -/

/-- Element `e` of width `wd` bits. -/
def elem (v : VReg) (wd e : Nat) : Nat := (v >>> (e * wd)).toNat % 2 ^ wd
/-- A vector register with element `e` replaced. -/
def setElem (v : VReg) (wd e x : Nat) : VReg :=
  (v &&& ~~~ (BitVec.ofNat 8192 ((2 ^ wd - 1) * 2 ^ (e * wd)))) ||| BitVec.ofNat 8192 ((x % 2 ^ wd) * 2 ^ (e * wd))
/-- Elements under VL at a width (Table 5.1). -/
def elemCount (vl wd : Nat) : Nat := vl * (32 / wd)
/-- The predicate bit of element `e` is that of its lowest byte; PN inverts it. -/
def predOn (p : PReg) (pn : Bool) (wd e : Nat) : Bool := p.getLsbD (e * (wd / 8)) != pn
/-- Active elements of an instruction (R168), in order. -/
def activeElems (c : Ctx) (f : Fields) (wd : Nat) : List Nat :=
  (List.range (elemCount c.vl wd)).filter fun e => predOn (c.pget f.pred.toNat) f.pn wd e

/-! ## The accumulator debug window (R28, R162, R163, R452) -/

/-- The armed token shows a partition: partition 0, a sealed one that has consented, any other while it is ACTIVE. -/
def State.consents (s : State) (p : Nat) : Bool :=
  s.sec.token.isSome &&
  (p == 0 || (if s.isSealed p then fieldOf (s.reg Reg.SEC_CONSENT1) p 1 == 1 else s.partActive p))
/-- The accumulator debug window of an array is open. -/
def State.accWindowOpen (s : State) (n : Nat) : Bool :=
  s.flag (Fld.ARR_ACC_DBG_EN n) && s.arrState n != stRetired &&
  (if s.isOwned then
    (s.sec.token.any fun t => bits t.scope 2 1 == 1) && (s.contexts.all fun c => c.phys != n || s.consents c.id.part) && s.consents (s.ident n).part
   else s.lifecycle != lcDecommissioned)
/-- The array whose accumulator memory window `win` of a partition shows, while it is open: for partition 0 the physical array of
that number, for another the one that holds its logical array. -/
def State.accWindow (s : State) (p win : Nat) : Option Nat :=
  let n : Option Nat :=
    if p = 0 then (if win < 144 then some win else none)
    else if win < 128 ∧ s.flag (Fld.PRT_LMAP_VALID p win) then some (s.getF (Fld.PRT_LMAP_PHYS p win)) else none
  n.filter fun n => s.accWindowOpen n && s.domainRuns (n / 4)
/-- A line of an array's accumulator memory as a partition reads it through the window: partition 0 every line; another the
lines of its own groups, of the context on the array and of those left in place, and zeros elsewhere. -/
def State.accSeen (s : State) (p n line : Nat) : List Byte :=
  let hit (g : AccGroup) : Bool := g.state != 0 && decide (g.span.1 ≤ line) && decide (line < g.span.1 + g.span.2)
  if p == 0 || ((s.ident n).part == p && (s.arr n).acc.any hit) || s.parked.any fun k => k.phys == n && k.id.part == p && k.acc.any hit then
    readBytes s.mem.acc (n * accBytes + line * 128) 128
  else List.replicate 128 0

/-! ## Checked operand-cache ranges -/

/-- An operand-cache offset of a register operand: aligned, and its range wholly in the reservation (Table 3.13). -/
def ocRangeCheck (s : State) (n operand : Nat) (off : Word64) (len align : Nat) : Option FaultInfo :=
  if off.toNat % align ≠ 0 then some ⟨FaultCode.misaligned, operand, off, none, none⟩
  else if s.ocSize n < off.toNat + len then some ⟨FaultCode.ocRange, operand, off, none, none⟩
  else none

/-- ECC outcomes of operand-cache lines that a read meets (R201): a corrected line is counted and reported; an
uncorrectable one is marked poisoned, recorded and reported.  A line is physical, within the array. -/
def applyOcUpsets (s : State) (n : Nat) (lines : List Nat) (u : List LineUpset) : State :=
  let id := s.ident n
  (u.filter fun x => lines.contains x.line).foldl (fun s x =>
    let rel := x.line * 64 - s.ocFirst n
    if x.bad then
      let s1 := (s.incSat (Fld.ARR_OC_ECC_UNCORRECTABLE n) 1).raise (srcArray n) id.part clsInfo 0x2008 (s.fabOc n (x.line * 64))
        [w id.larray, w rel, 1]
      let s2 := { s1 with mem := { s1.mem with ocPoison := setBool s1.mem.ocPoison (n * ocLines + x.line) true } }
      let s3 := s2.countUpset (keyUe n)
      if s3.flag (Fld.ARR_OC_POISON_VALID n) then s3
      else s3.setFs [(Fld.ARR_OC_POISON_VALID n, 1), (Fld.ARR_OC_POISON_LINE n, x.line)]
    else ((s.incSat (Fld.ARR_OC_ECC_CORRECTED n) 1).countUpset (keyEcc n)).raise (srcArray n) id.part clsCorrected 0x2007 (s.fabOc n (x.line * 64))
      [w id.larray, w rel]) s

/-- A consuming read of lines of a reservation range by an instruction: the interlock of R120 for the range, and the ECC outcomes and
poison (R128) of the lines that are read.  On success the range's bytes and the state go on to `k`. -/
def ocConsumeAt (s : State) (n operand off len : Nat) (lines : List Nat) (u : List LineUpset) (k : List Byte → State → Sem) : Sem :=
  let phys := s.ocFirst n + off
  match (s.arr n).access [(phys, len)] [] with
  | .illegal => .fault ⟨FaultCode.illegalGroup, operand, dw off, none, none⟩
  | .stall => .stall
  | .ok =>
    let s1 := applyOcUpsets s n lines u
    match lines.find? fun l => (s1.ocViewPoison n (l * 64) 64).isSome with
    | some l => .faultAt s1 ⟨FaultCode.dataPoison, operand, dw (l * 64 - s.ocFirst n), none, none⟩
    | none => k (s1.ocView n phys len) s1
/-- The same for a range that is read whole. -/
def ocConsume (s : State) (n operand off len : Nat) (u : List LineUpset) (k : List Byte → State → Sem) : Sem :=
  ocConsumeAt s n operand off len (touchedLines (s.ocFirst n + off) len) u k

/-- A write into an array's operand cache unbinds each element program whose image it overlaps, of the context on the array and of
those that have left it (R193). -/
def State.unbindOverlap (s : State) (n off len : Nat) : State :=
  let hit (p : Option EProg) : Bool := match p with
    | some p => overlaps p.off p.image.length off len
    | none => false
  let cut (l : List (Option EProg)) : List (Option EProg) := l.map fun p => if hit p then none else p
  let s1 := if (s.arr n).progs.any hit then (s.modArr n fun a => { a with progs := cut a.progs }).syncBound n else s
  { s1 with parked := s1.parked.map fun k => if k.phys = n then { k with progs := cut k.progs } else k }

/-- Put writes into the group write buffer (R98): `bytes` counts against its 65,536; a write unbinds an element
program whose image it overlaps (R193). -/
def bufWrite (s : State) (n bytes : Nat) (ws : List OcWrite) : Sem :=
  let g := (s.arr n).cur
  let used := match g with | some g => g.wbytes | none => 0
  if 65536 < used + bytes then .fault ⟨FaultCode.groupOverflow, 0, 0, none, none⟩
  else
    let s1 := s.modGroup n fun g => { g with writes := g.writes ++ ws, wbytes := used + bytes }
    .done (ws.foldl (fun s wr => s.unbindOverlap n wr.off wr.data.length) s1)

/-- A synchronous write of a reservation range: the interlock of R120 first. -/
def ocProduce (s : State) (n operand off len : Nat) (ws : List OcWrite) : Sem :=
  match (s.arr n).access [] [(s.ocFirst n + off, len)] with
  | .illegal => .fault ⟨FaultCode.illegalGroup, operand, dw off, none, none⟩
  | .stall => .stall
  | .ok => bufWrite s n len ws

/-! ## Class OCX (R108) -/

def ocxSpec (op : Nat) : OpSpec :=
  { cls := 4, op, d := .ad, a := .ad, b := .s, c := .s, mod := 0, imm := 0xFFFF, last := false, lanes := false }

/-- The HBM addresses of the rows. -/
def rowAddrs (base stride : Word64) (rows : Nat) : List Nat := (List.range rows).map fun i => (base + dw i * stride).toNat

/-- A row of HBM that a transfer names: HBM and mapped, and no text of a sealed partition that it would write, or the fault
of its address.  An accumulator window that is closed, or that it would write, is an unmapped address (R162). -/
def hbmRowFault (s : State) (wr : Bool) (p operand len : Nat) (a : Nat) : Option FaultInfo :=
  match localKind a with
  | .hbm => if s.hbmRangeOk p a len then
      (if wr && s.textHit p a len then some ⟨FaultCode.addrKind, operand, dw a, none, none⟩ else none) else some ⟨FaultCode.addrUnmapped, operand, dw a, none, none⟩
  | .unmapped => some ⟨FaultCode.addrUnmapped, operand, dw a, none, none⟩
  | .acc win _ => some ⟨if wr || (s.accWindow p win).isNone then FaultCode.addrUnmapped else FaultCode.addrKind, operand, dw a, none, none⟩
  | _ => some ⟨FaultCode.addrKind, operand, dw a, none, none⟩

/-- Check a transfer at issue and defer it (R97, R108).  `toOc` is OC.LOAD's direction.  Where several checks fail, the first in this order is
the fault (the manual gives none: DESIGN CHOICE, log entry 3). -/
def xferIssue (kind : XferKind) (n : Nat) (f : Fields) (s : State) : Sem :=
  let c := (s.arr n).ctx
  let p := (s.ident n).part
  let toOc := kind == .load || kind == .pref
  let d := c.aget (regNo f.d)
  let a := c.aget (regNo f.a)
  let row := c.sget f.b.toNat
  let stride := c.sget f.c.toNat
  let rows := f.imm.toNat
  let oc := if toOc then d else a
  let hb := if toOc then a else d
  let ocOp := if toOc then 1 else 2
  let hbOp := if toOc then 2 else 1
  if row = 0 ∨ row.toNat % 64 ≠ 0 then .fault ⟨FaultCode.operandRange, 3, row, none, none⟩
  else if rows = 0 ∨ 4096 < rows then .fault ⟨FaultCode.operandRange, 5, f.imm, none, none⟩
  else if d.toNat % 64 ≠ 0 then .fault ⟨FaultCode.misaligned, 1, d, none, none⟩
  else if a.toNat % 64 ≠ 0 then .fault ⟨FaultCode.misaligned, 2, a, none, none⟩
  else if 1 < rows ∧ stride.toNat % 64 ≠ 0 then .fault ⟨FaultCode.misaligned, 4, stride, none, none⟩
  else
    let len := row.toNat * rows
    match ocRangeCheck s n ocOp oc len 64 with
    | some fi => .fault fi
    | none =>
      match (rowAddrs hb stride rows).filterMap (hbmRowFault s (!toOc) p hbOp row.toNat) with
      | fi :: _ => .fault fi
      | [] =>
        let phys := s.ocFirst n + oc.toNat
        let rd := if kind == .load || kind == .pref then [] else [(phys, len)]
        let wr := if kind == .store then [] else [(phys, len)]
        match (s.arr n).access rd wr with
        | .illegal => .fault ⟨FaultCode.illegalGroup, ocOp, oc, none, none⟩
        | .stall => .stall
        | .ok =>
          let x : Xfer := { kind, part := p, oc := phys, hbm := hb.toNat, row := row.toNat, stride := stride.toNat, rows }
          let s1 := wr.foldl (fun s r => s.unbindOverlap n r.1 r.2) s
          .done (s1.modGroup n fun g => { g with
            deferred := g.deferred ++ [.xfer x]
            xferWrites := g.xferWrites ++ if toOc then wr else []
            xferReads := g.xferReads ++ if kind == .store then rd else []
            xferClears := g.xferClears ++ if kind == .evict then wr else [] })

def execOcLoad (n : Nat) (f : Fields) (s : State) : Host.Outcome State Fault Refusal := live s <|
  issueSimple n (ocxSpec 0x00) f true (xferIssue .load n f) s
def execOcStore (n : Nat) (f : Fields) (s : State) : Host.Outcome State Fault Refusal := live s <|
  issueSimple n (ocxSpec 0x01) f true (xferIssue .store n f) s
def execOcPref (n : Nat) (f : Fields) (s : State) : Host.Outcome State Fault Refusal := live s <|
  issueSimple n (ocxSpec 0x02) f true (xferIssue .pref n f) s
def execOcEvict (n : Nat) (f : Fields) (s : State) : Host.Outcome State Fault Refusal := live s <|
  issueSimple n (ocxSpec 0x03) f true (xferIssue .evict n f) s

/-- Move the line of one row at byte `j` of it (both sides are 64-byte aligned). -/
def xferLine (s : State) (n : Nat) (x : Xfer) (i j : Nat) : State :=
  let s := s.hbmUse x.part 64
  let oc := x.oc + i * x.row + j
  let hb := (dw x.hbm + dw i * dw x.stride + dw j).toNat
  match x.kind with
  | .load | .pref =>
    let bad := s.hbmBadTag x.part hb 64
    let poi := s.hbmPoisoned x.part hb 64
    let s1 := if bad then s else s.ocWrite n oc (s.hbmRead x.part hb 64)
    let s2 := if bad then
        (match s1.hbmPhys x.part hb with
         | some pa => s1.memIntegrity x.part pa
         | none => s1)
      else s1
    if bad || poi then ocPoisonLine s2 n (oc / 64) else s2
  | .store | .evict =>
    let poi := (s.ocPoisoned n oc 64).isSome
    let s1 := s.hbmWrite x.part hb (s.ocRead n oc 64)
    let s2 := if poi then s1.hbmSetPoison x.part hb true else s1
    if x.kind = .evict then s2.ocWrite n oc (List.replicate 64 0) else s2

/-- Move every line of a transfer, in order; what reads the operand cache meets the ECC outcomes of its lines first (R201). -/
def xferMove (s : State) (n : Nat) (x : Xfer) (u : List LineUpset) : State :=
  let s := match x.kind with
    | .load | .pref => s
    | .store | .evict => applyOcUpsets s n (touchedLines x.oc (x.row * x.rows)) u
  ((List.range x.rows).flatMap fun i => (List.range (x.row / 64)).map fun j => (i, j * 64)).foldl
    (fun s e => xferLine s n x e.1 e.2) s

/-! ## Class VLS (R109) -/

def vlsSpec (op : Nat) (d b : Role) (mod : BitVec 15) (lanes : Bool) : OpSpec :=
  { cls := 5, op, d, a := .ad, b, c := .none, mod, imm := BitVec.allOnes 64, last := false, lanes }

/-- The effective operand-cache offset: A plus the signed byte offset. -/
def vlsAddr (c : Ctx) (f : Fields) : Word64 := c.aget (regNo f.a) + f.imm

/-- Lanes of a vector register that `bytes` fill: active lanes take the bytes, the others keep their bits. -/
def loadLanes (v : VReg) (lanes : List Nat) (bytes : List Byte) : VReg :=
  lanes.foldl (fun v l => setElem v 32 l (ofLe ((bytes.drop (4 * l)).take 4))) v

/-- VLD: only the lines that active lanes touch are read; the interlock covers the whole range. -/
def execVld (n : Nat) (f : Fields) (u : List LineUpset) (s : State) : Host.Outcome State Fault Refusal := live s <|
  issueSimple n (vlsSpec 0x00 .v .none 0 true) f true
    (fun s =>
      let c := (s.arr n).ctx
      let x := vlsAddr c f
      let len := c.vl * 4
      match ocRangeCheck s n 2 x len 64 with
      | some fi => .fault fi
      | none =>
        let phys := s.ocFirst n + x.toNat
        let lanes := activeElems c f 32
        ocConsumeAt s n 2 x.toNat len (lanes.map fun l => (phys + 4 * l) / 64).dedup u fun bs s1 =>
          .done (s1.modCtx n fun c => c.vset (regNo f.d) (loadLanes (c.vget (regNo f.d)) lanes bs))) s

/-- Buffered writes of the active lanes; adjacent bytes of a fully active register go as one write. -/
def laneWrites (phys : Nat) (lanes : List Nat) (vl : Nat) (v : VReg) : List OcWrite :=
  if lanes.length = vl then [⟨phys, toLe (4 * vl) v.toNat⟩]
  else lanes.map fun l => ⟨phys + 4 * l, toLe 4 (elem v 32 l)⟩

def execVst (n : Nat) (f : Fields) (s : State) : Host.Outcome State Fault Refusal := live s <|
  issueSimple n (vlsSpec 0x01 .none .v 0 true) f true
    (fun s =>
      let c := (s.arr n).ctx
      let x := vlsAddr c f
      let len := c.vl * 4
      match ocRangeCheck s n 2 x len 64 with
      | some fi => .fault fi
      | none => ocProduce s n 2 x.toNat len (laneWrites (s.ocFirst n + x.toNat) (activeElems c f 32) c.vl (c.vget (regNo f.b)))) s

/-- MOD[1:0]: the size of a scalar access in bytes. -/
def scalarSize (f : Fields) : Nat := 2 ^ (f.mod.toNat % 4)

def execSld (n : Nat) (f : Fields) (u : List LineUpset) (s : State) : Host.Outcome State Fault Refusal := live s <|
  issueSimple n (vlsSpec 0x02 .s .none 7 false) f true
    (fun s =>
      let x := vlsAddr (s.arr n).ctx f
      let sz := scalarSize f
      match ocRangeCheck s n 2 x sz sz with
      | some fi => .fault fi
      | none => ocConsume s n 2 x.toNat sz u fun bs s1 =>
          let v := ofLe bs
          let r := if f.mod.getLsbD 2 then BitVec.ofInt 64 (signed (8 * sz) v) else dw v
          .done (s1.modCtx n fun c => c.sset f.d.toNat r)) s

def execSst (n : Nat) (f : Fields) (s : State) : Host.Outcome State Fault Refusal := live s <|
  issueSimple n (vlsSpec 0x03 .none .s 3 false) f true
    (fun s =>
      let c := (s.arr n).ctx
      let x := vlsAddr c f
      let sz := scalarSize f
      match ocRangeCheck s n 2 x sz sz with
      | some fi => .fault fi
      | none => ocProduce s n 2 x.toNat sz [⟨s.ocFirst n + x.toNat, toLe sz (c.sget f.b.toNat).toNat⟩]) s

def execPld (n : Nat) (f : Fields) (u : List LineUpset) (s : State) : Host.Outcome State Fault Refusal := live s <|
  issueSimple n (vlsSpec 0x04 .p .none 0 false) f true
    (fun s =>
      let x := vlsAddr (s.arr n).ctx f
      match ocRangeCheck s n 2 x 128 64 with
      | some fi => .fault fi
      | none => ocConsume s n 2 x.toNat 128 u fun bs s1 =>
          .done (s1.modCtx n fun c => c.pset (regNo f.d) (BitVec.ofNat 1024 (ofLe bs)))) s

def execPst (n : Nat) (f : Fields) (s : State) : Host.Outcome State Fault Refusal := live s <|
  issueSimple n (vlsSpec 0x05 .none .p 0 false) f true
    (fun s =>
      let c := (s.arr n).ctx
      let x := vlsAddr c f
      match ocRangeCheck s n 2 x 128 64 with
      | some fi => .fault fi
      | none => ocProduce s n 2 x.toNat 128 [⟨s.ocFirst n + x.toNat, toLe 128 (c.pget (regNo f.b)).toNat⟩]) s

end Sys2Proof.Machine
end

