-- ==== Sys2Proof/Machine/Local.lean ====
section
/-! DEFINITION. Ranges of a partition's local address space as units other than an array's own instructions reach them:
HBM through the grant and operand caches through their windows (R25 to R29, R216, R243). -/
namespace Sys2Proof.Machine

/-- Cut a range at the borders of segments, windows and ranges of Table 1.5, so that each piece lies in one. -/
def pieces : Nat → Nat → Nat → List (Nat × Nat)
  | 0, _, _ => []
  | k + 1, a, len =>
    if len = 0 then []
    else
      let room := if a < hbmBytes then gib - a % gib
        else if a < ocBase then ocBase - a
        else if a < ocBase + 144 * ocBytes then ocBytes - (a - ocBase) % ocBytes
        else if a < accDbgBase then accDbgBase - a
        else if a < accDbgBase + 144 * accBytes then accDbgBase + 144 * accBytes - a
        else if a < regBase then regBase - a
        else if a < regBase + 2 ^ 32 then regBase + 2 ^ 32 - a
        else len
      if len ≤ room then [(a, len)] else (a, room) :: pieces k (a + room) (len - room)

/-- The reservation of a context, in bytes: from ARR_OC_CFG while it is on its array, from firmware's table
otherwise. -/
def State.reservation (s : State) (p l : Nat) : Option (Nat × Nat × Nat) :=
  if s.flag (Fld.PRT_LMAP_VALID p l) then
    let n := s.getF (Fld.PRT_LMAP_PHYS p l)
    let on := (s.arr n).ident.any fun i => i.part == p && i.larray == l
    if on then some (n, s.ocFirst n, s.ocSize n)
    else (s.contexts.find? fun c => c.id.part == p && c.id.larray == l).map fun c => (n, c.ocFirst * 65536, c.ocUnits * 65536)
  else none

/-- Where a window range of a partition lies: the physical array and the physical offset (R28, R216); none where it is
not mapped. -/
def State.windowAt (s : State) (p win off len : Nat) : Option (Nat × Nat) :=
  if p = 0 then
    if win < 144 ∧ off + len ≤ ocBytes ∧ s.arrState win ≠ stRetired ∧ s.domainRuns (win / 4) then some (win, off) else none
  else if 128 ≤ win then none
  else match s.reservation p win with
    | some (n, first, size) => if off + len ≤ size ∧ s.arrState n ≠ stRetired then some (n, first + off) else none
    | none => none

/-- What holds a piece of a partition's local range. -/
inductive Place where
  | hbm
  | oc (n off : Nat)
  | otherKind
  | unmapped
  deriving DecidableEq, Repr

def State.placeOf (s : State) (p a len : Nat) : Place :=
  match localKind a with
  | .hbm => if s.hbmRangeOk p a len then .hbm else .unmapped
  | .oc win off => match s.windowAt p win off len with
    | some (n, o) => .oc n o
    | none => .unmapped
  | .unmapped => .unmapped
  | _ => .otherKind

/-- A byte of a range lies in register space or the accumulator window, which only a register's own operation may
name. -/
def rangeHasKind (a len : Nat) (bad : LocalKind → Bool) : Bool := (pieces 8 a len).any fun x => bad (localKind x.1)
def isSpecialKind : LocalKind → Bool
  | .acc _ _ => true
  | .reg _ => true
  | _ => false

/-- Every byte of a range is mapped memory of the partition. -/
def State.localRangeOk (s : State) (p a len : Nat) : Bool :=
  (pieces 8 a len).all fun x => match s.placeOf p x.1 x.2 with
    | .hbm => true
    | .oc _ _ => true
    | _ => false

/-- Bytes of a range; what is not mapped reads as zero. -/
def State.localRead (s : State) (p a len : Nat) : List Byte :=
  (pieces 8 a len).flatMap fun x => match s.placeOf p x.1 x.2 with
    | .hbm => s.hbmRead p x.1 x.2
    | .oc n o => s.ocRead n o x.2
    | _ => List.replicate x.2 0

/-- Byte offset of the first poisoned line that a range touches. -/
def State.localPoison (s : State) (p a len : Nat) : Option Nat :=
  (pieces 8 a len).findSome? fun x => match s.placeOf p x.1 x.2 with
    | .hbm =>
      ((touchedLines x.1 x.2).find? fun l => s.hbmPoisoned p (l * 64) 64).map fun l => max (l * 64) a - a
    | .oc n o => (s.ocPoisoned n o x.2).map fun l => max (x.1 + l * 64 - o) a - a
    | _ => none

/-- Byte offset of the first line of a range that is not poisoned and whose integrity tag fails (R441). -/
def State.localBadTag (s : State) (p a len : Nat) : Option Nat :=
  (pieces 8 a len).findSome? fun x => match s.placeOf p x.1 x.2 with
    | .hbm => ((touchedLines x.1 x.2).find? fun l =>
        s.hbmBadTag p (l * 64) 64 && !s.hbmPoisoned p (l * 64) 64).map fun l => max (l * 64) a - a
    | _ => none

/-- Write bytes to an operand cache through its window (R193, R201). -/
def State.windowWrite (s : State) (n o : Nat) (l : List Byte) : State := (s.unbindOverlap n o l.length).ocWrite n o l

/-- Write a range. -/
def State.localWrite (s : State) (p a : Nat) (l : List Byte) : State :=
  (pieces 8 a l.length).foldl (fun s x =>
    let d := (l.drop (x.1 - a)).take x.2
    match s.placeOf p x.1 x.2 with
    | .hbm => s.hbmWrite p x.1 d
    | .oc n o => s.windowWrite n o d
    | _ => s) s

/-- Mark the lines of a range poisoned, at the offsets given. -/
def State.localSetPoison (s : State) (p a : Nat) (offs : List Nat) : State :=
  offs.foldl (fun s o =>
    match s.placeOf p (a + o) 1 with
    | .hbm => s.hbmSetPoison p (a + o) true
    | .oc n x => ocPoisonLine s n (x / 64)
    | _ => s) s

/-- Byte offsets of the poisoned lines that a range touches. -/
def State.localPoisons (s : State) (p a len : Nat) : List Nat :=
  (pieces 8 a len).flatMap fun x => match s.placeOf p x.1 x.2 with
    | .hbm => ((touchedLines x.1 x.2).filter fun l => s.hbmPoisoned p (l * 64) 64).map fun l => max (l * 64) a - a
    | .oc n o => ((touchedLines o x.2).filter fun l => getBool s.mem.ocPoison (n * ocLines + l)).map fun l =>
        max (x.1 + l * 64 - o) a - a
    | _ => []

end Sys2Proof.Machine
end

