-- ==== Sys2Proof/Machine/ArrayComm.lean ====
section
/-! DEFINITION. The Runen classes GEY, CND, RMO and FNC: increments and waits, posts and takes, remote operations and
fences (R113 to R117, R220 to R222, R228, R242, R244). -/
namespace Sys2Proof.Machine

/-! ## Remote operations as entries (R113, R114, R242, R244) -/

/-- The entry of Table 7.3 of an array's operation; T_RELEASE is filled in at release. -/
def rmoEntry (s : State) (n opc fmt lkind len : Nat) (fabric loc operand compare cw : Word64) : List Byte :=
  rmoBytes opc (fmt + 16 * lkind) 0 (s.ident n).larray len fabric.toNat loc.toNat operand.toNat compare.toNat cw.toNat
    (if lkind = 0 ∧ opc < 2 then n + s.ocFirst n / 65536 * 256 else 0)

/-- Checks of every remote operation: the completion word's zero bits and its conduit, and RMO_CND (R113, R114,
Table 3.13). -/
def rmoCheck (s : State) (n : Nat) (cw : Word64) : Option FaultInfo :=
  let p := (s.ident n).part
  let rc := (s.arr n).ctx.rmoCnd
  if fieldOf cw 38 10 ≠ 0 then some ⟨FaultCode.operandRange, 4, cw, none, none⟩
  else if !s.cndIs rc p 1 then some ⟨FaultCode.cndDenied, 0, dw rc, none, none⟩
  else if !s.cndIs (fieldOf cw 0 20) p 2 then some ⟨FaultCode.cndDenied, 4, cw, none, none⟩
  else none

/-- Defer a remote operation to its group's commit (R97). -/
def rmoDefer (s : State) (n : Nat) (entry : List Byte) (cw : Word64) (oc : Option (Nat × Nat × Bool)) : State :=
  s.modGroup n fun g => { g with deferred := g.deferred ++ [.rmo entry (s.arr n).ctx.rmoCnd cw oc] }

def rmoSpec (op : Nat) (d a b : Role) (mod : BitVec 15) : OpSpec :=
  { cls := 0x16, op, d, a, b, c := .s, mod, imm := 0, last := false, lanes := false }
/-- MOD[0]: LKIND. -/
def lkindOf (f : Fields) : Nat := f.mod.toNat % 2

/-- PUT and GET: `get` gives the direction.  The fabric address is in D for PUT and in A for GET; the local side is the
other. -/
def rangeOp (n op : Nat) (f : Fields) (get : Bool) (s : State) : Host.Outcome State Fault Refusal :=
  issueSimple n (rmoSpec op .ad .ad .s 1) f true
    (fun s =>
      let c := (s.arr n).ctx
      let p := (s.ident n).part
      let fab := c.aget (regNo (if get then f.a else f.d))
      let loc := c.aget (regNo (if get then f.d else f.a))
      let lop := if get then 1 else 2
      let len := c.sget f.b.toNat
      let cw := c.sget f.c.toNat
      match rmoCheck s n cw with
      | some fi => .fault fi
      | none =>
        if len = 0 ∨ 16777216 < len.toNat then .fault ⟨FaultCode.operandRange, 3, len, none, none⟩
        else if lkindOf f = 0 then
          match ocRangeCheck s n lop loc len.toNat 1 with
          | some fi => .fault fi
          | none =>
            let r := (s.ocFirst n + loc.toNat, len.toNat)
            match (s.arr n).access (if get then [] else [r]) (if get then [r] else []) with
            | .illegal => .fault ⟨FaultCode.illegalGroup, lop, loc, none, none⟩
            | .stall => .stall
            | .ok =>
              let s1 := if get then s.unbindOverlap n r.1 r.2 else s
              let s2 := rmoDefer s1 n (rmoEntry s n op 0 0 len.toNat fab loc 0 0 cw) cw (some (r.1, r.2, get))
              .done (s2.modGroup n fun g => if get then { g with xferWrites := g.xferWrites ++ [r] }
                else { g with xferReads := g.xferReads ++ [r] })
        else if rangeHasKind loc.toNat len.toNat isSpecialKind then .fault ⟨FaultCode.addrKind, lop, loc, none, none⟩
        else if !s.localRangeOk p loc.toNat len.toNat then .fault ⟨FaultCode.addrUnmapped, lop, loc, none, none⟩
        else .done (rmoDefer s n (rmoEntry s n op 0 1 len.toNat fab loc 0 0 cw) cw none)) s

def execPut (n : Nat) (f : Fields) (s : State) : Host.Outcome State Fault Refusal := live s <| rangeOp n 0x00 f false s
def execGet (n : Nat) (f : Fields) (s : State) : Host.Outcome State Fault Refusal := live s <| rangeOp n 0x01 f true s

/-- An atomic on one element of a format of its list (R114, R242). -/
def atomOp (n op : Nat) (f : Fields) (fmts : List Nat) (s : State) : Host.Outcome State Fault Refusal :=
  let fmt := f.mod.toNat % 16
  issueSimple n (rmoSpec op (if op = 0x06 then .s else .none) .ad .s 0xF) f (fmts.contains fmt)
    (fun s =>
      let c := (s.arr n).ctx
      let fab := c.aget (regNo f.a)
      let cw := c.sget f.c.toNat
      match rmoCheck s n cw with
      | some fi => .fault fi
      | none =>
        if fab.toNat % (fmtWidth fmt / 8) ≠ 0 then .fault ⟨FaultCode.misaligned, 2, fab, none, none⟩
        else
          let cmp := if op = 0x06 then c.sget f.d.toNat else 0
          .done (rmoDefer s n (rmoEntry s n op fmt 0 0 fab 0 (c.sget f.b.toNat) cmp cw) cw none)) s

def execAtomAdd (n : Nat) (f : Fields) (s : State) : Host.Outcome State Fault Refusal := live s <| atomOp n 0x02 f [0, 1, 2, 10] s
def execAtomMin (n : Nat) (f : Fields) (s : State) : Host.Outcome State Fault Refusal := live s <| atomOp n 0x03 f [0, 1, 2, 10] s
def execAtomMax (n : Nat) (f : Fields) (s : State) : Host.Outcome State Fault Refusal := live s <| atomOp n 0x04 f [0, 1, 2, 10] s
def execAtomSwap (n : Nat) (f : Fields) (s : State) : Host.Outcome State Fault Refusal := live s <| atomOp n 0x05 f [10] s
def execAtomCas (n : Nat) (f : Fields) (s : State) : Host.Outcome State Fault Refusal := live s <| atomOp n 0x06 f [10] s

/-! ## Class GEY (R115) -/

def geySpec (op : Nat) (d a b c : Role) (last : Bool) : OpSpec :=
  { cls := 0x14, op, d, a, b, c, mod := 0, imm := 0, last, lanes := false }

def execGeyInc (n : Nat) (f : Fields) (s : State) : Host.Outcome State Fault Refusal := live s <|
  issueSimple n (geySpec 0x00 .none .ad .s .s false) f true
    (fun s =>
      let c := (s.arr n).ctx
      let cw := c.sget f.c.toNat
      match rmoCheck s n cw with
      | some fi => .fault fi
      | none =>
        .done (rmoDefer s n (rmoEntry s n 0x10 0 0 0 (c.aget (regNo f.a)) 0 (c.sget f.b.toNat) 0 cw) cw none)) s

/-- A geyser number that the partition does not own faults GEY_DENIED (R115). -/
def geyCheck (s : State) (n : Nat) (g : Word64) : Option FaultInfo :=
  if g.toNat < 65536 ∧ s.geyOwner g.toNat = (s.ident n).part then none else some ⟨FaultCode.geyDenied, 2, g, none, none⟩

/-- Put the array into WAITING with a wait of its group. -/
def beginWait (s : State) (n : Nat) (wt : Wait) : State :=
  ((s.modGroup n fun g => { g with wait := some wt }).modArr n fun a => { a with waitSince := s.time }).setArrState n stWaiting

def execGeyWait (n : Nat) (f : Fields) (s : State) : Host.Outcome State Fault Refusal := live s <|
  issueSimple n (geySpec 0x01 .none .s .s .none true) f true
    (fun s =>
      let c := (s.arr n).ctx
      let g := c.sget f.a.toNat
      let v := c.sget f.b.toNat
      match geyCheck s n g with
      | some fi => .fault fi
      | none =>
        if v.toNat ≤ s.getF (Fld.GEY_COUNT_COUNT g.toNat) then .done s else .done (beginWait s n (.gey g.toNat v))) s

def execGeyRead (n : Nat) (f : Fields) (s : State) : Host.Outcome State Fault Refusal := live s <|
  issueSimple n (geySpec 0x02 .s .s .none .none false) f true
    (fun s =>
      let g := (s.arr n).ctx.sget f.a.toNat
      match geyCheck s n g with
      | some fi => .fault fi
      | none => .done (s.modCtx n fun c => c.sset f.d.toNat (s.reg (Reg.GEY_COUNT g.toNat)))) s

/-! ## Class CND (R116, R220 to R222) -/

def cndSpec (op : Nat) : OpSpec :=
  { cls := 0x15, op, d := .s, a := .ad, b := .s, c := .none, mod := 1, imm := 0, last := true, lanes := false }
/-- MOD[0]: TRY. -/
def tryOf (f : Fields) : Bool := f.mod.getLsbD 0

/-- The conduit is the partition's and of a kind that the operation may use (Table 6.3). -/
def cndCheckKind (s : State) (n : Nat) (c : Word64) (kinds : List Nat) : Option FaultInfo :=
  let x := s.cndGet c.toNat
  if c.toNat < conduitCount ∧ x.valid ∧ x.owner = (s.ident n).part ∧ kinds.contains x.kind then none
  else some ⟨FaultCode.cndDenied, 3, c, none, none⟩

/-- Set the status register of CND.POST or CND.TAKE. -/
def cndStatus (s : State) (n : Nat) (f : Fields) (v : Nat) : State := s.modCtx n fun c => c.sset f.d.toNat (dw v)

def execCndPost (n : Nat) (f : Fields) (s : State) : Host.Outcome State Fault Refusal := live s <|
  issueSimple n (cndSpec 0x00) f true
    (fun s =>
      let c := (s.arr n).ctx
      let a := c.aget (regNo f.a)
      let q := c.sget f.b.toNat
      match ocRangeCheck s n 2 a 64 1, cndCheckKind s n q [0] with
      | some fi, _ => .fault fi
      | none, some fi => .fault fi
      | none, none =>
        ocConsume s n 2 a.toNat 64 [] fun e s0 =>
          let (s1, ok) := s0.cndCheck q.toNat
          if !ok then .faultAt s1 ⟨FaultCode.cndDenied, 3, q, none, none⟩
          else if !s1.cndHeld q.toNat && decide (0 < (s1.cndGet q.toNat).free) then
            let s2 := (s1.cndGrant q.toNat).modGroup n fun g => { g with
              deferred := g.deferred ++ [.post q.toNat e], granted := g.granted ++ [q.toNat] }
            .done (cndStatus s2 n f 1)
          else if tryOf f then .done (cndStatus s1 n f 0)
          else
            let s2 := beginWait s1 n (.post q.toNat e f.d.toNat)
            .done { s2 with cnd := { s2.cnd with waiters := s2.cnd.waiters ++ [⟨n, q.toNat, false⟩] } }) s

/-- CND.TAKE: a claimed entry of the context comes first (R222). -/
def execCndTake (n : Nat) (f : Fields) (s : State) : Host.Outcome State Fault Refusal := live s <|
  issueSimple n (cndSpec 0x01) f true
    (fun s =>
      let c := (s.arr n).ctx
      let id := s.ident n
      let a := c.aget (regNo f.a)
      let q := c.sget f.b.toNat
      let phys := s.ocFirst n + a.toNat
      let deliver (s : State) (e : List Byte) : State :=
        cndStatus (s.modGroup n fun g => { g with writes := g.writes ++ [⟨phys, e⟩], taken := g.taken ++ [(q.toNat, e)] }) n f 1
      match ocRangeCheck s n 1 a 64 1, cndCheckKind s n q [0, 2, 3] with
      | some fi, _ => .fault { fi with operand := 2 }
      | none, some fi => .fault fi
      | none, none =>
        match ocProduce s n 2 a.toNat 64 [] with
        | .done s0 =>
          let s1 := s0.unbindOverlap n phys 64
          match s1.claims.find? fun k => k.part == id.part && k.larray == id.larray && k.cnd == q.toNat with
          | some k => .done (deliver { s1 with claims := s1.claims.erase k } k.entry)
          | none =>
            let (s2, ok) := s1.cndCheck q.toNat
            if !ok then .faultAt s2 ⟨FaultCode.cndDenied, 3, q, none, none⟩
            else if !s2.cndHeld q.toNat && decide (0 < (s2.cndGet q.toNat).occupied) then
              let e := s2.cndHead q.toNat
              .done (deliver ((s2.cndPop q.toNat).serveConduit q.toNat) e)
            else if tryOf f then .done (cndStatus s2 n f 0)
            else
              let s3 := beginWait s2 n (.take q.toNat phys f.d.toNat)
              .done { s3 with cnd := { s3.cnd with waiters := s3.cnd.waiters ++ [⟨n, q.toNat, true⟩] } }
        | r => r) s

/-! ## Class FNC (R117) -/

def execFence (n : Nat) (f : Fields) (s : State) : Host.Outcome State Fault Refusal := live s <|
  issueSimple n { cls := 0x17, op := 0x00, d := .none, a := .none, b := .none, c := .none, mod := 0xF, imm := 0,
                  last := true, lanes := false } f true
    (fun s =>
      let sc := f.mod.toNat % 16
      if (s.arr n).fenceDone sc then .done s else .done (beginWait s n (.fence sc))) s

end Sys2Proof.Machine
end

