-- ==== Sys2Proof/Machine/ArrayVector.lean ====
section
/-! DEFINITION. The Runen classes VEC, VPM and VRD: element-wise arithmetic, permutes, broadcasts against tiles and
reductions (R166 to R182; Tables 5.1 to 5.4). -/
namespace Sys2Proof.Machine
open Sys2Proof.Num

/-! ## One element of a VEC operation (Table 5.2) -/

/-- A rounded result: the flags of the exact step, of the rounding, and of consumed NaNs and infinities. -/
def finish (F : FloatFmt) (ins : List Val) (r : Val × Flags) : Nat × Flags :=
  let (x, fl) := rne F r.1
  (x, fl ||| r.2 ||| nonfinite ins)

def withNonfinite (ins : List Val) (r : Nat × Flags) : Nat × Flags := (r.1, r.2 ||| nonfinite ins)

/-- An INT32 result that wraps, with OVERFLOW when the exact value does not fit. -/
def finishI (i : Int) : Nat × Flags :=
  (unsigned 32 i, if i < -(2 ^ 31) ∨ (2 ^ 31 - 1 : Int) < i then Flag.overflow else 0)

/-- Arithmetic element operations by OP of class VEC. -/
def vecElem (op code a b c : Nat) : Nat × Flags :=
  match floatFmt code with
  | some F =>
    let x := decodeF F a
    let y := decodeF F b
    let z := decodeF F c
    match op with
    | 0x00 => finish F [x, y] (addVal x y)
    | 0x01 => finish F [x, y] (addVal x (neg y))
    | 0x02 => finish F [x, y] (mulVal x y)
    | 0x03 => let (p, f1) := mulVal x y; let (r, f2) := addVal p z; finish F [x, y, z] (r, f1 ||| f2)
    | 0x04 => let (p, f1) := mulVal x y; let (r, f2) := addVal p (neg z); finish F [x, y, z] (r, f1 ||| f2)
    | 0x05 => finish F [x, y] (minVal x y, 0)
    | 0x06 => finish F [x, y] (maxVal x y, 0)
    | 0x07 => finish F [x] (abs x, 0)
    | 0x08 => finish F [x] (neg x, 0)
    | 0x09 => (a &&& b, 0)
    | 0x0A => (a ||| b, 0)
    | 0x0B => (a ^^^ b, 0)
    | 0x10 => finish F [x, y] (divVal x y)
    | 0x11 => finish F [x] (divVal (.fin false one) x)
    | 0x12 => finish F [x] (sqrtVal x)
    | 0x13 => finish F [x] (rsqVal x)
    | 0x14 => withNonfinite [x] (exp2Val F x)
    | 0x15 => withNonfinite [x] (log2Val F x)
    | _ => (a, 0)
  | none =>
    let x := signed 32 a
    let y := signed 32 b
    let z := signed 32 c
    match op with
    | 0x00 => finishI (x + y)
    | 0x01 => finishI (x - y)
    | 0x02 => finishI (x * y)
    | 0x03 => finishI (x * y + z)
    | 0x04 => finishI (x * y - z)
    | 0x05 => (unsigned 32 (min x y), 0)
    | 0x06 => (unsigned 32 (max x y), 0)
    | 0x07 => finishI (if x < 0 then -x else x)
    | 0x08 => finishI (-x)
    | 0x09 => (a &&& b, 0)
    | 0x0A => (a ||| b, 0)
    | 0x0B => (a ^^^ b, 0)
    | 0x0C => (a * 2 ^ (b % 32) % 2 ^ 32, 0)
    | 0x0D => (unsigned 32 (x / 2 ^ (b % 32)), 0)
    | _ => (a, 0)

/-- A comparison by OP: 0x16 equal, 0x17 less, 0x18 less or equal. -/
def vecCmp (op code a b : Nat) : Bool × Flags :=
  match floatFmt code with
  | some F =>
    let x := decodeF F a
    let y := decodeF F b
    let nan := isNan x || isNan y
    match op with
    | 0x16 => (eqVal x y, 0)
    | 0x17 => (ltVal x y, if nan then Flag.invalid else 0)
    | _ => (!nan && !ltVal y x, if nan then Flag.invalid else 0)
  | none =>
    let x := signed 32 a
    let y := signed 32 b
    match op with
    | 0x16 => (decide (x = y), 0)
    | 0x17 => (decide (x < y), 0)
    | _ => (decide (x ≤ y), 0)

/-! ## Class VEC -/

def vecSpec (op : Nat) (d a b c : Role) : OpSpec :=
  { cls := 0x0C, op, d, a, b, c, mod := 0x1F, imm := 0, last := false, lanes := true }

/-- MOD[3:0]: the format code. -/
def vecFmt (f : Fields) : Nat := f.mod.toNat % 16
/-- MOD[4] = 1: B names a scalar that stands in for every element (R170). -/
def bcastB (f : Fields) : Bool := f.mod.getLsbD 4
def secondOk (f : Fields) : Bool := if bcastB f then isS f.b.toNat else isV f.b.toNat
/-- Element `e` of the second source. -/
def secondElem (c : Ctx) (f : Fields) (wd e : Nat) : Nat :=
  if bcastB f then (c.sget f.b.toNat).toNat % 2 ^ wd else elem (c.vget (regNo f.b)) wd e

/-- Apply an element function to the active elements of a destination: new register and the flags raised. -/
def mapElems (v : VReg) (wd : Nat) (es : List Nat) (g : Nat → Nat × Flags) : VReg × Flags :=
  es.foldl (fun acc e => let (x, fl) := g e; (setElem acc.1 wd e x, acc.2 ||| fl)) (v, 0)

/-- A VEC operation that writes a vector register. -/
def vecIssue (n op : Nat) (f : Fields) (b c : Role) (fmts : List Nat) (ok : Bool)
    (g : Ctx → Nat → Nat → Nat × Flags) (s : State) : Host.Outcome State Fault Refusal :=
  issueSimple n (vecSpec op .v (if op = 0x0F then .none else .v) b c) f (fmts.contains (vecFmt f) && ok)
    (fun s =>
      let cx := (s.arr n).ctx
      let wd := fmtWidth (vecFmt f)
      let (v, fl) := mapElems (cx.vget (regNo f.d)) wd (activeElems cx f wd) (g cx wd)
      .done ((s.modCtx n fun c => c.vset (regNo f.d) v).raiseNum n 1 fl)) s

def allFmts : List Nat := [0, 1, 2, 10]
def fltFmts : List Nat := [0, 1, 2]

/-- D := A op B. -/
def vec2 (n op : Nat) (f : Fields) (fmts : List Nat) (s : State) : Host.Outcome State Fault Refusal :=
  vecIssue n op f .sv .none fmts (secondOk f)
    (fun c wd e => vecElem op (vecFmt f) (elem (c.vget (regNo f.a)) wd e) (secondElem c f wd e) 0) s
/-- D := op A. -/
def vec1 (n op : Nat) (f : Fields) (fmts : List Nat) (s : State) : Host.Outcome State Fault Refusal :=
  vecIssue n op f .none .none fmts true
    (fun c wd e => vecElem op (vecFmt f) (elem (c.vget (regNo f.a)) wd e) 0 0) s
/-- D := op A B C. -/
def vec3 (n op : Nat) (f : Fields) (s : State) : Host.Outcome State Fault Refusal :=
  vecIssue n op f .sv .v allFmts (secondOk f)
    (fun c wd e => vecElem op (vecFmt f) (elem (c.vget (regNo f.a)) wd e) (secondElem c f wd e)
      (elem (c.vget (regNo f.c)) wd e)) s

def execVadd (n : Nat) (f : Fields) (s : State) : Host.Outcome State Fault Refusal := live s <| vec2 n 0x00 f allFmts s
def execVsub (n : Nat) (f : Fields) (s : State) : Host.Outcome State Fault Refusal := live s <| vec2 n 0x01 f allFmts s
def execVmul (n : Nat) (f : Fields) (s : State) : Host.Outcome State Fault Refusal := live s <| vec2 n 0x02 f allFmts s
def execVfma (n : Nat) (f : Fields) (s : State) : Host.Outcome State Fault Refusal := live s <| vec3 n 0x03 f s
def execVfms (n : Nat) (f : Fields) (s : State) : Host.Outcome State Fault Refusal := live s <| vec3 n 0x04 f s
def execVmin (n : Nat) (f : Fields) (s : State) : Host.Outcome State Fault Refusal := live s <| vec2 n 0x05 f allFmts s
def execVmax (n : Nat) (f : Fields) (s : State) : Host.Outcome State Fault Refusal := live s <| vec2 n 0x06 f allFmts s
def execVabs (n : Nat) (f : Fields) (s : State) : Host.Outcome State Fault Refusal := live s <| vec1 n 0x07 f allFmts s
def execVneg (n : Nat) (f : Fields) (s : State) : Host.Outcome State Fault Refusal := live s <| vec1 n 0x08 f allFmts s
def execVand (n : Nat) (f : Fields) (s : State) : Host.Outcome State Fault Refusal := live s <| vec2 n 0x09 f allFmts s
def execVor (n : Nat) (f : Fields) (s : State) : Host.Outcome State Fault Refusal := live s <| vec2 n 0x0A f allFmts s
def execVxor (n : Nat) (f : Fields) (s : State) : Host.Outcome State Fault Refusal := live s <| vec2 n 0x0B f allFmts s
def execVshl (n : Nat) (f : Fields) (s : State) : Host.Outcome State Fault Refusal := live s <| vec2 n 0x0C f [10] s
def execVshr (n : Nat) (f : Fields) (s : State) : Host.Outcome State Fault Refusal := live s <| vec2 n 0x0D f [10] s
/-- A where the bit of the predicate that C names is 1, else B. -/
def execVsel (n : Nat) (f : Fields) (s : State) : Host.Outcome State Fault Refusal := live s <|
  vecIssue n 0x0E f .sv .p allFmts (secondOk f)
    (fun c wd e => (if (c.pget (regNo f.c)).getLsbD (e * (wd / 8)) then elem (c.vget (regNo f.a)) wd e
      else secondElem c f wd e, 0)) s
/-- The scalar of R170 in every active element; MOD[4] must be 1. -/
def execVdup (n : Nat) (f : Fields) (s : State) : Host.Outcome State Fault Refusal := live s <|
  vecIssue n 0x0F f .s .none allFmts (bcastB f) (fun c wd e => (secondElem c f wd e, 0)) s
def execVdiv (n : Nat) (f : Fields) (s : State) : Host.Outcome State Fault Refusal := live s <| vec2 n 0x10 f fltFmts s
def execVrcp (n : Nat) (f : Fields) (s : State) : Host.Outcome State Fault Refusal := live s <| vec1 n 0x11 f fltFmts s
def execVsqrt (n : Nat) (f : Fields) (s : State) : Host.Outcome State Fault Refusal := live s <| vec1 n 0x12 f fltFmts s
def execVrsq (n : Nat) (f : Fields) (s : State) : Host.Outcome State Fault Refusal := live s <| vec1 n 0x13 f fltFmts s
def execVexp2 (n : Nat) (f : Fields) (s : State) : Host.Outcome State Fault Refusal := live s <| vec1 n 0x14 f fltFmts s
def execVlog2 (n : Nat) (f : Fields) (s : State) : Host.Outcome State Fault Refusal := live s <| vec1 n 0x15 f fltFmts s

/-- Every predicate bit of an element's bytes (R169). -/
def setPred (p : PReg) (wd e : Nat) (b : Bool) : PReg :=
  let m := BitVec.ofNat 1024 ((2 ^ (wd / 8) - 1) * 2 ^ (e * (wd / 8)))
  if b then p ||| m else p &&& ~~~ m

/-- A comparison writes its result into every bit of each active element's bytes. -/
def cmpIssue (n op : Nat) (f : Fields) (s : State) : Host.Outcome State Fault Refusal :=
  issueSimple n (vecSpec op .p .v .sv .none) f (allFmts.contains (vecFmt f) && secondOk f)
    (fun s =>
      let c := (s.arr n).ctx
      let wd := fmtWidth (vecFmt f)
      let r := (activeElems c f wd).foldl (fun acc e =>
        let (b, fl) := vecCmp op (vecFmt f) (elem (c.vget (regNo f.a)) wd e) (secondElem c f wd e)
        (setPred acc.1 wd e b, acc.2 ||| fl)) (c.pget (regNo f.d), (0 : Flags))
      .done ((s.modCtx n fun c => c.pset (regNo f.d) r.1).raiseNum n 1 r.2)) s

def execVcmpEq (n : Nat) (f : Fields) (s : State) : Host.Outcome State Fault Refusal := live s <| cmpIssue n 0x16 f s
def execVcmpLt (n : Nat) (f : Fields) (s : State) : Host.Outcome State Fault Refusal := live s <| cmpIssue n 0x17 f s
def execVcmpLe (n : Nat) (f : Fields) (s : State) : Host.Outcome State Fault Refusal := live s <| cmpIssue n 0x18 f s

/-! ## Class VPM (R175 to R182) -/

def vpmSpec (op : Nat) (d a b : Role) (mod : BitVec 15) (imm : BitVec 64) : OpSpec :=
  { cls := 0x0D, op, d, a, b, c := .none, mod, imm, last := false, lanes := true }

/-- MOD[1:0] of PERM and SHUF: 0 for 32 bits, 1 for 16, 2 for 8. -/
def permWidth (f : Fields) : Nat := match f.mod.toNat % 4 with
  | 0 => 32
  | 1 => 16
  | _ => 8

/-- VFILL's low bits, with LANE_RANGE (R175). -/
def fillElem (c : Ctx) (wd : Nat) : Nat × Flags := (c.vfill.toNat % 2 ^ wd, Flag.laneRange)

/-- Write the active elements of D from a function of the context, and raise flags. -/
def permIssue (n : Nat) (sp : OpSpec) (f : Fields) (ok : Bool) (wd : Nat) (g : Ctx → Nat → Option (Nat × Flags)) (s : State) :
    Host.Outcome State Fault Refusal :=
  issueSimple n sp f ok
    (fun s =>
      let c := (s.arr n).ctx
      let es := (activeElems c f wd).filter fun e => (g c e).isSome
      let (v, fl) := mapElems (c.vget (regNo f.d)) wd es (fun e => (g c e).getD (0, 0))
      .done ((s.modCtx n fun c => c.vset (regNo f.d) v).raiseNum n 1 fl)) s

/-- PERM: the element of A that B names; at 8 bits MOD[2] chooses the destination half and B supplies 16-bit
indices (R176). -/
def execPerm (n : Nat) (f : Fields) (s : State) : Host.Outcome State Fault Refusal := live s <|
  let wd := permWidth f
  permIssue n (vpmSpec 0x00 .v .v .v 7 0) f (f.mod.toNat % 4 != 3 && (wd == 8 || !f.mod.getLsbD 2)) wd
    (fun c e =>
      let half := if f.mod.getLsbD 2 then 512 else 0
      if wd = 8 ∧ ¬ (half ≤ e ∧ e < half + 512) then none
      else
        let i := elem (c.vget (regNo f.b)) (if wd = 8 then 16 else wd) (if wd = 8 then e - half else e)
        some (if i < elemCount c.vl wd then (elem (c.vget (regNo f.a)) wd i, 0) else fillElem c wd)) s

/-- The source of a fixed shuffle: `false` for A, `true` for B, and the element (Table 5.4). -/
def shufSource (kind n r d : Nat) : Option (Bool × Nat) :=
  match kind with
  | 0 => some (d % 2 == 1, d / 2)
  | 1 => some (d % 2 == 1, (n + d) / 2)
  | 2 => some (decide (n ≤ 2 * d), if n ≤ 2 * d then 2 * d - n else 2 * d)
  | 3 => some (decide (n ≤ 2 * d + 1), if n ≤ 2 * d + 1 then 2 * d + 1 - n else 2 * d + 1)
  | 4 => some (false, n - 1 - d)
  | 5 => if 2 * n ≤ d + r then none else some (decide (n ≤ d + r), if n ≤ d + r then d + r - n else d + r)
  | 6 => if n ≤ r then none else some (false, r)
  | _ => none

def execShuf (n : Nat) (f : Fields) (s : State) : Host.Outcome State Fault Refusal := live s <|
  let wd := permWidth f
  let kind := bits f.imm.toNat 0 4
  let r := bits f.imm.toNat 16 16
  permIssue n (vpmSpec 0x01 .v .v .v 3 0xFFFF000F) f
    (f.mod.toNat % 4 != 3 && decide (kind ≤ 6) && (decide (5 ≤ kind) || r == 0)) wd
    (fun c e =>
      match shufSource kind (elemCount c.vl wd) r e with
      | some (b, i) => some (elem (c.vget (regNo (if b then f.b else f.a))) wd i, 0)
      | none => some (fillElem c wd)) s

/-- PACK: one half of the bits of each wider element, of A and then of B (R178). -/
def execPack (n : Nat) (f : Fields) (s : State) : Host.Outcome State Fault Refusal := live s <|
  let wd := if f.mod.toNat % 4 = 1 then 16 else 8
  permIssue n (vpmSpec 0x02 .v .v .v 7 0) f (f.mod.toNat % 4 == 1 || f.mod.toNat % 4 == 2) wd
    (fun c e =>
      let cnt := elemCount c.vl (2 * wd)
      let x := if e < cnt then elem (c.vget (regNo f.a)) (2 * wd) e else elem (c.vget (regNo f.b)) (2 * wd) (e - cnt)
      some (if f.mod.getLsbD 2 then x / 2 ^ wd else x % 2 ^ wd, 0)) s

/-- UNPACK: half-width elements widened by zeros, by their sign, or into the high half (R179). -/
def execUnpack (n : Nat) (f : Fields) (s : State) : Host.Outcome State Fault Refusal := live s <|
  let wd := if f.mod.toNat % 4 = 0 then 32 else 16
  let place := bits f.mod.toNat 3 2
  permIssue n (vpmSpec 0x03 .v .v .none 0x1F 0) f (decide (f.mod.toNat % 4 ≤ 1) && place != 3) wd
    (fun c e =>
      let i := if f.mod.getLsbD 2 then elemCount c.vl wd + e else e
      let x := elem (c.vget (regNo f.a)) (wd / 2) i
      some (match place with
        | 0 => x
        | 1 => unsigned wd (signed (wd / 2) x)
        | _ => x * 2 ^ (wd / 2), 0)) s

/-- The combining operation of a broadcast, as an OP of class VEC. -/
def bcastElem (op code a v : Nat) : Nat × Flags :=
  match op with
  | 0 => (v, 0)
  | 1 => vecElem 0x00 code a v 0
  | 2 => vecElem 0x01 code a v 0
  | 3 => vecElem 0x02 code a v 0
  | 4 => vecElem 0x05 code a v 0
  | _ => vecElem 0x06 code a v 0

/-- BCAST.ROW and BCAST.COL (R180, R181): checks at issue, then one row at a time. -/
def bcastIssue (n op : Nat) (col : Bool) (f : Fields) (u : List LineUpset) (s : State) : Host.Outcome State Fault Refusal :=
  let code := f.mod.toNat % 16
  let bop := bits f.mod.toNat 4 3
  let rows := bits f.imm.toNat 0 9
  let stride := bits f.imm.toNat 16 16 * 64
  issueSimple n (vpmSpec op .ad .ad .v 0x7F 0xFFFF01FF) f (allFmts.contains code && decide (bop ≤ 5))
    (fun s =>
      let c := (s.arr n).ctx
      let wd := fmtWidth code
      let cnt := elemCount c.vl wd
      let rowB := cnt * (wd / 8)
      let d := c.aget (regNo f.d)
      let a := c.aget (regNo f.a)
      let span := (rows - 1) * stride + rowB
      if rows = 0 ∨ 256 < rows then .fault ⟨FaultCode.operandRange, 5, dw rows, none, none⟩
      else if stride < ceilDiv rowB 64 * 64 then .fault ⟨FaultCode.operandRange, 5, dw stride, none, none⟩
      else if d ≠ a ∧ overlaps d.toNat span a.toNat span then .fault ⟨FaultCode.operandRange, 1, d, none, none⟩
      else
        match ocRangeCheck s n 1 d span 64, ocRangeCheck s n 2 a span 64 with
        | some fi, _ => .fault fi
        | none, some fi => .fault fi
        | none, none =>
          let base := s.ocFirst n
          let es := activeElems c f wd
          let rng (x : Nat) := (List.range rows).map fun i => (base + x + i * stride, rowB)
          match (s.arr n).access (if bop = 0 then [] else rng a.toNat) (rng d.toNat) with
          | .illegal => .fault ⟨FaultCode.illegalGroup, 1, d, none, none⟩
          | .stall => .stall
          | .ok =>
            let s1 := if bop = 0 then s
              else applyOcUpsets s n ((rng a.toNat).flatMap fun r => touchedLines r.1 r.2) u
            let bad := if bop = 0 then none
              else (List.range rows).findSome? fun i => es.findSome? fun e =>
                s1.ocViewPoison n (base + a.toNat + i * stride + e * (wd / 8)) (wd / 8)
            match bad with
            | some l => .faultAt s1 ⟨FaultCode.dataPoison, 2, dw (l * 64 - base), none, none⟩
            | none =>
              let b := c.vget (regNo f.b)
              let one (i e : Nat) : (OcWrite × Flags) :=
                let (v, f0) : Nat × Flags := if col then (if i < cnt then (elem b wd i, 0) else fillElem c wd) else (elem b wd e, 0)
                let x := ofLe (s1.ocView n (base + a.toNat + i * stride + e * (wd / 8)) (wd / 8))
                let (r, f1) := bcastElem bop code x v
                (⟨base + d.toNat + i * stride + e * (wd / 8), toLe (wd / 8) r⟩, f0 ||| f1)
              let rs := (List.range rows).flatMap fun i => es.map fun e => one i e
              match bufWrite s1 n (rows * rowB) (rs.map Prod.fst) with
              | .done s2 => .done (s2.raiseNum n 1 (rs.foldl (fun acc r => acc ||| r.2) 0))
              | .fault fi => .faultAt s1 fi
              | r => r) s

def execBcastRow (n : Nat) (f : Fields) (u : List LineUpset) (s : State) : Host.Outcome State Fault Refusal := live s <|
  bcastIssue n 0x04 false f u s
def execBcastCol (n : Nat) (f : Fields) (u : List LineUpset) (s : State) : Host.Outcome State Fault Refusal := live s <|
  bcastIssue n 0x05 true f u s

/-! ## Class VRD (R174) -/

def vrdSpec (op : Nat) : OpSpec :=
  { cls := 0x0E, op, d := .s, a := .v, b := .none, c := .none, mod := 0xF, imm := 0, last := false, lanes := true }

/-- The exact sum of values in order, with INVALID for opposite infinities; a zero sum is -0 only of negative zeros. -/
def sumVals : List Val → Val × Flags
  | [] => (.fin false zero, 0)
  | v :: vs => vs.foldl (fun acc x => let (r, fl) := addVal acc.1 x; (r, acc.2 ||| fl)) (v, 0)

/-- The result of a reduction (Table 5.3) as the 64 bits of the scalar. -/
def reduce (op code : Nat) (xs : List Nat) : Word64 × Flags :=
  match floatFmt code with
  | some F =>
    let vs := xs.map (decodeF F)
    let anyNan := vs.any isNan
    match op with
    | 0x00 =>
      let both := vs.any (fun v => v == .inf false) && vs.any (fun v => v == .inf true)
      let (r, fl) := finish F vs (if anyNan then (.nan, 0) else sumVals vs)
      (dw r, fl ||| if both then Flag.invalid else 0)
    | 0x01 => let r := if anyNan then .nan else vs.foldl maxVal (.inf true)
              (dw (rne F r).1, nonfinite vs)
    | 0x02 => let r := if anyNan then .nan else vs.foldl minVal (.inf false)
              (dw (rne F r).1, nonfinite vs)
    | _ => let r := if anyNan then .nan else vs.foldl (fun a v => maxVal a (abs v)) (.fin false zero)
           (dw (rne F r).1, nonfinite vs)
  | none =>
    let is := xs.map (signed 32)
    match op with
    | 0x00 => let (r, fl) := finishI (is.foldl (· + ·) 0); (BitVec.ofInt 64 (signed 32 r), fl)
    | 0x01 => (BitVec.ofInt 64 (is.foldl max (-(2 ^ 31))), 0)
    | 0x02 => (BitVec.ofInt 64 (is.foldl min (2 ^ 31 - 1)), 0)
    | _ =>
      let m := is.foldl (fun a i => max a (if i < 0 then -i else i)) 0
      if m = 2 ^ 31 then (BitVec.ofInt 64 (2 ^ 31 - 1), Flag.saturated) else (BitVec.ofInt 64 m, 0)

def redIssue (n op : Nat) (f : Fields) (s : State) : Host.Outcome State Fault Refusal :=
  issueSimple n (vrdSpec op) f (allFmts.contains (vecFmt f))
    (fun s =>
      let c := (s.arr n).ctx
      let wd := fmtWidth (vecFmt f)
      let (r, fl) := reduce op (vecFmt f) ((activeElems c f wd).map fun e => elem (c.vget (regNo f.a)) wd e)
      .done ((s.modCtx n fun c => c.sset f.d.toNat r).raiseNum n 1 fl)) s

def execVredSum (n : Nat) (f : Fields) (s : State) : Host.Outcome State Fault Refusal := live s <| redIssue n 0x00 f s
def execVredMax (n : Nat) (f : Fields) (s : State) : Host.Outcome State Fault Refusal := live s <| redIssue n 0x01 f s
def execVredMin (n : Nat) (f : Fields) (s : State) : Host.Outcome State Fault Refusal := live s <| redIssue n 0x02 f s
def execVredAmax (n : Nat) (f : Fields) (s : State) : Host.Outcome State Fault Refusal := live s <| redIssue n 0x03 f s

end Sys2Proof.Machine
end

