-- ==== Sys2Proof/Machine/ArrayConvert.lean ====
section
/-! DEFINITION. The Runen classes CVT and SCALE: conversions in registers and over tiles with amax capture (R112,
R183 to R187), and SCALE.PICK (R317). -/
namespace Sys2Proof.Machine
open Sys2Proof.Num

/-- Fields of CVT (R112). -/
def cvtDst (f : Fields) : Nat := bits f.mod.toNat 0 4
def cvtSrc (f : Fields) : Nat := bits f.mod.toNat 4 4
def cvtRm (f : Fields) : Nat := bits f.mod.toNat 8 2
def cvtSat (f : Fields) : Bool := f.mod.getLsbD 10
def cvtFtz (f : Fields) : Bool := f.mod.getLsbD 11
def cvtBexp (f : Fields) : Bool := f.mod.getLsbD 12
def cvtCap (f : Fields) : Bool := f.mod.getLsbD 13

def cvtSpec (op : Nat) (d a b c : Role) : OpSpec :=
  { cls := 0x0F, op, d, a, b, c, mod := 0x3FFF, imm := 0xFFFF, last := false, lanes := true }

/-- The random number of position `i` under stochastic rounding (R64). -/
def srAt (c : Ctx) (i : Nat) : Nat := srBits c.srSeed (c.srCtr + dw i)
/-- The counter advances by the positions of an instruction with RM = 2 (R64). -/
def srAdvance (c : Ctx) (rm n : Nat) : Ctx := if rm = 2 then { c with srCtr := c.srCtr + dw n } else c

/-- The checks of a capture at issue (R186, R187): while the table is enabled, the record must lie below COUNT and in
the grant. -/
def captureCheck (s : State) (p record : Nat) : Option FaultInfo :=
  if !s.amaxEnabled p then none
  else if s.amaxCount p ≤ record then some ⟨FaultCode.operandRange, 5, dw record, none, none⟩
  else if !s.amaxRecordOk p record then some ⟨FaultCode.addrUnmapped, 5, dw (s.amaxRecordAddr p record), none, none⟩
  else none

/-- Hold a capture with the group (R187): it goes to the record of the table in force now (R83). -/
def holdCapture (s : State) (n record : Nat) (vs : List Val) : State :=
  let (m, nf) := captureOf vs
  let p := (s.ident n).part
  let at' := if s.amaxEnabled p then some (s.amaxRecordAddr p record) else none
  s.modGroup n fun g => { g with captures := g.captures ++ [⟨at', m, nf⟩] }

/-- Register-form CVT (R183). -/
def execCvt (n : Nat) (f : Fields) (s : State) : Host.Outcome State Fault Refusal := live s <|
  let src := cvtSrc f
  let dst := cvtDst f
  issueSimple n (cvtSpec 0x00 .v .v .none .none) f
    (pairOk src dst && !isBlock src && !isBlock dst && rmOk (cvtRm f) dst && (cvtCap f || f.imm == 0))
    (fun s =>
      let c := (s.arr n).ctx
      match (if cvtCap f then captureCheck s (s.ident n).part f.imm.toNat else none) with
      | some fi => .fault fi
      | none =>
        let es := activeElems c f 32
        let val (i : Nat) : Val := elemValue src (elem (c.vget (regNo f.a)) (fmtWidth src) i)
        let (v, fl) := mapElems (c.vget (regNo f.d)) (fmtWidth dst) es
          (fun i => convElem dst (rmOf (cvtRm f)) (srAt c i) (cvtSat f) (cvtFtz f) (val i))
        let s1 := s.modCtx n fun c => srAdvance (c.vset (regNo f.d) v) (cvtRm f) c.vl
        let s2 := if cvtCap f then holdCapture s1 n f.imm.toNat (es.map val) else s1
        .done (s2.raiseNum n 1 fl)) s

/-- The alignment in bytes of a tensor side of CVT.T (R112). -/
def tensorAlign (code : Nat) : Nat := if isBlock code then 64 else match code with
  | 8 => 1
  | 9 => 1
  | 1 => 2
  | 2 => 2
  | _ => 4

/-- The bytes of a target tensor that is no block tensor: active elements only; an INT4 element leaves its
neighbour's nibble as `old` gives it. -/
def plainWrites (dst base : Nat) (old : Nat → Nat) (es : List (Nat × Nat)) : List OcWrite :=
  if dst = 9 then
    let bytes := (es.map fun e => e.1 / 2).dedup
    bytes.map fun b =>
      let get (h : Nat) : Nat := match es.find? fun e => e.1 == 2 * b + h with
        | some e => e.2
        | none => bits (old b) (4 * h) 4
      ⟨base + b, toLe 1 (get 0 + 16 * get 1)⟩
  else es.map fun e => ⟨base + e.1 * (fmtWidth dst / 8), toLe (fmtWidth dst / 8) e.2⟩

/-- CVT.T (R184, R185): checks in the order of R112, then every element or block in order. -/
def execCvtT (n : Nat) (f : Fields) (u : List LineUpset) (s : State) : Host.Outcome State Fault Refusal := live s <|
  let src := cvtSrc f
  let dst := cvtDst f
  let blk := isBlock src || isBlock dst
  issueSimple n (cvtSpec 0x01 .ad .ad .s .s) f
    (pairOk src dst && rmOk (cvtRm f) dst && (cvtCap f || f.imm == 0) && (!blk || (f.pred == 0 && !f.pn)))
    (fun s =>
      let c := (s.arr n).ctx
      let d := c.aget (regNo f.d)
      let a := c.aget (regNo f.a)
      let cnt := (c.sget f.c.toNat).toNat
      let t := if f.b = 0 then 0x3F800000 else (c.sget f.b.toNat).toNat % 2 ^ 32
      if cnt = 0 then .fault ⟨FaultCode.operandRange, 4, 0, none, none⟩
      else if blk ∧ cnt % 1024 ≠ 0 then .fault ⟨FaultCode.operandRange, 4, dw cnt, none, none⟩
      else
        let sb := tensorBytes src cnt
        let db := tensorBytes dst cnt
        match ocRangeCheck s n 1 d db (tensorAlign dst), ocRangeCheck s n 2 a sb (tensorAlign src),
          (if cvtCap f then captureCheck s (s.ident n).part f.imm.toNat else none) with
        | some fi, _, _ => .fault fi
        | _, some fi, _ => .fault fi
        | _, _, some fi => .fault fi
        | none, none, none =>
          if d ≠ a ∧ overlaps d.toNat db a.toNat sb then .fault ⟨FaultCode.operandRange, 1, d, none, none⟩
          else
            let base := s.ocFirst n
            let act := (List.range cnt).filter fun i => predOn (c.pget f.pred.toNat) f.pn 32 (i % 256)
            let wd := fmtWidth src
            let lines := if blk then touchedLines (base + a.toNat) sb
              else (act.flatMap fun i => touchedLines (base + a.toNat + i * wd / 8) (ceilDiv wd 8)).dedup
            match ocConsumeAt s n 2 a.toNat sb lines u (fun _ s1 => .done s1) with
            | .done s1 =>
              let bytes := s1.ocView n (base + a.toNat) sb
              let byte (i : Nat) : Nat := (bytes.getD i 0).toNat
              let val2 (i : Nat) : Val × Flags :=
                if isBlock src then mulVal (blockValue src byte 0 i) (decodeF f32 t) else (tensorValue src byte 0 i, 0)
              let val (i : Nat) : Val := (val2 i).1
              let rm := rmOf (cvtRm f)
              let out : List OcWrite × Flags :=
                if isBlock dst then
                  (List.range (cnt / 16)).foldl (fun acc b =>
                    let (e, qs, fl) := encodeBlock dst rm (cvtBexp f) t ((List.range 16).map fun j => srAt c (16 * b + j))
                      ((List.range 16).map fun j => val (16 * b + j))
                    let g := base + d.toNat + b / 64 * groupBytes dst
                    (acc.1 ++ [⟨g + b % 64, toLe 1 e⟩, ⟨g + 64 + b % 64 * blockBytes dst, blockElemBytes dst qs⟩], acc.2 ||| fl))
                    ([], (0 : Flags))
                else
                  let rs := act.map fun i => (i, convElem dst rm (srAt c i) (cvtSat f) (cvtFtz f) (val i))
                  let dbytes := s1.ocView n (base + d.toNat) db
                  (plainWrites dst (base + d.toNat) (fun i => (dbytes.getD i 0).toNat) (rs.map fun r => (r.1, r.2.1)),
                   rs.foldl (fun acc r => acc ||| r.2.2) 0)
              match ocProduce s1 n 1 d.toNat db out.1 with
              | .done s2 =>
                let s3 := s2.modCtx n fun c => srAdvance c (cvtRm f) cnt
                let s4 := if cvtCap f then holdCapture s3 n f.imm.toNat (act.map val) else s3
                .done (s4.raiseNum n 1 (act.foldl (fun fl i => fl ||| (val2 i).2) out.2))
              | .fault fi => .faultAt s1 fi
              | r => r
            | r => r) s

/-! ## SCALE.PICK (R317) -/

/-- The largest finite value of a target format of SCALE.PICK. -/
def pickMax (code : Nat) : Mag :=
  match code with
  | 1 => ⟨65504, 1, 0⟩
  | 2 => ⟨255, 1, 120⟩
  | 7 => ⟨127, 1, 0⟩
  | 8 => ⟨127, 1, 0⟩
  | 9 => ⟨7, 1, 0⟩
  | c => match blockElem c with | some E => maxE E | none => one

/-- The least integer k with `m ≤ 2 ^ k`. -/
def ceilLog2 (m : Mag) : Int := if isPow2 m then floorLog2 m else floorLog2 m + 1

/-- The result of SCALE.PICK from the bytes of a record (Table 9.3). -/
def pickScale (code window margin : Nat) (rec : List Byte) : Word64 :=
  let fld (o n : Nat) : Nat := ofLe ((rec.drop o).take n)
  let head := fld 0x08 1 % 16
  let used := ((List.range window).map fun k => (head + 15 - k) % 16).filter fun e =>
    bits (fld 0x0A 2) e 1 == 1 && !isNan (decodeF f32 (fld (0x40 + 4 * e) 4))
  if used = [] then 0x3F800000
  else
    let vals := used.map fun e => abs (decodeF f32 (fld (0x40 + 4 * e) 4))
    let inf := vals.any fun v => v == .inf false
    let a := largest vals
    let nf := if used.any fun e => bits (fld 0x0C 2) e 1 == 1 then 1 else 0
    if !inf && isZero a then dw (0x3F800000 + used.length * 2 ^ 32 + nf * 2 ^ 40)
    else
      let k0 : Int := if inf then 128 else ceilLog2 (divMag a (pickMax code)) + margin
      let k := max (-126) (min 127 k0)
      dw ((k + 127).toNat * 2 ^ 23 + used.length * 2 ^ 32 + nf * 2 ^ 40 + if k ≠ k0 then 2 ^ 41 else 0)

def execScalePick (n : Nat) (f : Fields) (s : State) : Host.Outcome State Fault Refusal := live s <|
  let code := f.mod.toNat % 16
  let window := bits f.imm.toNat 0 5
  let margin := bits f.imm.toNat 8 5
  issueSimple n { cls := 0x11, op := 0x00, d := .s, a := .s, b := .none, c := .none, mod := 0xF, imm := 0x1F1F,
                  last := false, lanes := false } f
    (decide (1 ≤ window) && decide (window ≤ 16) && decide (1 ≤ code) && decide (code ≤ 9))
    (fun s =>
      let c := (s.arr n).ctx
      let p := (s.ident n).part
      let i := (c.sget f.a.toNat).toNat
      if !s.amaxEnabled p then .done (s.modCtx n fun c => c.sset f.d.toNat 0x3F800000)
      else if s.amaxCount p ≤ i then .fault ⟨FaultCode.operandRange, 2, dw i, none, none⟩
      else
        let a := s.amaxRecordAddr p i
        if !s.amaxRecordOk p i then .fault ⟨FaultCode.addrUnmapped, 2, dw a, none, none⟩
        else if s.hbmBadTag p a 128 then .fault ⟨FaultCode.integrity, 2, dw a, none, none⟩
        else if s.hbmPoisoned p a 128 then .fault ⟨FaultCode.dataPoison, 2, dw a, none, none⟩
        else .done (s.modCtx n fun c => c.sset f.d.toNat (pickScale code window margin (s.hbmRead p a 128)))) s

end Sys2Proof.Machine
end

