-- ==== Sys2Proof/Machine/ArrayEprog.lean ====
section
/-! DEFINITION. The Runen class EPG: element programs, their images and checks, binding and running (R188 to R198,
Tables 5.5 to 5.10). -/
namespace Sys2Proof.Machine
open Sys2Proof.Num

/-! ## Images (R189, R190) -/

/-- The header of Table 5.5. -/
structure EHead where
  ninstr : Nat
  nin : Nat
  nout : Nat
  nparam : Nat
  ncap : Nat
  ifmt : List Nat
  ofmt : List Nat

/-- An element instruction (Table 5.6). -/
structure EInstr where
  op : Nat
  pn : Bool
  psel : Nat
  fmt : Nat
  sfmt : Nat
  rm : Nat
  sat : Bool
  ftz : Bool
  dst : Nat
  a : Nat
  b : Nat
  c : Nat
  imm : Nat
  rest : Nat

def EHead.ofBytes (l : List Byte) : EHead :=
  let by1 (o : Nat) : Nat := (l.getD o 0).toNat
  { ninstr := by1 2, nin := by1 3, nout := by1 4, nparam := by1 5, ncap := by1 6,
    ifmt := (List.range 8).map fun i => by1 (0x08 + i), ofmt := (List.range 4).map fun i => by1 (0x10 + i) }

def EInstr.ofNat (x : Nat) : EInstr :=
  { op := bits x 122 6, pn := bits x 121 1 == 1, psel := bits x 118 3, fmt := bits x 114 4, sfmt := bits x 110 4,
    rm := bits x 108 2, sat := bits x 107 1 == 1, ftz := bits x 106 1 == 1, dst := bits x 102 4, a := bits x 96 6,
    b := bits x 90 6, c := bits x 84 6, imm := bits x 0 32, rest := bits x 32 52 }

/-- Instruction `i` of an image. -/
def eInstrAt (l : List Byte) (i : Nat) : EInstr := EInstr.ofNat (ofLe ((l.drop (64 + 16 * i)).take 16))
def eProgram (l : List Byte) : List EInstr := (List.range (EHead.ofBytes l).ninstr).map (eInstrAt l)

/-- Stream formats (Table 5.5). -/
def eFmtOk (x : Nat) : Bool := ([0, 1, 2, 8, 10] : List Nat).contains x

/-- How many sources an operation has (Table 5.7). -/
def eSources (op : Nat) : Nat :=
  match op with
  | 0x04 => 3
  | 0x05 => 3
  | 0x08 => 1
  | 0x09 => 1
  | 0x0B => 1
  | 0x0C => 1
  | 0x0D => 1
  | 0x0E => 1
  | 0x0F => 1
  | 0x14 => 1
  | 0x1B => 1
  | 0x1C => 1
  | 0x1D => 1
  | _ => 2

/-- The sources that an instruction names. -/
def EInstr.used (i : EInstr) : List Nat := [i.a, i.b, i.c].take (eSources i.op)
/-- The format at which source `k` (0 A, 1 B, 2 C) is read. -/
def EInstr.readFmt (i : EInstr) (k : Nat) : Nat :=
  if i.op = 0x14 then i.sfmt else if i.op = 0x15 ∧ k = 1 then 10 else i.fmt

/-- FMT values of an operation (Tables 5.2 and 5.7). -/
def eOpFmtOk (op fmt : Nat) : Bool :=
  if (0x0A ≤ op ∧ op ≤ 0x0F) ∨ op = 0x15 ∨ op = 0x1B then ([0, 1, 2] : List Nat).contains fmt
  else if op = 0x19 ∨ op = 0x1A then fmt == 10
  else if op = 0x14 ∨ op = 0x1C then eFmtOk fmt
  else ([0, 1, 2, 10] : List Nat).contains fmt

/-- REASON 5: everything is defined and every must-be-zero field is zero. -/
def eDefined (i : EInstr) : Bool :=
  decide (1 ≤ i.op) && decide (i.op ≤ 0x1D) && decide (i.psel ≤ 4) && eOpFmtOk i.op i.fmt &&
  i.used.all (fun x => decide (x ≤ 33)) && ([i.a, i.b, i.c].drop (eSources i.op)).all (fun x => x == 0) && i.rest == 0 &&
  (i.used.contains 32 || i.imm == 0) &&
  (i.op == 0x14 || (i.sfmt == 0 && i.rm == 0 && !i.sat && !i.ftz))

/-- REASON 6: what is named exists. -/
def eNamed (h : EHead) (i : EInstr) : Bool :=
  i.used.all (fun x => !(decide (16 ≤ x) && decide (x ≤ 23) && decide (h.nin ≤ x - 16)) &&
    !(decide (24 ≤ x) && decide (x ≤ 31) && decide (h.nparam ≤ x - 24))) &&
  (if i.op = 0x1C then decide (i.dst < h.nout)
   else if 0x11 ≤ i.op ∧ i.op ≤ 0x13 then decide (i.dst < 4)
   else if i.op = 0x1B then decide (i.dst < h.ncap) else true)

/-- REASON 7: streams are read and written at their formats. -/
def eStreams (h : EHead) (i : EInstr) : Bool :=
  (i.used.zipIdx.all fun e => !(decide (16 ≤ e.1) && decide (e.1 ≤ 23)) || h.ifmt.getD (e.1 - 16) 99 == i.readFmt e.2) &&
  (i.op != 0x1C || h.ofmt.getD i.dst 99 == i.fmt)

/-- REASON 8: the conversion is one that R191 allows. -/
def eCvtOk (i : EInstr) : Bool :=
  i.op != 0x14 || (eFmtOk i.sfmt && pairOk i.sfmt i.fmt && (decide (i.rm ≤ 1) || (i.rm == 2 && i.fmt == 2)))

/-- The first failing check of an image and the instruction it concerns (Table 5.9): the header first, then each
instruction in program order. -/
def eCheck (l : List Byte) : Option (Nat × Nat) :=
  let h := EHead.ofBytes l
  let by1 (o : Nat) : Nat := (l.getD o 0).toNat
  let zeros := (7 :: (List.range 44).map (0x14 + ·)).all fun o => by1 o == 0
  if by1 0 + 256 * by1 1 ≠ 1 ∨ !zeros then some (1, 0)
  else if h.ninstr = 0 ∨ 64 < h.ninstr then some (2, 0)
  else if 8 < h.nin ∨ h.nout = 0 ∨ 4 < h.nout ∨ 8 < h.nparam ∨ 4 < h.ncap then some (3, 0)
  else if !((h.ifmt.take h.nin).all eFmtOk && (h.ofmt.take h.nout).all eFmtOk) then some (4, 0)
  else
    ((eProgram l).zipIdx.find? fun e => !(eDefined e.1 && eNamed h e.1 && eStreams h e.1 && eCvtOk e.1)).map fun e =>
      (if !eDefined e.1 then 5 else if !eNamed h e.1 then 6 else if !eStreams h e.1 then 7 else 8, e.2)

/-- Bytes of an image: the header and NINSTR instructions, at most 1,088. -/
def eImageBytes (ninstr : Nat) : Nat := 64 + 16 * min ninstr 64

/-! ## EPROG.LOAD (R192, R193) -/

def epgSpec (op : Nat) (b : Role) : OpSpec :=
  { cls := 0x10, op, d := .none, a := .ad, b, c := .none, mod := 0, imm := 3, last := false, lanes := false }

/-- Bind or unbind a program slot, and show it in ARR_VEC_STATUS. -/
def State.setSlot (s : State) (n slot : Nat) (p : Option EProg) : State :=
  (s.modArr n fun a => { a with progs := a.progs.set slot p }).syncBound n

def eprogFault (slot index reason : Nat) : FaultInfo :=
  ⟨FaultCode.eprogInvalid, 0, 0, none, some (slot, index, reason)⟩

/-- EPROG.LOAD: a check of Table 5.9 that fails leaves the slot unbound. -/
def execEprogLoad (n : Nat) (f : Fields) (u : List LineUpset) (s : State) : Host.Outcome State Fault Refusal := live s <|
  issueSimple n (epgSpec 0x00 .none) f true
    (fun s =>
      let a := (s.arr n).ctx.aget (regNo f.a)
      let slot := f.imm.toNat % 4
      match ocRangeCheck s n 2 a 64 64 with
      | some fi => .fault fi
      | none =>
        ocConsume s n 2 a.toNat 64 u fun hb s1 =>
          let len := eImageBytes (EHead.ofBytes hb).ninstr
          match ocRangeCheck s1 n 2 a len 64 with
          | some fi => .faultAt s1 fi
          | none =>
            ocConsume s1 n 2 a.toNat len (u.filter fun x => x.line != (s.ocFirst n + a.toNat) / 64) fun bs s2 =>
              match eCheck bs with
              | some (reason, i) => .faultAt (s2.setSlot n slot none) (eprogFault slot i reason)
              | none => .done (s2.setSlot n slot (some { off := s2.ocFirst n + a.toNat, image := bs }))) s

/-! ## EPROG.RUN (R188, R191, R194 to R198) -/

/-- The state of one element: temporaries, predicates, outputs written, values captured, flags. -/
structure EElem where
  t : List Nat
  q : List Bool
  o : List (Option Nat)
  cap : List (List Val)
  fl : Flags

def EElem.start : EElem :=
  ⟨List.replicate 16 0, List.replicate 4 false, List.replicate 4 none, List.replicate 4 [], 0⟩

/-- A source's bits: temporaries, inputs, parameters, IMM, INDEX (Table 5.8). -/
def eSource (i : EInstr) (e : EElem) (ins params : List Nat) (index x : Nat) : Nat :=
  if x < 16 then e.t.getD x 0
  else if x < 24 then ins.getD (x - 16) 0
  else if x < 32 then params.getD (x - 24) 0
  else if x = 32 then i.imm
  else index

/-- The width-cut bits of source `k`. -/
def eRead (i : EInstr) (e : EElem) (ins params : List Nat) (index k : Nat) : Nat :=
  eSource i e ins params index ([i.a, i.b, i.c].getD k 0) % 2 ^ fmtWidth (i.readFmt k)

/-- The instruction's predicate holds; without a predicate it always does. -/
def eHolds (i : EInstr) (e : EElem) : Bool := if i.psel = 0 then true else e.q.getD (i.psel - 1) false != i.pn

/-- The result of an operation that writes a temporary (Table 5.7); `r` is the random number of an ECVT. -/
def eResult (i : EInstr) (a b c r : Nat) : Nat × Flags :=
  match i.op with
  | 0x01 => vecElem 0x00 i.fmt a b c
  | 0x02 => vecElem 0x01 i.fmt a b c
  | 0x03 => vecElem 0x02 i.fmt a b c
  | 0x04 => vecElem 0x03 i.fmt a b c
  | 0x05 => vecElem 0x04 i.fmt a b c
  | 0x06 => vecElem 0x05 i.fmt a b c
  | 0x07 => vecElem 0x06 i.fmt a b c
  | 0x08 => vecElem 0x07 i.fmt a b c
  | 0x09 => vecElem 0x08 i.fmt a b c
  | 0x0A => vecElem 0x10 i.fmt a b c
  | 0x0B => vecElem 0x11 i.fmt a b c
  | 0x0C => vecElem 0x12 i.fmt a b c
  | 0x0D => vecElem 0x13 i.fmt a b c
  | 0x0E => vecElem 0x14 i.fmt a b c
  | 0x0F => vecElem 0x15 i.fmt a b c
  | 0x14 => convElem i.fmt (rmOf i.rm) r i.sat i.ftz (elemValue i.sfmt a)
  | 0x15 =>
    match floatFmt i.fmt with
    | some F =>
      let x := decodeF F a
      let y : Val := match x with | .fin sg m => .fin sg { m with exp := m.exp + signed 32 b } | v => v
      finish F [x] (y, 0)
    | none => (a, 0)
  | 0x16 => vecElem 0x09 i.fmt a b c
  | 0x17 => vecElem 0x0A i.fmt a b c
  | 0x18 => vecElem 0x0B i.fmt a b c
  | 0x19 => vecElem 0x0C i.fmt a b c
  | 0x1A => vecElem 0x0D i.fmt a b c
  | _ => (a, 0)

/-- One instruction on one element. -/
def eStep (i : EInstr) (ins params : List Nat) (index r : Nat) (e : EElem) : EElem :=
  let a := eRead i e ins params index 0
  let b := eRead i e ins params index 1
  let c := eRead i e ins params index 2
  if i.op = 0x10 then { e with t := e.t.set i.dst (if eHolds i e then a else b) }
  else if !eHolds i e then e
  else if 0x11 ≤ i.op ∧ i.op ≤ 0x13 then
    let (x, fl) := vecCmp (i.op + 5) i.fmt a b
    { e with q := e.q.set i.dst x, fl := e.fl ||| fl }
  else if i.op = 0x1B then { e with cap := e.cap.set i.dst (e.cap.getD i.dst [] ++ [elemValue i.fmt a]) }
  else if i.op = 0x1C then { e with o := e.o.set i.dst (some a) }
  else
    let (x, fl) := eResult i a b c r
    { e with t := e.t.set i.dst x, fl := e.fl ||| fl }

/-- An element program on one element: `rnd k` is the random number of the k-th stochastic ECVT. -/
def eRunElem (prog : List EInstr) (ins params : List Nat) (index : Nat) (rnd : Nat → Nat) : EElem :=
  (prog.foldl (fun (acc : EElem × Nat) i =>
    let sr := i.op == 0x14 && i.rm == 2
    (eStep i ins params index (if sr then rnd acc.2 else 0) acc.1, if sr then acc.2 + 1 else acc.2)) (EElem.start, 0)).1

def eStochastic (prog : List EInstr) : Nat := (prog.filter fun i => i.op == 0x14 && i.rm == 2).length
/-- The sum of the costs of Table 5.7. -/
def eCost (prog : List EInstr) : Nat := prog.foldl (fun a i => a + if 0x0A ≤ i.op ∧ i.op ≤ 0x0F then 4 else 1) 0

def eWidth (fmt : Nat) : Nat := fmtWidth fmt / 8

/-- R195, check 4: overlapping streams. -/
def eOverlapOk (ins outs : List (Nat × Nat)) (count : Nat) : Bool :=
  let ov (x y : Nat × Nat) : Bool := overlaps x.1 (count * x.2) y.1 (count * y.2)
  let pairs (l : List (Nat × Nat)) : Bool := l.zipIdx.all fun x => l.zipIdx.all fun y => x.2 == y.2 || !ov x.1 y.1
  pairs ins && pairs outs && (ins.all fun x => outs.all fun y => !ov x y || x == y)

/-- EPROG.RUN, with the checks of R195 in order; the operand list is read between the first check and the second. -/
def execEprogRun (n : Nat) (f : Fields) (u : List LineUpset) (s : State) : Host.Outcome State Fault Refusal := live s <|
  issueSimple n (epgSpec 0x01 .s) f true
    (fun s =>
      let c := (s.arr n).ctx
      let a := c.aget (regNo f.a)
      let count := (c.sget f.b.toNat).toNat
      let slot := f.imm.toNat % 4
      let p := (s.ident n).part
      if count = 0 ∨ 65536 < count then .fault ⟨FaultCode.operandRange, 3, dw count, none, none⟩
      else
        match (s.arr n).progs.getD slot none with
        | none => .fault (eprogFault slot 0 9)
        | some pr =>
          match ocRangeCheck s n 2 a 128 64 with
          | some fi => .fault fi
          | none =>
            ocConsume s n 2 a.toNat 128 u fun ol s1 =>
              let h := EHead.ofBytes pr.image
              let prog := eProgram pr.image
              let wd (o k : Nat) : Nat := ofLe ((ol.drop o).take k)
              let ins : List (Nat × Nat) := (List.range h.nin).map fun i => (wd (4 * i) 4, eWidth (h.ifmt.getD i 0))
              let outs : List (Nat × Nat) := (List.range h.nout).map fun i => (wd (0x20 + 4 * i) 4, eWidth (h.ofmt.getD i 0))
              let recs : List Nat := (List.range h.ncap).map fun i => wd (0x30 + 2 * i) 2
              let params : List Nat := (List.range 8).map fun i => wd (0x40 + 4 * i) 4
              let base := s1.ocFirst n
              match (ins ++ outs).find? fun x => x.1 % 64 != 0 with
              | some x => .faultAt s1 ⟨FaultCode.misaligned, 2, dw x.1, none, none⟩
              | none =>
              match (ins ++ outs).find? fun x => decide (s1.ocSize n < x.1 + count * x.2) with
              | some x => .faultAt s1 ⟨FaultCode.ocRange, 2, dw x.1, none, none⟩
              | none =>
              if !eOverlapOk ins outs count then .faultAt s1 ⟨FaultCode.operandRange, 2, a, none, none⟩
              else
              match (if s1.amaxEnabled p then recs.find? fun r => decide (s1.amaxCount p ≤ r) else none) with
              | some r => .faultAt s1 ⟨FaultCode.operandRange, 2, dw r, none, none⟩
              | none =>
              match (if s1.amaxEnabled p then recs.find? fun r => !s1.amaxRecordOk p r else none) with
              | some r => .faultAt s1 ⟨FaultCode.addrUnmapped, 2, dw (s1.amaxRecordAddr p r), none, none⟩
              | none =>
              let phys (x : Nat × Nat) : Nat × Nat := (base + x.1, count * x.2)
              match (s1.arr n).access (ins.map phys) (outs.map phys) with
              | .illegal => .faultAt s1 ⟨FaultCode.illegalGroup, 2, a, none, none⟩
              | .stall => .stall
              | .ok =>
              let s2 := applyOcUpsets s1 n ((ins.map phys).flatMap fun r => touchedLines r.1 r.2) u
              match (ins.map phys).findSome? fun r => s2.ocViewPoison n r.1 r.2 with
              | some l => .faultAt s2 ⟨FaultCode.dataPoison, 2, dw (l * 64 - base), none, none⟩
              | none =>
              let data := ins.map fun x => ((s2.ocView n (base + x.1) (count * x.2)).toArray, x.2)
              let sN := eStochastic prog
              let elems := (List.range count).map fun i =>
                let inv := data.map fun d => ofLe ((List.range d.2).map fun k => d.1.getD (i * d.2 + k) 0)
                eRunElem prog inv params i fun k => srAt c (i * sN + k)
              let ws : List OcWrite := elems.zipIdx.flatMap fun e =>
                (outs.zipIdx).filterMap fun x =>
                  (e.1.o.getD x.2 none).map fun v => ⟨base + x.1.1 + e.2 * x.1.2, toLe x.1.2 v⟩
              let s3 := recs.zipIdx.foldl (fun s r => holdCapture s n r.1 (elems.flatMap fun e => e.cap.getD r.2 [])) s2
              match bufWrite s3 n (count * outs.foldl (fun acc x => acc + x.2) 0) ws with
              | .done s4 =>
                let busy := ceilDiv count 256 * (eCost prog + h.nin + h.nout)
                let s5 := (s4.modCtx n fun c => { c with srCtr := c.srCtr + dw (count * sN) }).incF
                  (Fld.ARR_VEC_BUSY_CYCLES n) busy
                .done (s5.raiseNum n 1 (elems.foldl (fun f e => f ||| e.fl) 0))
              | .fault fi => .faultAt s2 fi
              | r => r) s

end Sys2Proof.Machine
end

