-- ==== Sys2Proof/Machine/ArrayMatrix.lean ====
section
/-! DEFINITION. The Runen classes MMA and ACC and the commands of the matrix unit and the drain unit (R110, R111, R133
to R165). -/
namespace Sys2Proof.Machine
open Sys2Proof.Num

/-- Lines found correctable and uncorrectable while accumulator memory is read (R157). -/
def applyAccUpsets (s : State) (n : Nat) (corrected uncorrectable : List Nat) : State :=
  let id := s.ident n
  let s1 := corrected.foldl (fun s l =>
    ((s.incSat (Fld.ARR_ACC_ECC_CORRECTED n) 1).countUpset (keyEcc n)).raise (srcArray n) id.part clsCorrected 0x2005 (s.fabAcc id n l)
      [w id.larray, w l]) s
  uncorrectable.foldl (fun s l =>
    let hit (g : AccGroup) : Bool := decide (g.span.1 ≤ l) && decide (l < g.span.1 + g.span.2)
    let s1 := (s.incSat (Fld.ARR_ACC_ECC_UNCORRECTABLE n) 1).countUpset (keyUe n)
    match (s1.arr n).acc.findIdx? hit with
    | some g => s1.poisonGroup n g 1 l
    | none =>
      match s1.parked.find? fun k => k.phys == n && k.acc.any hit with
      | some k =>
        let gi := (k.acc.findIdx? hit).getD 0
        let k' := { k with acc := k.acc.map fun g => if hit g then { g with state := 2 } else g }
        ({ s1 with parked := s1.parked.map fun (x : Parked) => if x.id = k.id then k' else x }).raise (srcArray n) k.id.part clsInfo
          0x2006 (s1.fabAcc k.id n l) [w k.id.larray, w gi, 1, w l]
      | none => s1.zeroLines n l 1) s1

/-! ## Class ACC: open and close -/

def accSpec (op : Nat) (a b : Role) (mod : BitVec 15) (imm : BitVec 64) : OpSpec :=
  { cls := 0x09, op, d := .none, a, b, c := .none, mod, imm, last := true, lanes := false }
/-- MOD[14:12]: the group. -/
def accGrp (f : Fields) : Nat := bits f.mod.toNat 12 3
/-- MOD[3:2] and MOD[1]. -/
def accShape (f : Fields) : Nat := bits f.mod.toNat 2 2
def accIdx (f : Fields) : Nat := bits f.mod.toNat 1 1
def immFirst (f : Fields) : Nat := bits f.imm.toNat 0 16
def immCount (f : Fields) : Nat := bits f.imm.toNat 16 16

/-- MODE bit 0 of the context on an array. -/
def State.modeIdx (s : State) (n : Nat) : Nat := s.getF (Fld.PRT_MODE_IDX (s.ident n).part)

/-- ACC_STATE with a REASON of Table 4.4; REASON 1 and 5 report the group, the others a slot or entry (R146). -/
def accFault (reason g val : Nat) : FaultInfo :=
  ⟨FaultCode.accState, if reason = 1 ∨ reason = 5 then 0 else 5, dw val, some (g, reason), none⟩
def slotFault : FaultInfo := ⟨FaultCode.slotDiscipline, 0, 0, none, none⟩

/-- An instruction of class MMA or ACC issues only when every older group has committed and nothing released waits
(R97, R99). -/
def accReady (a : Arr) : Bool := a.done.isEmpty && a.released.isEmpty
/-- Its issue is its group's commit (R99). -/
def accAfter (n : Nat) (s : State) : State := (s.commitOldest n).poke n

/-- Issue an instruction of class MMA or ACC. -/
def accIssue (n : Nat) (sp : OpSpec) (f : Fields) (extra : Bool) (sem : State → Sem) (s : State) :
    Host.Outcome State Fault Refusal :=
  issue n sp f extra (fun s => if accReady (s.arr n) then sem s else .stall) (fun _ => none) (accAfter n) s

/-- ACC.OPEN (R111, R140, R143, R144, Table 4.4).  It waits while a close that is under way holds the group or one of
its lines (Table 4.6).  Where several checks fail, the first in the order SLOT_DISCIPLINE, 1, 8, 5, 6, 7 is the fault (the manual gives none:
DESIGN CHOICE, log entry 3). -/
def execAccOpen (n : Nat) (f : Fields) (s : State) : Host.Outcome State Fault Refusal := live s <|
  let store := bits f.mod.toNat 4 2
  let shape := accShape f
  accIssue n (accSpec 0x00 .none .none 0x703E 0xFFFFFFFF) f (shape != 3)
    (fun s =>
      let a := s.arr n
      let g := accGrp f
      let idx := accIdx f
      let first := immFirst f
      let count := immCount f
      let x : AccGroup := { state := 1, shape, store, idx, first, count, res := s.getF (Fld.ARR_ACC_CFG_RES_FIRST n) }
      let meetsSpan (y : AccGroup) : Bool := overlaps x.span.1 x.span.2 y.span.1 y.span.2
      let closing (i : Nat) : Bool := a.drains.any fun d => d.grp == i && d.close
      if idx ≠ s.modeIdx n then .fault slotFault
      else if (s.accGroup n g).state ≠ 0 then (if closing g then .stall else .fault (accFault 1 g g))
      else if store = 3 then .fault (accFault 8 g first)
      else if count = 0 ∨ s.getF (Fld.ARR_ACC_CFG_RES_COUNT n) < (first + count) * x.lines then .fault (accFault 5 g g)
      else if a.acc.zipIdx.any fun e => meetsSpan e.1 && !closing e.2 then .fault (accFault 6 g first)
      else if a.acc.any meetsSpan then .stall
      else if idx = 1 ∧ shape ≠ 0 then .fault (accFault 7 g first)
      else .done ((((s.zeroLines n x.span.1 x.span.2).setAccGroup n g x).modArr n fun a => { a with savedOut := a.savedOut.filter fun i => i != g }).accSync n)) s

/-- ACC.CLOSE (R145): it waits for every earlier MMA and drain of the group. -/
def execAccClose (n : Nat) (f : Fields) (s : State) : Host.Outcome State Fault Refusal := live s <|
  accIssue n (accSpec 0x01 .none .none 0x7000 0) f true
    (fun s =>
      let a := s.arr n
      let g := accGrp f
      if (s.accGroup n g).state = 0 then .fault (accFault 1 g g)
      else if (a.mma.any fun m => m.grp == g) || (a.drains.any fun d => d.grp == g) then .stall
      else .done (s.closeGroup n g)) s

/-! ## MMA (R110, R133 to R138, R147) -/

def mmaSpec : OpSpec :=
  { cls := 0x08, op := 0x00, d := .none, a := .ad, b := .ad, c := .s, mod := 0x7FFE, imm := 0xFFFFFFFFFFFF, last := true,
    lanes := false }
def mmaAfmt (f : Fields) : Nat := bits f.mod.toNat 8 4
def mmaBfmt (f : Fields) : Nat := bits f.mod.toNat 4 4

/-- Operand formats that R110 allows together. -/
def mmaPairOk (a b : Nat) : Bool :=
  decide (a ≤ 9) && decide (b ≤ 9) && groupSize a == groupSize b && (isIntFmt a == isIntFmt b)

/-- The K values that R110 allows. -/
def mmaKOk (a b k : Nat) : Bool :=
  decide (1 ≤ k) && decide (k ≤ 8192) && k % (if isBlock a || isBlock b then 1024 else groupSize a) == 0

/-- An operand element: a bfloat16 subnormal reads as zero of its sign with FLUSHED (R134). -/
def mmaVal (code : Nat) (byte : Nat → Nat) (k : Nat) : Val × Flags :=
  if code = 2 then
    let x := plainBits 2 byte 0 k
    if bits x 7 8 = 0 ∧ bits x 0 7 ≠ 0 then (.fin (bits x 15 1 == 1) zero, Flag.flushed) else (decodeF bf16 x, 0)
  else (tensorValue code byte 0 k, 0)

/-- The exact sum of a group's products (R135, R136); a zero sum is +0. -/
def groupSum (as bs : List Val) : Val × Flags :=
  let ps := List.zipWith mulVal as bs
  let fl := ps.foldl (fun f p => f ||| p.2) (0 : Flags)
  let vs := ps.map Prod.fst
  let pInf := vs.contains (.inf false)
  let nInf := vs.contains (.inf true)
  if vs.any isNan then (.nan, fl)
  else if pInf && nInf then (.nan, fl ||| Flag.invalid)
  else if pInf then (.inf false, fl)
  else if nInf then (.inf true, fl)
  else
    (vs.foldl (fun acc v => (addVal acc v).1) (.fin false zero), fl)

/-- One addition into an accumulator element (R147, Table 4.5). -/
def accAdd (store x : Nat) (v : Val) : Nat × Flags :=
  match store with
  | 0 =>
    let a := decodeW x
    let (r, f1) := addVal a v
    let (y, f2) := encodeW r
    (y, f1 ||| f2 ||| nonfinite [a, v])
  | 1 =>
    let a := decodeF f32 x
    let (r, f1) := addVal a v
    let (y, f2) := rne f32 r
    (y, f1 ||| f2 ||| nonfinite [a, v])
  | _ =>
    let t : Int := match v with | .fin sg m => (toInt .rtz 0 sg m).1 | _ => 0
    let i := signed 32 x + t
    (unsigned 32 i, if i < -(2 ^ 31) ∨ (2 ^ 31 - 1 : Int) < i then Flag.overflow else 0)

/-- Cut a list into groups of `g`; the fuel is the number of groups. -/
def chunks {α : Type} (g : Nat) : Nat → List α → List (List α)
  | 0, _ => []
  | k + 1, l => l.take g :: chunks g k (l.drop g)

/-- All group sums of an element enter it in ascending order (R137). -/
def mmaElem (g k store x : Nat) (row col : List Val) : Nat × Flags :=
  (List.zip (chunks g (k / g) row) (chunks g (k / g) col)).foldl (fun acc t =>
    let (v, f1) := groupSum t.1 t.2
    let (y, f2) := accAdd store acc.1 v
    (y, acc.2 ||| f1 ||| f2)) (x, 0)

/-- Rows (or columns) of an operand as read by value, with the flags of reading. -/
def mmaOperand (s : State) (n code k base stride count : Nat) : List (List Val) × Flags :=
  (List.range count).foldl (fun acc i =>
    let bytes := (s.ocView n (base + i * stride * 64) (tensorBytes code k)).toArray
    let vs := (List.range k).map (mmaVal code fun j => (bytes.getD j 0).toNat)
    let fl := vs.foldl (fun f v => f ||| v.2) acc.2
    (acc.1 ++ [vs.map Prod.fst], fl ||| nonfinite (vs.map Prod.fst))) ([], 0)

/-- The operand-cache ranges of an operand. -/
def mmaRanges (code k base stride count : Nat) : List (Nat × Nat) :=
  (List.range count).map fun i => (base + i * stride * 64, tensorBytes code k)

/-- Bytes from an operand's start to the end of its last row. -/
def mmaExtent (code k stride count : Nat) : Nat := (count - 1) * stride * 64 + tensorBytes code k

/-- The tile product enters the group's elements. -/
def mmaApply (s : State) (n : Nat) (g : AccGroup) (af bf k slot shape : Nat) (a b : List (List Val)) : State × Flags :=
  (a.zipIdx).foldl (fun acc e =>
    let (unit, r) := if g.idx = 1 then (slot + e.2, 0) else (slot, e.2)
    let o := g.rowAt unit r
    let old := acc.1.accRow n o g.store (shapeCols shape)
    let new := (List.zip old b).map fun x => mmaElem (groupSize (max af bf)) k g.store x.1 e.1 x.2
    (acc.1.setAccRow n o g.store (new.map Prod.fst), new.foldl (fun f x => f ||| x.2) acc.2)) (s, 0)

/-- Recomputed group sums (R156): each is counted and reported. -/
def applyRecomp (s : State) (n g : Nat) (m : MmaUpset) : State :=
  let id := s.ident n
  let s1 := m.recomputed.foldl (fun s u =>
    (s.incSat (Fld.ARR_ACC_RECOMP_COUNT n) 1).raise (srcArray n) id.part clsCorrected 0x2004 0 [w id.larray, w g, w u]) s
  if m.permanent then (s1.poisonGroup n g 3 0).countUpset (keyRecomp n) else s1

/-- The first poisoned operand-cache line under an operand. -/
def mmaPoison (s : State) (n : Nat) (rs : List (Nat × Nat)) : Option Nat :=
  rs.findSome? fun r => s.ocViewPoison n r.1 r.2

/-- The rows of a drain as accumulator memory holds them. -/
def drainRows (s : State) (n : Nat) (g : AccGroup) (d : Drain) : List (List Nat) :=
  (List.range d.rows).map fun r => s.accRow n (g.rowAt (d.first + r / g.rows) (r % g.rows)) g.store d.cols

/-- Drains that still wait and read one of the units keep what those rows hold now: a later MMA's sums reach no row before the drain
has read it (Table 4.6). -/
def State.holdRows (s : State) (n g : Nat) (units : List Nat) : State :=
  let keep (d : Drain) : Drain :=
    if d.grp = g ∧ !d.started ∧ d.held.isNone ∧ d.units.any units.contains then { d with held := some (drainRows s n (s.accGroup n g) d) } else d
  s.modArr n fun a => { a with drains := a.drains.map keep }

/-- MMA.  A poisoned operand poisons the target group, and the array faults DATA_POISON at the next group boundary,
which is the MMA's own commit (R158, R99).  Into a group that was POISONED before, an MMA changes nothing and raises no
fault (R159).  It enters the cell array whatever is still in the adder tree (R148).  Where several checks fail, the first in the order below
is the fault (the manual gives none: DESIGN CHOICE, log entry 3). -/
def execMma (n : Nat) (f : Fields) (u : List LineUpset) (m : MmaUpset) (s : State) : Host.Outcome State Fault Refusal := live s <|
  let af := mmaAfmt f
  let bf := mmaBfmt f
  let shape := accShape f
  let g := accGrp f
  let slot := immFirst f
  let sa := bits f.imm.toNat 16 16
  let sb := bits f.imm.toNat 32 16
  let rows := shapeRows shape
  let cols := shapeCols shape
  let poisonOf (s : State) : Option (Nat × Nat) :=
    let c := (s.arr n).ctx
    let k := (c.sget f.c.toNat).toNat
    let base := s.ocFirst n
    match mmaPoison s n (mmaRanges af k (base + (c.aget (regNo f.a)).toNat) sa rows) with
    | some l => some (2, l * 64 - base)
    | none => (mmaPoison s n (mmaRanges bf k (base + (c.aget (regNo f.b)).toNat) sb cols)).map fun l => (3, l * 64 - base)
  issue n mmaSpec f (mmaPairOk af bf && shape != 3)
    (fun s =>
      let ar := s.arr n
      let c := ar.ctx
      let k := (c.sget f.c.toNat).toNat
      let a := c.aget (regNo f.a)
      let b := c.aget (regNo f.b)
      let x := s.accGroup n g
      let units : List Nat := if accIdx f = 1 then (List.range rows).map (slot + ·) else [slot]
      if !accReady ar then .stall
      else if accIdx f ≠ s.modeIdx n then .fault slotFault
      else if !mmaKOk af bf k then .fault ⟨FaultCode.operandRange, 4, dw k, none, none⟩
      else
        match ocRangeCheck s n 2 a (mmaExtent af k sa rows) 64, ocRangeCheck s n 3 b (mmaExtent bf k sb cols) 64 with
        | some fi, _ => .fault fi
        | none, some fi => .fault fi
        | none, none =>
          if x.state = 0 then .fault (accFault 1 g g)
          else
            match units.find? fun i => !x.holds i with
            | some i => .fault (accFault 2 g i)
            | none =>
              if x.idx = 0 ∧ shape ≠ x.shape then .fault (accFault 3 g slot)
              else if x.store = 2 ∧ !isIntFmt af then .fault (accFault 4 g slot)
              else if x.idx = 1 ∧ shape = 1 then .fault (accFault 7 g slot)
              else
                let base := s.ocFirst n
                let ra := mmaRanges af k (base + a.toNat) sa rows
                let rb := mmaRanges bf k (base + b.toNat) sb cols
                match ar.access (ra ++ rb) [] with
                | .illegal => .fault ⟨FaultCode.illegalGroup, 2, a, none, none⟩
                | .stall => .stall
                | .ok =>
                    let s1 := applyOcUpsets s n ((ra ++ rb).flatMap fun r => touchedLines r.1 r.2) u
                    let s2 := applyAccUpsets s1 n m.corrected m.uncorrectable
                    let s3 := applyRecomp s2 n g m
                    let s4 := match poisonOf s3 with
                      | some (_, off) => s3.poisonGroup n g 2 off
                      | none => s3
                    let y := s4.accGroup n g
                    let (va, f1) := mmaOperand s4 n af k (base + a.toNat) sa rows
                    let (vb, f2) := mmaOperand s4 n bf k (base + b.toNat) sb cols
                    let (s5, f3) := if y.state = 1 then mmaApply (s4.holdRows n g units) n y af bf k slot shape va vb else (s4, 0)
                    let s6 := s5.modArr n fun ar => { ar with mma := ar.mma ++
                      [{ grp := g, first := slot, count := units.length, binary32 := af == 0 }] }
                    let occ := k / groupSize af * (if shape = 0 then 1 else 2)
                    let s7 := (s6.incF (Fld.ARR_MM_BUSY_CYCLES n) occ).accSync n
                    .done (if y.state = 1 then s7.raiseNum n 0 (f1 ||| f2 ||| f3) else s7))
    (fun _ => none)
    (fun t =>
      let idx := match (t.arr n).done with | gr :: _ => gr.count - 1 | [] => 0
      let s1 := t.commitOldest n
      match (if (s.accGroup n g).state = 2 then none else poisonOf s1) with
      | some (operand, off) =>
        let s2 := s1.syncPc n
        (s2.reportFault n 0x08 0x00 idx (s2.arr n).oldestPc ⟨FaultCode.dataPoison, operand, dw off, none, none⟩).modArr n
          fun a => { a with stopReq := none, stopBit := false, stepping := false }
      | none => s1.poke n) s

/-- The oldest MMA's last group sum has reached accumulator memory (R148): what waits for it may go on. -/
def execLastAccumulatorUpdate (n : Nat) (s : State) : Host.Outcome State Fault Refusal := live s <|
  if 144 ≤ n then .fault (.noSuchUnit n)
  else .next (((s.modArr n fun a =>
    { a with mma := a.mma.drop 1, drains := a.drains.map fun d => { d with ahead := d.ahead - 1 } }).accSync n).poke n)

/-! ## Drains (R111, R148 to R155) -/

/-- Where register A of ACC.DRAIN points (R152): an HBM address, or a physical operand-cache offset of the array's own
window; otherwise the fault. -/
def drainTarget (s : State) (n : Nat) (add : Bool) (a : Word64) (extents : List (Nat × Nat)) :
    Except FaultInfo (Bool × Nat) :=
  let id := s.ident n
  let bad (code x : Nat) : Except FaultInfo (Bool × Nat) := .error ⟨code, 2, dw x, none, none⟩
  match localKind a.toNat with
  | .hbm =>
    match extents.find? fun e => !(s.hbmRangeOk id.part e.1 e.2) with
    | some e => bad FaultCode.addrUnmapped e.1
    | none => if extents.any fun e => s.textHit id.part e.1 e.2 then bad FaultCode.addrKind a.toNat else .ok (false, a.toNat)
  | .unmapped => bad FaultCode.addrUnmapped a.toNat
  | .oc window off =>
    let own := if id.part = 0 then n else id.larray
    if window ≠ own ∨ add then bad FaultCode.addrKind a.toNat
    else
      let base := if id.part = 0 then off else s.ocFirst n + off
      let inside (e : Nat × Nat) : Bool :=
        let o := base + (e.1 - a.toNat)
        decide (s.ocFirst n ≤ o) && decide (o + e.2 ≤ s.ocFirst n + s.ocSize n)
      if extents.all inside then .ok (true, base) else bad FaultCode.ocRange a.toNat
  | _ => bad FaultCode.addrKind a.toNat

/-- ACC.DRAIN: checked and put into the drain queue; it waits while the queue is full. -/
def execAccDrain (n : Nat) (f : Fields) (s : State) : Host.Outcome State Fault Refusal := live s <|
  let target := bits f.mod.toNat 8 4
  let rm := bits f.mod.toNat 6 2
  let add := f.mod.getLsbD 3
  accIssue n (accSpec 0x02 .ad .s 0x7FFC 0xFFFFFFFFFFFF) f
    (([0, 1, 2, 10] : List Nat).contains target && (decide (rm ≤ 1) || (rm == 2 && target == 2)))
    (fun s =>
      let ar := s.arr n
      let c := ar.ctx
      let g := accGrp f
      let x := s.accGroup n g
      let first := immFirst f
      let count := immCount f
      let stride := bits f.imm.toNat 32 16
      let a := c.aget (regNo f.a)
      let eb := fmtWidth target / 8
      let rows := count * x.rows
      let rowBytes := x.cols * eb
      if count = 0 then .fault ⟨FaultCode.operandRange, 5, 0, none, none⟩
      else if stride = 0 ∨ stride < ceilDiv rowBytes 64 then .fault ⟨FaultCode.operandRange, 5, dw stride, none, none⟩
      else if a.toNat % 64 ≠ 0 then .fault ⟨FaultCode.misaligned, 2, a, none, none⟩
      else if x.state = 0 then .fault (accFault 1 g g)
      else
        match ((List.range count).map (first + ·)).find? fun i => !x.holds i with
        | some i => .fault (accFault 2 g i)
        | none =>
          if x.state = 2 then .fault ⟨FaultCode.dataPoison, 5, dw first, none, none⟩
          else
            match drainTarget s n add a ((List.range rows).map fun r => (a.toNat + r * (stride * 64), rowBytes)) with
            | .error fi => .fault fi
            | .ok (toOc, addr) =>
              let d : Drain := {
                grp := g, first, count, target, rm, sat := f.mod.getLsbD 5, ftz := f.mod.getLsbD 4, add,
                close := f.mod.getLsbD 2, scale := if f.b = 0 then none else some ((c.sget f.b.toNat).setWidth 32),
                addr, toOc, stride := stride * 64, rows, cols := x.cols, seed := c.srSeed, ctr := c.srCtr, started := false,
                ahead := ar.mma.length, held := none }
              if 4 ≤ ar.drains.length ∨ (toOc ∧ 16 ≤ ar.rangeCount) then .stall
              else
                match (if toOc then ar.access [] d.ocRanges else Access.ok) with
                | .illegal => .fault ⟨FaultCode.illegalGroup, 2, a, none, none⟩
                | .stall => .stall
                | .ok =>
                  let s1 := s.modArr n fun ar => { ar with
                    drains := ar.drains ++ [d]
                    ctx := if rm = 2 then { ar.ctx with srCtr := ar.ctx.srCtr + dw (rows * x.cols) } else ar.ctx }
                  .done ((d.ocRanges.foldl (fun s r => s.unbindOverlap n r.1 r.2) s1).accSync n)) s

/-- One element of a drain (R74, R151): the scale multiplies exactly, then one rounding; bfloat16 always flushes
(R71). -/
def drainElem (d : Drain) (i : Nat) (v : Val) : Nat × Flags :=
  let sc := d.scale.map fun x => decodeF f32 x.toNat
  let (y, f1) := match sc with | some t => mulVal v t | none => (v, 0)
  let (r, f2) := convElem d.target (rmOf d.rm) (srBits d.seed (d.ctr + dw i)) d.sat (d.ftz || d.target == 2) y
  (r, f1 ||| f2 ||| nonfinite (v :: sc.toList))

/-- Write a drained row: into the operand cache, over HBM lines, or added into them line by line, the controller's own flags with
SOURCE_KIND 3 (R76, R153, R155, R208). -/
def drainRow (s : State) (n : Nat) (d : Drain) (r : Nat) (bytes : List Byte) : State :=
  let id := s.ident n
  let a := d.addr + r * d.stride
  if d.toOc then s.ocWrite n a bytes
  else
  let s := s.hbmUse id.part bytes.length
  if d.add then
    (List.range (bytes.length / 64)).foldl (fun s i =>
      let (s1, st, fl) := s.addOnWrite id.part (a + 64 * i) d.target ((bytes.drop (64 * i)).take 64)
      match st with
      | .poisoned =>
        match s1.hbmPhys id.part (a + 64 * i) with
        | some pa => s1.raise (s1.srcHbm pa) id.part clsInfo 0x3004 (s1.fabOf id.part (a + 64 * i)) (w2 (dw (a + 64 * i)) ++ [w id.larray])
        | none => s1
      | _ => match s1.hbmPhys id.part (a + 64 * i) with
        | some pa => s1.numFlags (s1.srcHbm pa) id.part (some id.larray) 3 s1.time fl
        | none => s1) s
  else s.hbmWrite id.part a bytes

/-- The drain at the head of the queue reads its rows and writes them (R149 to R155, R157).  It starts only when no
drain is still writing, when the MMAs that issued before it and name its units have made their last update, and, where it closes the
group, when every earlier MMA of the group has.  An uncorrectable line poisons the group; what the drain then delivers for the
elements on it is a free value.  With CLOSE the group closes when the last row has been read. -/
def State.drainStart (s : State) (n : Nat) (corrected uncorrectable : List Nat) : State :=
    let ar := s.arr n
    match ar.drains with
    | [] => s
    | d :: t =>
      let blocked := (ar.mma.take d.ahead).any fun m => m.grp == d.grp && (d.close || m.units.any d.units.contains)
      if d.started || blocked then s
      else
        let g := s.accGroup n d.grp
        let s1 := applyAccUpsets s n corrected uncorrectable
        let out := (d.held.getD (drainRows s n g d)).zipIdx.foldl (fun (acc : State × Flags) row =>
          let r := row.2
          let o := g.rowAt (d.first + r / g.rows) (r % g.rows)
          let cs := row.1
          let (s2, es) := cs.zipIdx.foldl (fun (q : State × List (Nat × Flags)) e =>
            let line := (o + e.2 * storeBytes g.store) / 128
            let line2 := (o + e.2 * storeBytes g.store + storeBytes g.store - 1) / 128
            if uncorrectable.contains line || uncorrectable.contains line2 then
              let (x, s') := q.1.draw
              (s', q.2 ++ [(x.toNat % 2 ^ fmtWidth d.target, (0 : Flags))])
            else (q.1, q.2 ++ [drainElem d (r * d.cols + e.2) (storedVal g.store e.1)])) (acc.1, [])
          (drainRow s2 n d r (es.flatMap fun e => toLe (fmtWidth d.target / 8) e.1),
           es.foldl (fun f e => f ||| e.2) acc.2)) (s1, 0)
        let id := s.ident n
        let s3 := (out.1.numFlags (srcArray n) id.part (some id.larray) 2 out.1.time out.2).raiseStat n out.2
        let s4 := s3.modArr n fun a => { a with drains := { d with started := true } :: t }
        (if d.close then s4.closeGroup n d.grp else s4.accSync n).retireIfDue n

/-- DRAIN_START. -/
def execDrainStart (n : Nat) (corrected uncorrectable : List Nat) (s : State) : Host.Outcome State Fault Refusal := live s <|
  if 144 ≤ n then .fault (.noSuchUnit n) else .next (s.drainStart n corrected uncorrectable)

/-- The running drain's last write is accepted. -/
def State.drainEnd (s : State) (n : Nat) : State := match (s.arr n).drains with
  | d :: t => if d.started then ((s.modArr n fun a => { a with drains := t }).accSync n).poke n else s
  | [] => s

/-- The last write of the running drain has been accepted (R154). -/
def execDrainComplete (n : Nat) (s : State) : Host.Outcome State Fault Refusal := live s <|
  if 144 ≤ n then .fault (.noSuchUnit n) else .next (s.drainEnd n)

end Sys2Proof.Machine
end

