-- ==== Sys2Proof/Machine/ArrayControl.lean ====
section
/-! DEFINITION. The commands that move an array's groups on, and its control operations: commit, release, replay,
preemption, restore, and what the bits of ARR_CTL do (R84, R87, R94, R96, R97, R101, R107, R120, R123 to R126). -/
namespace Sys2Proof.Machine

/-- A command on an array that the device has. -/
def onArray (n : Nat) (f : State → State) (s : State) : Host.Outcome State Fault Refusal :=
  if 144 ≤ n then .fault (.noSuchUnit n) else .next (f s)

/-- GROUP_COMMIT (R96): the oldest ended group commits, unless a release of an earlier group still waits (R97). -/
def execGroupCommit (n : Nat) (s : State) : Host.Outcome State Fault Refusal := live s <|
  onArray n (fun s => (s.commitOldest n).poke n) s

/-- DEFERRED_RELEASE (R97): released operations that waited for a credit go out, in order. -/
def execDeferredRelease (n : Nat) (s : State) : Host.Outcome State Fault Refusal := live s <|
  onArray n (fun s => (s.releaseAll n (s.arr n).released.length).poke n) s

/-- A replay (R101): the oldest uncommitted group starts again from its checkpoint, and nothing of it or of the
younger group is kept. -/
def State.replay (s : State) (n : Nat) (g : Group) : State :=
  let s1 := s.giveBackAll n
  let s2 := { s1 with cnd := { s1.cnd with waiters := s1.cnd.waiters.filter fun x => x.arr != n } }.modArr n fun a =>
    { a with done := [], cur := none, ctx := g.checkpoint.restored a.ctx, pc := g.startPc }
  let s3 := if s2.arrState n = stWaiting then s2.setArrState n stRunning else s2
  s3.syncPc n

/-- TRANSIENT_UPSET (R101, R42): counted and reported, with a replay where a group is uncommitted.  A unit whose clock is gated meets none
(R40). -/
def execTransientUpset (n : Nat) (s : State) : Host.Outcome State Fault Refusal := live s <|
  onArray n (fun s =>
    if s.arrState n = stRetired ∨ s.domainRuns (n / 4) = false then s
    else
      let a := s.arr n
      let lw : Word32 := if s.arrBusy n then w (s.ident n).larray else 0xFFFFFFFF
      let part := s.arrPart n
      let s1 := (s.incSat (Fld.ARR_REPLAY_COUNT n) 1).countUpset (keyReplay n)
      let s2 := match a.done ++ a.cur.toList with
        | g :: _ => (s1.replay n g).raise (srcArray n) part clsCorrected 0x2002 0 ([lw, 0] ++ w2 (dw g.startPc))
        | [] => s1.raise (srcArray n) part clsCorrected 0x2002 0 [lw, 0, 0xFFFFFFFF, 0xFFFFFFFF]
      (s2.retireIfDue n).poke n) s

/-! ## Lending (R238, R407, R408) -/

/-- The event that a context waits for, off its array, has come; with no wait it could run at once (R238).  The wake of a HALT counts as
such an event. -/
def State.arrived (s : State) (k : Parked) : Bool :=
  k.woken || ((k.state == stRunning || k.state == stWaiting) && match k.waits with
    | none => true
    | some (.gey g v) => decide (v.toNat ≤ s.getF (Fld.GEY_COUNT_COUNT g))
    | some (.take c _ _) => let x := s.cndGet c; !x.valid || (x.occupied != 0 && !s.cndHeld c)
    | some (.post c _ _) => let x := s.cndGet c; !x.valid || (decide (0 < x.free) && !s.cndHeld c)
    | some (.fence _) => true)
/-- A guaranteed or shared context that has left an array and would run. -/
def State.wantsArray (s : State) (n : Nat) (k : Parked) : Bool := k.phys == n && !k.id.bubble && s.arrived k
/-- Firmware may put a bubble context onto an array: the home context's partition lends (LEND_EN), that context cannot run or has waited for
WAIT_MIN without a break, and no other guaranteed or shared context of the array would run. -/
def State.mayLend (s : State) (n : Nat) : Bool :=
  let id := s.ident n
  let waited := s.arrState n == stWaiting && decide ((s.arr n).waitSince + s.getF Fld.PRT_SCHED_WAIT_MIN * 1000 ≤ s.time)
  let rests := s.arrState n == stIdle || s.arrState n == stStopped || s.arrState n == stFaulted
  (id.bubble || (s.flag (Fld.PRT_MODE_LEND_EN id.part) && (waited || rests))) && !s.parked.any (s.wantsArray n)
/-- What a guaranteed or shared context waited for has come while a bubble context has its array: firmware asks for it back (R238). -/
def State.reclaim (s : State) (n : Nat) : State :=
  if !(s.ident n).bubble || (s.arr n).switchReq.isSome || s.arrState n == stSwitching || s.arrState n == stRetired then s
  else match s.parked.find? (s.wantsArray n) with
    | some k => (s.modArr n fun a => { a with switchReq := some k.id }).poke n
    | none => s

/-- PREEMPTION_REQUEST (R123): firmware asks for the context of a partition's logical array; no new group issues, and
the switch takes place at the group boundary.  It asks for a bubble context only where the array may be lent (R407, R408). -/
def execPreemptionRequest (n part larray : Nat) (s : State) : Host.Outcome State Fault Refusal := live s <|
  onArray n (fun s =>
    match s.contexts.find? fun c => c.id.part == part && c.id.larray == larray && c.phys == n with
    | none => s
    | some c =>
      if s.arrState n = stRetired ∨ s.arrState n = stSwitching ∨ (s.arr n).switchReq.isSome ∨ (s.arr n).ident = some c.id then s
      else if c.id.bubble && !s.mayLend n then s
      else (s.modArr n fun a => { a with switchReq := some c.id }).poke n) s

/-- CONTEXT_RESTORE (R124, R126): the image of the outgoing context is written, with what the save finds of errors in the accumulator
lines it reads (R157), and the incoming context comes onto the array in its saved state; one that firmware has unmapped meanwhile does
not, and the array goes on as it was. -/
def execContextRestore (save : SwitchSave) (s : State) : Host.Outcome State Fault Refusal := live s <|
  let n := save.array
  onArray n (fun s =>
    if s.arrState n ≠ stSwitching then s
    else match (s.arr n).switchReq.filter fun i => (s.ctxInfo i).isSome with
      | none => (s.modArr n fun a => { a with switchReq := none }).setArrState n (s.arr n).was
      | some i =>
        let (lo, hi) := s.resLines i
        let read (l : Nat) : Bool := decide (lo ≤ l) && decide (l < hi) || (s.arr n).acc.any fun g =>
          g.state == 1 && overlaps g.span.1 g.span.2 lo (hi - lo) && decide (g.span.1 ≤ l) && decide (l < g.span.1 + g.span.2)
        let s1 := applyAccUpsets s n (save.corrected.filter read) (save.uncorrectable.filter read)
        let s2 := s1.switchOut n i
        match s2.ctxInfo i with
        | some c => ((s2.switchIn n c).retireIfDue n).poke n
        | none => s2) s

/-- TRANSFER_COMPLETE (R108, R120): one of the array's transfers ends, with what it met of errors in the operand-cache lines it read
(R201); its ranges leave the range table. -/
def execTransferComplete (n : Nat) (e : TransferEnd) (s : State) : Host.Outcome State Fault Refusal := live s <|
  onArray n (fun s =>
    match (s.arr n).xfers[e.index]? with
    | none => s
    | some x =>
      let s1 := (xferMove s n x e.upsets).modArr n fun a => { a with xfers := a.xfers.eraseIdx e.index }
      ((s1.releaseAll n (s1.arr n).released.length).retireIfDue n).poke n) s

/-! ## Bits of ARR_CTL -/

/-- A state in which the sequencer may be started, resumed or given a program counter. -/
def State.arrAtRest (s : State) (n : Nat) : Bool :=
  let st := s.arrState n
  st == stIdle || st == stStopped || st == stFaulted

/-- Every accumulation group of the context on an array is CLOSED (R143); as with ACC.CLOSE, what is in flight on the groups
has finished first (Table 4.6). -/
def State.closeAll (s : State) (n : Nat) : State :=
  let s1 := s.modArr n fun a => { a with mma := [] }
  let s2 := (s1.arr n).drains.foldl (fun s _ => (s.drainStart n [] []).modArr n fun a => { a with drains := a.drains.tail }) s1
  (List.range 8).foldl (fun s g => if (s.accGroup n g).state = 0 then s else s.closeGroup n g) s2

/-- START (Tables 3.1 and 3.2): registers at their Start values, RMO_CND from ARR_START_CND, the stochastic-rounding
registers unchanged; every accumulation group is CLOSED (R143); entries claimed and not delivered are discarded (R222), and the wake latch is cleared (R233). -/
def State.arrStart (s : State) (n : Nat) : State :=
  if !s.arrAtRest n then s
  else
    let pc := s.getF (Fld.ARR_PC_PC n) * 16
    let id := s.ident n
    let s := (s.dropClaims n id).closeAll n
    let s := ({ s with gey := { s.gey with wake := setBool s.gey.wake (wakeKey id.part id.larray) false } }).setF (Fld.ARR_WAKE_LATCH n) 0
    if !s.arrAtRest n then s else
    (s.modArr n fun a => { a with
      ctx := { Ctx.zero with srSeed := a.ctx.srSeed, srCtr := a.ctx.srCtr, rmoCnd := s.getF (Fld.ARR_START_CND_CONDUIT n) }
      pc, cur := none, stopReq := none, stopBit := false, stepping := false, icache := [], savedOut := [] }).setArrState n stRunning

/-- RESUME: issue goes on at ARR_PC, with the instruction cache invalidated (R87). -/
def State.arrResume (s : State) (n : Nat) : State :=
  if s.arrState n = stStopped ∨ s.arrState n = stFaulted then
    (s.modArr n fun a => { a with pc := s.getF (Fld.ARR_PC_PC n) * 16, cur := none, stopReq := none, stopBit := false, stepping := false, icache := [] }).setArrState n
      stRunning
  else s

/-- STOP (R123, R130): at a group boundary; at once where the array waits.  While the array is SWITCHING it stops the outgoing context
(Table 3.15 gives no other; DEDUCED). -/
def State.arrStopBit (s : State) (n : Nat) : State :=
  if s.arrState n = stRunning ∨ s.arrState n = stWaiting then (s.modArr n fun a => { a with stopBit := true }).poke n
  else if s.arrState n = stSwitching then s.stopOutgoing n
  else s

/-- STEP: one group, then a stop with reason STEP. -/
def State.arrStep (s : State) (n : Nat) : State :=
  if s.arrState n = stStopped then
    (s.modArr n fun a => { a with pc := s.getF (Fld.ARR_PC_PC n) * 16, cur := none, stopReq := none, stopBit := false, stepping := true, icache := [] }).setArrState n stRunning
  else s

/-- SAVE (R125): the registers-only image. -/
def State.arrSave (s : State) (n : Nat) : State :=
  if s.arrState n = stStopped ∨ s.arrState n = stFaulted then s.saveRegs n (s.arrState n) else s

/-- A write of ARR_CTL: more than one of bits 5 to 1 has no effect. -/
def State.arrCtl (s : State) (n v : Nat) : State :=
  match v % 64 / 2 with
  | 1 => s.arrStart n
  | 2 => s.arrResume n
  | 4 => s.arrStopBit n
  | 8 => s.arrStep n
  | 16 => s.arrSave n
  | _ => s

end Sys2Proof.Machine
end

