-- ==== Sys2Proof/Machine/StepBanks.lean ====
section
/-! DEFINITION. What a step bank observes of the counts that the geyser block applies: commit, abort and phase markers
(R304 to R307, R318, R319, R329). -/
namespace Sys2Proof.Machine

def bankDefault : Nat → Bank := fun _ => Bank.none
def State.bank (s : State) (j : Nat) : Bank := Sparse.get bankDefault s.banks j
def State.setBank (s : State) (j : Nat) (b : Bank) : State := { s with banks := Sparse.set bankDefault s.banks j b }
def State.modBank (s : State) (j : Nat) (f : Bank → Bank) : State := s.setBank j (f (s.bank j))

/-- PRF_STEP_STATUS.STATE codes. -/
def bkIdle : Nat := 0
def bkOpen : Nat := 1
def bkCommitting : Nat := 2
def bkAborting : Nat := 3
def State.bankState (s : State) (j : Nat) : Nat := s.getF (Fld.PRF_STEP_STATUS_STATE j)
def State.setBankState (s : State) (j st : Nat) : State := s.setF (Fld.PRF_STEP_STATUS_STATE j) st
def State.bankEnabled (s : State) (j : Nat) : Bool := s.flag (Fld.PRF_STEP_CFG_ENABLE j)
def State.bankOwner (s : State) (j : Nat) : Nat := s.getF (Fld.PRF_STEP_OWNER_PART j)
def State.bankTag (s : State) (j : Nat) : Nat := (s.reg (Reg.PRF_STEP_TAG j)).toNat
def srcBank : Nat := srcLogger

/-- The ring entry of the attempt with the present tag (R305). -/
def State.bankEntry' (s : State) (j : Nat) : Nat := (s.bankTag j + 1023) % 1024

/-! ## Phase markers (R318) -/

/-- The end target of a phase: 0 stands for the first rise. -/
def State.endTarget (s : State) (j k : Nat) : Nat :=
  max 1 (match k with
    | 1 => s.getF (Fld.PRF_STEP_END0_END1 j)
    | 2 => s.getF (Fld.PRF_STEP_END0_END2 j)
    | 3 => s.getF (Fld.PRF_STEP_END0_END3 j)
    | 4 => s.getF (Fld.PRF_STEP_END0_END4 j)
    | 5 => s.getF (Fld.PRF_STEP_END1_END5 j)
    | 6 => s.getF (Fld.PRF_STEP_END1_END6 j)
    | _ => s.getF (Fld.PRF_STEP_END1_END7 j))

/-- Record a time in a word of a ring entry that holds none yet. -/
def State.ringTime (s : State) (j n word : Nat) : State :=
  if s.reg (Reg.PRF_RING j n word) = 0 then s.setReg (Reg.PRF_RING j n word) (dw s.time) else s

/-- A change of the count of marker geyser `m` (0 to 13) of a bank. -/
def State.bankMarker (s : State) (j m : Nat) (old new : Word64) : State :=
  let k := m / 2 + 1
  let entry : Option Nat := if k = 7 then (s.bank j).phase7 else if s.bankState j = bkOpen then some (s.bankEntry' j) else none
  match entry with
  | none => s
  | some n =>
    if m % 2 = 0 then (if old = 0 ∧ new ≠ 0 then s.ringTime j n (2 + 2 * (k - 1)) else s)
    else if old.toNat < s.endTarget j k ∧ s.endTarget j k ≤ new.toNat then s.ringTime j n (3 + 2 * (k - 1))
    else s

/-! ## Commit and abort conditions (R306, R307) -/

/-- PLUME_ID of PLM_SLOT where PLM_EN is 1. -/
def State.bankPlumeId (s : State) (j : Nat) : Nat :=
  if s.flag (Fld.PRF_STEP_CFG_PLM_EN j) then (Sparse.get (fun _ => Plume.none) s.plm (s.getF (Fld.PRF_STEP_CFG_PLM_SLOT j))).desc.id else 0

/-- COMMIT_GEY stands at the target of the next commit. -/
def State.commitReached (s : State) (j : Nat) : Bool :=
  decide (max 1 (s.getF (Fld.PRF_STEP_CFG_COMMIT_TARGET j)) * (s.getF (Fld.PRF_STEP_COUNTS_COMMITS j) + 1) ≤
    (s.reg (Reg.GEY_COUNT (s.getF (Fld.PRF_STEP_GEY_COMMIT_GEY j)))).toNat)

/-- An OPEN attempt whose commit condition holds begins to commit: its record goes to the logger, behind the descriptors
announced by now (R329). -/
def State.bankTryCommit (s : State) (j : Nat) : State :=
  if s.bankState j ≠ bkOpen ∨ !s.commitReached j then s
  else
    let p := s.bankOwner j
    let need := (s.reg (Reg.GEY_COUNT (s.getF (Fld.LOG_APPEND_GEY_ANNOUNCE_GEY p)))).toNat
    let r : LogPending := { type := 5, part := p, source := srcBank
                            body := toLe 1 j ++ toLe 3 0 ++ toLe 4 (s.bankPlumeId j) ++ toLe 8 s.time
                            tag := some (s.bankTag j)
                            need := if s.flag (Fld.LOG_APPEND_GEY_EN p) then need else 0 }
    ({ s with log := { s.log with waiting := s.log.waiting ++ [r] } }).setBankState j bkCommitting

/-- A watched geyser has risen: an OPEN attempt aborts; in any other state the rise is only counted. -/
def State.bankRise (s : State) (j which cause : Nat) : State :=
  if s.bankState j = bkOpen then (s.modBank j fun b => { b with cause }).setBankState j bkAborting
  else (s.incSat (Fld.PRF_STEP_STATUS_IGNORED j) 1).raise srcBank (s.bankOwner j) clsInfo 0x6003 0 ([w j, w which] ++ w2 (dw (s.bankTag j)))

/-- An enabled bank observes a change of a count. -/
def State.bankObserve (s : State) (j g : Nat) (old new : Word64) : State :=
  if !s.bankEnabled j then s
  else
    let mb := s.getF (Fld.PRF_STEP_MARK_MARK_BASE j)
    let s1 := if s.flag (Fld.PRF_STEP_MARK_MARK_EN j) ∧ mb ≤ g ∧ g < mb + 14 then s.bankMarker j (g - mb) old new else s
    let s2 := if g = s1.getF (Fld.PRF_STEP_GEY_ABORT_GEY j) ∧ new ≠ (s1.bank j).baseAbort then
        let rose := decide ((s1.bank j).baseAbort.toNat < new.toNat)
        let t := s1.modBank j fun b => { b with baseAbort := new }
        if rose then t.bankRise j 1 2 else t
      else s1
    let s3 := if g = s2.getF (Fld.PRF_STEP_GEY_NAY_GEY j) ∧ new ≠ (s2.bank j).baseNay then
        let rose := decide ((s2.bank j).baseNay.toNat < new.toNat)
        let t := s2.modBank j fun b => { b with baseNay := new }
        if rose then t.bankRise j 2 1 else t
      else s2
    if g = s3.getF (Fld.PRF_STEP_GEY_COMMIT_GEY j) then s3.bankTryCommit j else s3

/-! ## What plumes observe (R285) -/

def plmDefault : Nat → Plume := fun _ => Plume.none
def State.plume (s : State) (k : Nat) : Plume := Sparse.get plmDefault s.plm k

def PlmDesc.bucket (d : PlmDesc) (b : Nat) : PlmBucket := d.buckets.getD b ⟨0, 0, 0, 0, 0, 0, 0⟩
def PlmDesc.op (d : PlmDesc) (i : Nat) : PlmOp := d.ops.getD i ⟨0, 0, 0, 0, 0, 0, 0, 0⟩
/-- The buckets of an operation. -/
def PlmOp.buckets (o : PlmOp) : List Nat := (List.range o.count).map fun i => o.first + i
/-- The operation takes contributions by their READY geysers: RS or AR. -/
def PlmOp.reduces (o : PlmOp) : Bool := o.op == 1 || o.op == 4
/-- The count that a step-scaled condition waits for (Tables 8.3 and 8.5). -/
def Plume.threshold (p : Plume) (r : PlmRun) (value : Word64) : Nat := (value * (r.step - p.stepStart + 1)).toNat

/-- A plume observes the count of a geyser: contributions that it makes ready are noted with the time. -/
def Plume.observe (p : Plume) (g : Nat) (count : Word64) (now : Nat) : Plume :=
  let see (r : PlmRun) : PlmRun :=
    let o := p.desc.op r.ix
    if !o.reduces then r
    else { r with ready := r.ready ++ (o.buckets.filter fun b =>
      let x := p.desc.bucket b
      x.gey == g && decide (p.threshold r (dw x.target) ≤ count.toNat) && !(r.ready.any fun e => e.1 == b)).map fun b => (b, now) }
  { p with runs := p.runs.map see }
/-- Every plume observes a change of a count. -/
def State.plumesObserve (s : State) (g : Nat) (new : Word64) : State :=
  { s with plm := s.plm.map fun (e : Nat × Plume) => (e.1, e.2.observe g new s.time) }

/-- Every bank observes a change of a count that the geyser block applies (R304). -/
def State.banksObserve (s : State) (g : Nat) (old new : Word64) : State :=
  (List.range 4).foldl (fun s j => s.bankObserve j g old new) s

end Sys2Proof.Machine
end

