-- ==== Sys2Proof/Machine/Geysers.lean ====
section
/-! DEFINITION. The geyser block: increments, firings and their actions (R227 to R235, R388, R400). -/
namespace Sys2Proof.Machine

/-! ## Actions (Table 6.4) -/

/-- The IRQ action: on the head at once, on a member through the head's firmware (R400, R401). -/
def State.geyIrq (s : State) (p v : Nat) : State :=
  if s.flag Fld.PCI_CFG_HEAD then s.signalIrq p v
  else
    match s.host.headDev with
    | some d =>
      if s.peerUp d then { s with host := { s.host with toHead := s.host.toHead ++ [(p, v)] } } else s.irqLost p v 4 1
    | none => s.irqLost p v 4 1

/-- Logical arrays of a partition: partition 0's are the physical arrays (log entry 12). -/
def State.larrays (s : State) (p : Nat) : Nat := if p = 0 then 144 else s.getF (Fld.PRT_STATE_LARRAYS p)

/-- The physical array that a logical array is mapped to. -/
def State.physOf (s : State) (p l : Nat) : Option Nat :=
  if p = 0 then (if l < 144 then some l else none)
  else if l < 128 ∧ s.flag (Fld.PRT_LMAP_VALID p l) then some (s.getF (Fld.PRT_LMAP_PHYS p l)) else none

/-- The physical array on which a logical array's context is now. -/
def State.onArrayNow (s : State) (p l : Nat) : Option Nat :=
  match s.physOf p l with
  | some n => if (s.ident n).part = p ∧ (s.ident n).larray = l ∧ s.arrState n ≠ stRetired then some n else none
  | none => none

def State.setLatch (s : State) (p l : Nat) (b : Bool) : State :=
  let s1 := { s with gey := { s.gey with wake := setBool s.gey.wake (wakeKey p l) b } }
  match s.onArrayNow p l with
  | some n => s1.setF (Fld.ARR_WAKE_LATCH n) (if b then 1 else 0)
  | none => s1

/-- A context that left its array after a HALT: a WAKE resumes it, and it runs on when it comes back. -/
def State.parkedAtHalt (s : State) (p l : Nat) : Bool :=
  s.parked.any fun k => k.id.part == p && k.id.larray == l && k.state == stStopped && k.reason == 1 && !k.woken

/-- WAKE (R233): a logical array that stands at a HALT runs on after it, at once or when its context comes back onto its array; in any
other state, and on a gated island (Table 14.2), its latch is set. -/
def State.geyWake (s : State) (p l : Nat) : State :=
  if s.larrays p ≤ l then s
  else
    match s.onArrayNow p l with
    | some n =>
      if s.arrState n = stStopped ∧ s.getF (Fld.ARR_STATUS_REASON n) = 1 ∧ s.domainRuns (n / 4) then s.setArrState n stRunning else s.setLatch p l true
    | none =>
      if s.parkedAtHalt p l then
        let wake (k : Parked) : Parked := if k.id.part = p ∧ k.id.larray = l then { k with woken := true } else k
        { s with parked := s.parked.map wake }
      else s.setLatch p l true

/-- The entry of a RINC action (R230, Table 7.3): a GEY.INC with no completion conduit. -/
def rincEntry (act1 : Word64) : List Byte :=
  rmoBytes 0x10 0 1 0xFF 0 (fieldOf act1 56 8 * 2 ^ 56 + fieldOf act1 50 6 * 2 ^ 50 + geySpace + fieldOf act1 0 16 * 32) 0
    (fieldOf act1 32 16) 0 0 0

def rincTarget (act1 : Word64) : Word64 :=
  dw (fieldOf act1 56 8 * 2 ^ 56 + fieldOf act1 50 6 * 2 ^ 50 + geySpace + fieldOf act1 0 16 * 32)

/-- GEY_RINC_FAILED (R232). -/
def State.rincFailed (s : State) (p g : Nat) (count target : Word64) (status : Nat) : State :=
  s.raise srcGeyser p clsOperation 0x3008 target ([w g, 0] ++ w2 count ++ w2 target ++ [w status])

/-- The entry that a POST action posts. -/
def postEntry (f : Firing) : List Byte :=
  toLe 2 f.gey ++ toLe 6 0 ++ toLe 8 f.count.toNat ++ toLe 8 f.target.toNat ++ toLe 8 f.time ++ List.replicate 32 0

/-- The last two actions of a firing. -/
def State.irqAndWake (s : State) (p g : Nat) : State :=
  let s1 := if s.flag (Fld.GEY_ACT0_IRQ g) then s.geyIrq p (s.getF (Fld.GEY_ACT0_VECTOR g)) else s
  if s1.flag (Fld.GEY_ACT0_WAKE g) then s1.geyWake p (s1.getF (Fld.GEY_ACT0_LARRAY g)) else s1

/-- RINC and what follows it; `none` in the second part when the firing is done, and otherwise the firing that waits for
a credit of the remote-operation conduit. -/
def State.fireRinc (s : State) (p : Nat) (f : Firing) : State × Option Firing :=
  if s.flag (Fld.GEY_ACT0_RINC f.gey) then
    let act1 := s.reg (Reg.GEY_ACT1 f.gey)
    let c := s.getF (Fld.CND_GEY_RMO_CONDUIT p)
    let s := (s.cndCheck c).1
    if !(s.flag (Fld.CND_GEY_RMO_VALID p) && s.cndIs c p 1) then
      ((s.rincFailed p f.gey f.count (rincTarget act1) 0xFF).irqAndWake p f.gey, none)
    else
      match s.postRmo c (rincEntry act1) (.geyser f.gey f.count) none with
      | some s1 => (s1.irqAndWake p f.gey, none)
      | none => (s, some { f with posted := true, cnd := none })
  else (s.irqAndWake p f.gey, none)

/-- Perform a firing as far as it goes (R230, R231, Table 6.4). -/
def State.fire (s : State) (f : Firing) : State × Option Firing :=
  let p := s.geyOwner f.gey
  if f.posted then s.fireRinc p f
  else
    match f.cnd with
    | none =>
      if s.flag (Fld.GEY_ACT0_POST f.gey) then
        let c := s.getF (Fld.GEY_ACT0_CONDUIT f.gey)
        let s := (s.cndCheck c).1
        if s.cndIs c p 0 then
          match s.cndTryPost c (postEntry f) with
          | some s1 => (s1.serveConduit c).fireRinc p f
          | none => (s, some { f with cnd := some c })
        else
          (s.raise srcGeyser p clsOperation 0x3009 (s.fabOf p (geySpace + f.gey * 32)) ([w f.gey, w c] ++ w2 f.count)).fireRinc p f
      else s.fireRinc p f
    | some c =>
      let s := (s.cndCheck c).1
      if s.cndIs c p 0 then
        match s.cndTryPost c (postEntry f) with
        | some s1 => (s1.serveConduit c).fireRinc p f
        | none => (s, some f)
      else
        (s.raise srcGeyser p clsOperation 0x3009 (s.fabOf p (geySpace + f.gey * 32)) ([w f.gey, w c] ++ w2 f.count)).fireRinc p f

/-! ## Firing (R229, R231) -/

def State.pendingOf (s : State) (g : Nat) : Nat := (s.gey.pending.filter fun f => f.gey == g).length
/-- ACT0.PENDING shows the firings pending. -/
def State.syncPending (s : State) (g : Nat) : State := s.setF (Fld.GEY_ACT0_PENDING g) (s.pendingOf g)

/-- GEY_OVERRUN: the geyser is disarmed. -/
def State.geyOverrun (s : State) (g : Nat) (last : Word64) : State :=
  (s.setF (Fld.GEY_ACT0_ARMED g) 0).raise srcGeyser (s.geyOwner g) clsInfo 0x3007 (s.fabOf (s.geyOwner g) (geySpace + g * 32)) ([w g, 0] ++ w2 last)

/-- Evaluate a geyser: at most `k` firings, the last of which had the count `last`. -/
def State.geyEvaluate (s : State) (g : Nat) : Nat → Word64 → State
  | k, last =>
    let count := s.reg (Reg.GEY_COUNT g)
    let target := s.reg (Reg.GEY_TARGET g)
    if !(s.flag (Fld.GEY_ACT0_ARMED g)) || decide (count.toNat < target.toNat) then s
    else
      match k with
      | 0 => s.geyOverrun g last
      | k + 1 =>
        if 15 ≤ s.pendingOf g then s.geyOverrun g last
        else
          let period := s.getF (Fld.GEY_ACT0_PERIOD g)
          let f : Firing := { gey := g, count, target, time := s.time, cnd := none, posted := false }
          let s1 := if period = 0 then s.setF (Fld.GEY_ACT0_ARMED g) 0 else s.setReg (Reg.GEY_TARGET g) (target + dw period)
          let s2 := if 0 < s1.pendingOf g then { s1 with gey := { s1.gey with pending := s1.gey.pending ++ [f] } }
            else
              match s1.fire f with
              | (s2, none) => s2
              | (s2, some f') => { s2 with gey := { s2.gey with pending := s2.gey.pending ++ [f'] } }
          State.geyEvaluate (s2.syncPending g) g k count

/-- What follows every change of a geyser's registers: the step banks and the plumes observe the count, waiters are checked again and
firing is evaluated.  `old` is the count before. -/
def State.geyChanged (s : State) (g : Nat) (old : Word64) : State :=
  (((s.banksObserve g old (s.reg (Reg.GEY_COUNT g))).plumesObserve g (s.reg (Reg.GEY_COUNT g))).geyRecheck g).geyEvaluate g 16 (s.reg (Reg.GEY_COUNT g))

/-- Give a geyser a count. -/
def State.geySetCount (s : State) (g : Nat) (v : Word64) : State :=
  (s.setReg (Reg.GEY_COUNT g) v).geyChanged g (s.reg (Reg.GEY_COUNT g))
/-- Add to a geyser's count, modulo 2^64 (R228). -/
def State.geyAdd (s : State) (g : Nat) (amount : Word64) : State := s.geySetCount g (s.reg (Reg.GEY_COUNT g) + amount)

/-- The clock domain whose oldest increment reaches the geyser block next: R21 orders only the words of one pair of attachment points,
so which of several domains comes first is a free value (DESIGN CHOICE, log entry 46). -/
def State.arriving (s : State) : Nat × State :=
  match (s.gey.inflight.map (·.src)).eraseDups with
  | [] => (0, s)
  | [d] => (d, s)
  | ds => let (v, s1) := s.draw; (ds.getD (v.toNat % ds.length) 0, s1)

/-- GEY_INCREMENT_APPLY: the oldest increment that a clock domain has sent reaches the geyser block, as a whole word (R19, R21). -/
def execGeyIncrementApply (s : State) : Host.Outcome State Fault Refusal := live s <|
  let (src, s) := s.arriving
  match netTake src 95 .request s.gey.inflight with
    | none => .next s
    | some (x, t) => .next (({ s with gey := { s.gey with inflight := t } }).geyAdd (x.gey % 65536) x.amount)

/-- Let a geyser's pending firings go on, in order, until one waits again (R231). -/
def State.geyDrain (s : State) (g : Nat) : Nat → State
  | 0 => s
  | k + 1 =>
    match s.gey.pending.find? fun f => f.gey == g with
    | none => s
    | some f =>
      let rest := s.gey.pending.erase f
      match ({ s with gey := { s.gey with pending := rest } }).fire f with
      | (s1, none) => State.geyDrain (s1.syncPending g) g k
      | (s1, some f') =>
        let swap (x : Firing) : Firing := if x = f then f' else x
        { s1 with gey := { s1.gey with pending := s.gey.pending.map swap } }

/-- GEY_POST_ACTION: a pending action of a geyser proceeds once a credit is free, and later firings follow (R231). -/
def execGeyPostAction (g : Nat) (s : State) : Host.Outcome State Fault Refusal := live s <|
  if 65536 ≤ g then .fault (.noSuchUnit g) else .next (s.geyDrain g 16)

end Sys2Proof.Machine
end

