-- ==== Sys2Proof/Machine/Conduits.lean ====
section
/-! DEFINITION. What partitions' banks and the flush register do to conduits, and the destruction of a conduit (R220,
R224 to R226). -/
namespace Sys2Proof.Machine

/-! ## The bank of a partition (R220) -/

/-- CND_POST_DATA or CND_TAKE_DATA as 64 bytes. -/
def State.bankEntry (s : State) (p : Nat) : List Byte :=
  (List.range 16).flatMap fun i => toLe 4 (s.getF (Fld.CND_POST_DATA_DATA p i))
def State.setTakeData (s : State) (p : Nat) (e : List Byte) : State :=
  (List.range 16).foldl (fun s i => s.setF (Fld.CND_TAKE_DATA_DATA p i) (ofLe ((e.drop (4 * i)).take 4))) s

def State.bankResult (s : State) (p code : Nat) : State := s.setFs [(Fld.CND_RESULT_DONE p, 1), (Fld.CND_RESULT_CODE p, code)]

/-- Post CND_POST_DATA, as with TRY. -/
def State.bankPost (s : State) (p c : Nat) : State :=
  let (s, ok) := s.cndCheck c
  let x := s.cndGet c
  if !x.valid || !ok then s.bankResult p 5
  else if x.owner ≠ p ∨ x.kind ≠ 0 then s.bankResult p 4
  else
    match s.cndTryPost c (s.bankEntry p) with
    | some s1 => (s1.serveConduit c).bankResult p 1
    | none => s.bankResult p 2

/-- Take one entry into CND_TAKE_DATA, as with TRY. -/
def State.bankTake (s : State) (p c : Nat) : State :=
  let (s, ok) := s.cndCheck c
  let x := s.cndGet c
  if !x.valid || !ok then s.bankResult p 5
  else if x.owner ≠ p ∨ x.kind = 1 then s.bankResult p 4
  else if s.cndHeld c || x.occupied == 0 then s.bankResult p 3
  else (((s.setTakeData p (s.cndHead c)).cndPop c).serveConduit c).bankResult p 1

/-- A write of CND_CMD: OP in bits 21 and 20. -/
def State.cndCmd (s : State) (p v : Nat) : State :=
  match bits v 20 2 with
  | 1 => s.bankPost p (bits v 0 20)
  | 2 => s.bankTake p (bits v 0 20)
  | _ => s

/-! ## Write-back and holds (R224, R225) -/

/-- Write a cached context back to the table. -/
def State.cndWriteback (s : State) (c : Nat) : State := if s.cndCached c then s.cndWriteTable c (s.cndGet c) else s

def State.cndWritebackAll (s : State) : State := s.cnd.cache.foldl (fun s e => s.cndWriteTable e.1 e.2) s

/-- Hold one conduit, or every one, uncached. -/
def State.cndHoldOne (s : State) (c : Nat) : State :=
  let s1 := (s.cndWriteback c).cndUncache c
  if s1.cnd.holdAll then { s1 with cnd := { s1.cnd with holdExcept := s1.cnd.holdExcept.filter fun x => x != c } }
  else { s1 with cnd := { s1.cnd with holdExcept := (s1.cnd.holdExcept.filter fun x => x != c) ++ [c] } }
def State.cndHoldAll (s : State) : State :=
  let s1 := s.cndWritebackAll
  let s2 := { s1 with cnd := { s1.cnd with cache := [], holdAll := true, holdExcept := [] } }
  s2.setFs ((List.range 4).map fun q => (Fld.CND_ENG_CACHED_COUNT q, 0))

/-- A hold ends: what waits goes on against the descriptor as the table holds it. -/
def State.cndReleaseOne (s : State) (c : Nat) : State :=
  let ex := s.cnd.holdExcept.filter fun x => x != c
  ({ s with cnd := { s.cnd with holdExcept := if s.cnd.holdAll then ex ++ [c] else ex } }).settleOwed.serveConduit c
def State.cndReleaseAll (s : State) : State :=
  let s1 := ({ s with cnd := { s.cnd with holdAll := false, holdExcept := [] } }).settleOwed
  (s1.cnd.waiters.map CndWaiter.cnd).dedup.foldl (fun s c => s.serveConduit c) s1

/-- A write of CND_FLUSH. -/
def State.cndFlush (s : State) (v : Nat) : State :=
  let c := bits v 0 20
  match bits v 30 1 == 1, bits v 29 1 == 1 with
  | true, true => s.cndHoldAll
  | true, false => s.cndWritebackAll.cndReleaseAll
  | false, true => s.cndHoldOne c
  | false, false => (s.cndWriteback c).cndReleaseOne c

/-! ## Destroying a conduit (R226) -/

/-- A group forgets what it held of a conduit: its granted credit, and the posting that would have used it. -/
def Group.forget (g : Group) (c : Nat) : Group :=
  let keep (d : Deferred) : Bool := match d with
    | .post k _ => k != c
    | _ => true
  { g with granted := g.granted.filter fun k => k != c, deferred := g.deferred.filter keep }

/-- An array forgets a conduit that is gone: postings that its groups hold or have committed fail (R226). -/
def Arr.forget (a : Arr) (c : Nat) : Arr :=
  let keep (d : Deferred) : Bool := match d with
    | .post k _ => k != c
    | _ => true
  { a with cur := a.cur.map fun g => g.forget c, done := a.done.map fun g => g.forget c, released := a.released.filter keep }

/-- Remote operations forget a completion conduit that is gone: they complete without a record (R226). -/
def Rmo.forget (r : Rmo) (c : Nat) : Rmo :=
  let cut (x : Option Nat) : Option Nat := if x = some c then none else x
  { r with
    queued := r.queued.map fun q => { q with cc := cut q.cc }
    ops := r.ops.map fun o => { o with cc := cut o.cc } }

/-- What an earlier use of a plume slot left for a conduit that is gone fails. -/
def Plume.forget (p : Plume) (c : Nat) : Plume :=
  { p with owed := p.owed.filter fun e => e.1 != c, owedRecords := p.owedRecords.filter fun e => e.1 != c }

/-- Destroy a conduit: waiting arrays complete with D = 2, entries are dropped and counted, every credit returns; its number is
free again, and an event conduit created under it later starts its SEQs at 0 (R36). -/
def State.cndDestroy (s : State) (c : Nat) : State :=
  let x := s.cndGet c
  let ws := s.cnd.waiters.filter fun k => k.cnd == c
  let s1 := s.cndPut c { x with valid := false }
  let s2 := ws.foldl (fun s k =>
    match (s.arr k.arr).cur with
    | some g => match g.wait with
      | some (.take _ _ d) => ((s.waitResult k.arr d 2).endWait k.arr).poke k.arr
      | some (.post _ _ d) => ((s.waitResult k.arr d 2).endWait k.arr).poke k.arr
      | _ => s
    | none => s) s1
  let s3 := (if x.kind = 1 then s2.abortConduit c 2 else s2)
  let y : Cnd := { x with valid := false, cons := x.prod, granted := 0, dropped := min (x.dropped + x.occupied) (2 ^ 32 - 1) }
  let s4 := { s3 with
    arrays := s3.arrays.map fun (e : Nat × Arr) => (e.1, e.2.forget c)
    rmo := s3.rmo.forget c
    plm := s3.plm.map fun (e : Nat × Plume) => (e.1, e.2.forget c)
    seqs := s3.seqs.filter fun q => q.cnd != c }
  let s5 := ((s4.cndPut c y).cndWriteTable c y).cndUncache c
  { s5 with cnd := { s5.cnd with
      owned := s5.cnd.owned.filter fun e => e.1 != c
      owed := s5.cnd.owed.filter fun e => e.1 != c
      doomed := s5.cnd.doomed.filter fun k => k != c } }

/-- The conduits whose descriptors in the table hold something: a VALID one has a byte that is not 0, which memory lists. -/
def State.tableConduits (s : State) : List Nat :=
  if s.flag Fld.CND_TABLE_BASE_ENABLE then
    s.mem.hbm.filterMap fun (e : Host.Cell) => if s.cndAddr 0 ≤ e.1 ∧ e.1 < s.cndAddr conduitCount then some ((e.1 - s.cndAddr 0) / 64) else none
  else []
/-- The conduits that a partition owns: those that firmware created for it, and those whose descriptors, cached or in the table, name it. -/
def State.conduitsOf (s : State) (p : Nat) : List Nat :=
  (s.cnd.owned.map Prod.fst ++ s.cnd.cache.map Prod.fst ++ s.tableConduits).dedup.filter fun c =>
    s.cnd.owned.contains (c, p) || (let x := s.cndGet c; x.valid && x.owner == p)

end Sys2Proof.Machine
end

