-- ==== Sys2Proof/Machine/PlumeBase.lean ====
section
/-! DEFINITION. Plumes: what the sequencer reads at START, the remote operations it issues, its completion records, and how
a plume breaks or is aborted (R271 to R274, R278, R280, R293, R297, R298). -/
namespace Sys2Proof.Machine

/-! ## Slots -/

def State.setPlume (s : State) (k : Nat) (p : Plume) : State := { s with plm := Sparse.set plmDefault s.plm k p }
def State.modPlume (s : State) (k : Nat) (f : Plume → Plume) : State := s.setPlume k (f (s.plume k))
/-- The owner of a slot. -/
def State.plmOwner (s : State) (k : Nat) : Nat := s.getF (Fld.PLM_OWNER_PART k)
def State.plmState (s : State) (k : Nat) : Nat := s.getF (Fld.PLM_STATUS_STATE k)

/-- Slots that a partition owns. -/
def State.slotsOf (s : State) (p : Nat) : List Nat := (List.range 64).filter fun k => s.flag (Fld.PLM_OWNER_VALID k) && s.plmOwner k == p

/-- PLM_STATUS.STATE codes. -/
def plIdle : Nat := 0
def plRunning : Nat := 1
def plWaiting : Nat := 2
def plDone : Nat := 3
def plAborted : Nat := 4
def plBroken : Nat := 5

def State.plmActive (s : State) (k : Nat) : Bool := s.plmState k == plRunning || s.plmState k == plWaiting

/-- Set a slot's state; PLM_SEQ counts the active slots of its sequencer. -/
def State.setPlmState (s : State) (k st : Nat) : State :=
  let s1 := s.setF (Fld.PLM_STATUS_STATE k) st
  let q := k / 16
  s1.setF (Fld.PLM_SEQ_ACTIVE q) ((List.range 16).filter fun i => s1.plmActive (16 * q + i)).length

/-- Completion status (Table 8.10). -/
def psOk : Nat := 0
def psAborted : Nat := 1
def psBroken : Nat := 2
def psVersion : Nat := 3
def psPoisoned : Nat := 4
def psInvalid : Nat := 5
/-- No position, no bucket. -/
def plmNone : Nat := 0xFFFF

/-! ## Chunks (R272) -/

/-- C_b on a ring of `n` positions. -/
def chunkSize (elems n : Nat) : Nat := ceilDiv (ceilDiv elems n) 1024 * 1024
/-- First element of a chunk, and the one after its last. -/
def chunkLo (elems n c : Nat) : Nat := min (c * chunkSize elems n) elems
def chunkHi (elems n c : Nat) : Nat := min ((c + 1) * chunkSize elems n) elems
def PlmDesc.lo (d : PlmDesc) (b c : Nat) : Nat := chunkLo (d.bucket b).elems d.npos c
def PlmDesc.hi (d : PlmDesc) (b c : Nat) : Nat := chunkHi (d.bucket b).elems d.npos c
/-- Elements of a chunk. -/
def PlmDesc.size (d : PlmDesc) (b c : Nat) : Nat := d.hi b c - d.lo b c
def PlmDesc.down (d : PlmDesc) : Nat := (d.mypos + 1) % d.npos
def PlmDesc.up (d : PlmDesc) : Nat := (d.mypos + d.npos - 1) % d.npos
def PlmDesc.at' (d : PlmDesc) (pos : Nat) : Nat × Nat := d.ring.getD pos (0, 0)
/-- Bytes of an element of a format. -/
def fmtBytes (code : Nat) : Nat := fmtWidth code / 8
/-- The position of the ring that a device and partition hold. -/
def PlmDesc.posOf (d : PlmDesc) (dev part : Nat) : Nat := (d.ring.findIdx? fun e => e == (dev, part)).getD plmNone

/-! ## Reading the descriptor (Tables 8.1, 8.3, 8.4) -/

/-- The number in `n` bytes at offset `o`. -/
def fieldAt (l : List Byte) (o n : Nat) : Nat := ofLe ((l.drop o).take n)

def PlmBucket.ofBytes (l : List Byte) : PlmBucket :=
  { elems := fieldAt l 0 8, contrib := fieldAt l 8 8, out := fieldAt l 0x10 8, home := fieldAt l 0x18 8, stage := fieldAt l 0x20 8,
    target := fieldAt l 0x28 8, gey := fieldAt l 0x30 2 }
def PlmOp.ofBytes (l : List Byte) : PlmOp :=
  { op := fieldAt l 0 1, flags := fieldAt l 1 1, first := fieldAt l 2 2, count := fieldAt l 4 2, gey := fieldAt l 6 2,
    value := dw (fieldAt l 8 8), addr := fieldAt l 0x10 8, tag := fieldAt l 0x18 2 }

/-- Read a descriptor and its tables out of a partition's memory. -/
def State.readPlume (s : State) (p a : Nat) : List Byte × PlmDesc :=
  let l := s.hbmRead p a 256
  let f := fieldAt l
  let npos := f 2 2
  let nb := f 8 2
  let nops := f 0x40 2
  (l,
   { npos, mypos := f 4 2, elemFmt := f 6 1 % 16, carryFmt := f 6 1 / 16, outFmt := f 7 1 % 16, carry := bits (f 7 1) 4 1 == 1,
     sharded := bits (f 7 1) 5 1 == 1, ncnd := f 0x0A 1, nslot := f 0x0B 1, log2seg := f 0x0C 1, wfmt := f 0x0D 1 % 16,
     geyBase := f 0x0E 2, id := f 0x10 4, cpl := f 0x14 4 % 2 ^ 20, bstatus := f 0x28 8, vtable := f 0x30 8, staging := f 0x48 8
     reducers := (List.range 128).filter fun i => bits (f 0x50 16) i 1 == 1
     cnds := (List.range (f 0x0A 1)).map fun j => f (0x60 + 4 * j) 4 % 2 ^ 20
     ring := (List.range npos).map fun i =>
       let e := s.hbmRead p (f 0x18 8 + 4 * i) 4
       (fieldAt e 0 1, fieldAt e 1 1 % 64)
     buckets := (List.range nb).map fun i => PlmBucket.ofBytes (s.hbmRead p (f 0x20 8 + 64 * i) 64)
     ops := (List.range nops).map fun i => PlmOp.ofBytes (s.hbmRead p (f 0x38 8 + 32 * i) 32) })

/-- The conduit takes a plume's completion records: a work conduit, which Table 6.3 opens to plume sequencers, or a
completion conduit, as Table 8.1 calls CND_CPL (DEDUCED, log entry 31). -/
def State.plmCplOk (s : State) (p c : Nat) : Bool := s.cndIs c p 0 || s.cndIs c p 2

/-- The formats of R280. -/
def plmFormatsOk (e c o : Nat) : Bool :=
  (e == 0 && c == 0 && o == 0) || (e == 10 && c == 10 && o == 10) ||
  ((e == 1 || e == 2) && (c == e || c == 0) && (o == c || o == e))

/-- Bytes that must be zero. -/
def zeroBytes (l : List Byte) (o n : Nat) : Bool := fieldAt l o n == 0

/-- The operation acts on the buckets of its record. -/
def onBuckets (op : Nat) : Bool := decide (op ≤ 5) || op == 7 || op == 11

/-- An operation record is within its ranges (Table 8.4, R276). -/
def State.plmOpOk (s : State) (p : Nat) (d : PlmDesc) (o : PlmOp) : Bool :=
  decide (1 ≤ o.op) && decide (o.op ≤ 13) && decide (o.flags < 4) && o.addr % 64 == 0 &&
  (o.flags % 2 == 0 || o.op == 6 || o.op == 9 || o.op == 10) &&
  (!onBuckets o.op || (decide (1 ≤ o.count) && decide (o.first + o.count ≤ d.buckets.length))) &&
  (!(o.op == 6 || o.op == 9 || o.op == 10) || s.geyOwner o.gey == p) &&
  (!(o.op == 5 || o.op == 7) || decide (fieldOf o.value 0 16 < d.npos))

/-- The fields of the ring table, the bucket table and the program that are zero (Tables 8.1, 8.3, 8.4). -/
def State.plmTablesOk (s : State) (p : Nat) (l : List Byte) (d : PlmDesc) : Bool :=
  let f := fieldAt l
  ((List.range d.npos).all fun i => decide (fieldAt (s.hbmRead p (f 0x18 8 + 4 * i) 4) 0 4 < 2 ^ 14)) &&
  ((List.range (f 8 2)).all fun i => zeroBytes (s.hbmRead p (f 0x20 8 + 64 * i) 64) 0x32 14) &&
  ((List.range (f 0x40 2)).all fun i => zeroBytes (s.hbmRead p (f 0x38 8 + 32 * i) 32) 0x1A 6)

/-- The checks of START on the descriptor (R271 to R274, R280, Table 8.1). -/
def State.plmDescOk (s : State) (p : Nat) (l : List Byte) (d : PlmDesc) : Bool :=
  let f := fieldAt l
  f 0 2 == 1 && decide (1 ≤ d.npos) && decide (d.npos ≤ 256) && decide (d.mypos < d.npos) &&
  plmFormatsOk d.elemFmt d.carryFmt d.outFmt && decide (f 7 1 < 64) && decide (1 ≤ f 8 2) && decide (f 8 2 ≤ 4096) &&
  decide (1 ≤ d.ncnd) && decide (d.ncnd ≤ 16) && decide (2 ≤ d.nslot) && decide (d.nslot ≤ 64) && decide (16 ≤ d.log2seg) &&
  decide (d.log2seg ≤ 22) && decide (f 0x0D 1 ≤ 2) && decide (f 0x14 4 < 2 ^ 20) && decide (1 ≤ f 0x40 2) && decide (f 0x40 2 ≤ 256) &&
  zeroBytes l 0x42 6 && zeroBytes l 0xA0 96 &&
  ([0x18, 0x20, 0x28, 0x30, 0x38, 0x48].all fun o => f o 8 % 64 == 0) &&
  ((List.range 48).all fun i => decide (d.geyBase + i < 65536) && s.geyOwner (d.geyBase + i) == p) &&
  (d.ring.dedup.length == d.ring.length) && d.at' d.mypos == (s.getF Fld.TOP_DEVNUM_DEVNUM, p) &&
  (d.cnds.all fun c => s.cndIs c p 1) && s.plmCplOk p d.cpl &&
  (d.buckets.all fun b => decide (1 ≤ b.elems) && decide (b.elems ≤ 2 ^ 40) && s.geyOwner b.gey == p &&
    ([b.contrib, b.out, b.home, b.stage].all fun a => a % 64 == 0)) &&
  (d.ops.all fun o => s.plmOpOk p d o) && s.plmTablesOk p l d

/-- The fields that every position of a ring holds alike, for the CRC of a join record (R274). -/
def PlmDesc.shared (d : PlmDesc) : List Byte :=
  toLe 2 1 ++ toLe 2 d.npos ++ toLe 1 (d.elemFmt + 16 * d.carryFmt) ++
  toLe 1 (d.outFmt + (if d.carry then 16 else 0) + if d.sharded then 32 else 0) ++ toLe 2 d.buckets.length ++ toLe 1 d.ncnd ++
  toLe 1 d.nslot ++ toLe 1 d.log2seg ++ toLe 1 d.wfmt ++ toLe 2 d.geyBase ++ toLe 4 d.id ++ toLe 8 d.staging ++
  (d.buckets.flatMap fun b => toLe 8 b.elems ++ toLe 8 b.out ++ toLe 8 b.home ++ toLe 8 b.stage) ++
  (d.ops.flatMap fun o => toLe 1 o.op ++ toLe 1 o.flags ++ toLe 2 o.first ++ toLe 2 o.count ++ toLe 2 o.gey ++ toLe 8 o.value.toNat ++
    toLe 8 o.addr ++ toLe 2 o.tag)
def PlmDesc.joinOf (d : PlmDesc) : PlmJoin := ⟨d.mypos, d.id, d.npos, Config.plumeCrc d.shared⟩

/-! ## Issuing remote operations (R278) -/

/-- The fabric address of a local address of a device and partition (R31). -/
def fabAddr (x : Nat × Nat) (a : Nat) : Nat := x.1 * 2 ^ 56 + x.2 * 2 ^ 50 + a
/-- The fabric address of a geyser. -/
def fabGey (x : Nat × Nat) (g : Nat) : Nat := fabAddr x (geySpace + g * 32)

def State.geyCount (s : State) (g : Nat) : Word64 := s.reg (Reg.GEY_COUNT g)

/-- Issue one remote operation of a plume through a conduit; `none` while the conduit has no credit. -/
def State.plmIssueOn (s : State) (k c : Nat) (e : PlmEmit) : Option State :=
  (s.cndCheck c).1.postRmo c (rmoBytes e.opc 16 3 0xFF e.len e.fabric e.loc e.amount.toNat 0 0 0) (.plume k e.use e.data) none
/-- The conduit that a plume's operation goes through. -/
def PlmDesc.cndOf (d : PlmDesc) (e : PlmEmit) : Nat := d.cnds.getD e.cnd 0
def State.plmIssue (s : State) (k : Nat) (e : PlmEmit) : Option State := s.plmIssueOn k ((s.plume k).desc.cndOf e) e

/-- The conduit exists, with one of these kinds, whoever owns the slot now. -/
def State.cndStands (s : State) (c : Nat) (kinds : List Nat) : Bool := (s.cndGet c).valid && kinds.contains (s.cndGet c).kind

/-- Issue what an earlier use of the slot left, in order, as far as credits reach; what has lost its conduit is dropped. -/
def State.plmPumpOwed (s : State) (k : Nat) : Nat → State
  | 0 => s
  | n + 1 =>
    match (s.plume k).owed with
    | [] => s
    | (c, e) :: t =>
      let next (s : State) : State := State.plmPumpOwed (s.modPlume k fun p => { p with owed := t }) k n
      if !s.cndStands c [1] then next s
      else match s.plmIssueOn k c e with
        | some s1 => next s1
        | none => s

/-- The segment may be sent: those sent on its conduit less its CREDIT are fewer than NSLOT (R278). -/
def State.plmWindow (s : State) (k : Nat) (e : PlmEmit) : Bool :=
  let p := s.plume k
  !e.seg || decide (p.sent.getD e.cnd 0 < (s.geyCount (p.desc.geyBase + 24 + e.cnd)).toNat + p.desc.nslot)

/-- Issue what the control queue holds, in order, as far as credits reach. -/
def State.plmPumpCtl (s : State) (k : Nat) : Nat → State
  | 0 => s
  | n + 1 =>
    match (s.plume k).ctl with
    | [] => s
    | e :: t => match s.plmIssue k e with
      | some s1 => State.plmPumpCtl (s1.modPlume k fun p => { p with ctl := t }) k n
      | none => s

/-- Issue what the segment queue holds, in order, as far as credits reach. -/
def State.plmPumpSegs (s : State) (k : Nat) : Nat → State
  | 0 => s
  | n + 1 =>
    match (s.plume k).segs with
    | [] => s
    | e :: t =>
      if !s.plmWindow k e then s
      else match s.plmIssue k e with
        | some s1 => State.plmPumpSegs (s1.modPlume k fun p => { p with
            segs := t, sent := if e.seg then p.sent.set e.cnd (p.sent.getD e.cnd 0 + 1) else p.sent }) k n
        | none => s

/-- Post the completion records that wait for a credit of CND_CPL, in order. -/
def State.plmPumpRecords (s : State) (k : Nat) : Nat → State
  | 0 => s
  | n + 1 =>
    match (s.plume k).records with
    | [] => s
    | r :: t =>
      let c := (s.plume k).desc.cpl
      match (if s.plmCplOk (s.plmOwner k) c then (s.cndCheck c).1.cndTryPost c r else some s) with
      | some s1 => State.plmPumpRecords ((s1.serveConduit c).modPlume k fun p => { p with records := t }) k n
      | none => s

/-- Post the records that an earlier use of the slot left. -/
def State.plmPumpOldRecords (s : State) (k : Nat) : Nat → State
  | 0 => s
  | n + 1 =>
    match (s.plume k).owedRecords with
    | [] => s
    | (c, r) :: t =>
      match (if s.cndStands c [0, 2] then (s.cndCheck c).1.cndTryPost c r else some s) with
      | some s1 => State.plmPumpOldRecords ((s1.serveConduit c).modPlume k fun p => { p with owedRecords := t }) k n
      | none => s

/-- Issue and post whatever can go out. -/
def State.plmPump (s : State) (k : Nat) : State :=
  let s0 := s.plmPumpOwed k (s.plume k).owed.length
  let s1 := s0.plmPumpCtl k (s0.plume k).ctl.length
  let s2 := s1.plmPumpSegs k (s1.plume k).segs.length
  let s3 := s2.plmPumpOldRecords k (s2.plume k).owedRecords.length
  s3.plmPumpRecords k (s3.plume k).records.length

/-- What a plume leaves to go out when its slot is used anew: a plume with nothing but that. -/
def Plume.leftover (p : Plume) : Plume :=
  { Plume.none with
    owed := p.owed ++ p.ctl.map fun e => (p.desc.cndOf e, e)
    owedRecords := p.owedRecords ++ p.records.map fun r => (p.desc.cpl, r) }

def State.plmCtl1 (s : State) (k : Nat) (e : PlmEmit) : State := s.modPlume k fun p => { p with ctl := p.ctl ++ [e] }

/-- A GEY.INC for a position: of a local geyser where the position is this one. -/
def State.plmInc (s : State) (k pos off cnd : Nat) (use : PlmUse) : State :=
  let d := (s.plume k).desc
  if pos = d.mypos then s.geyRelease (88 + k / 16) (d.geyBase + off) 1
  else s.plmCtl1 k { cnd, seg := false, ix := plmNone, use, opc := 0x10, fabric := fabGey (d.at' pos) (d.geyBase + off), loc := 0,
                     len := 0, amount := 1, data := none }

/-- Increment a plume geyser of every position. -/
def State.plmIncAll (s : State) (k off : Nat) (use : PlmUse) : State :=
  (List.range (s.plume k).desc.npos).foldl (fun s pos => s.plmInc k pos off 0 use) s

/-- A message whose layout the manual does not give. -/
def State.plmSend (s : State) (k : Nat) (x : Nat × Nat) (b : PlmMsgBody) : State :=
  { s with plmSent := s.plmSent ++ [PlmMsg.mk k x.1 x.2 b] }

/-- A message that goes by a remote operation of its own (R278): a PUT through CND[0].  Its bytes, and where at the other position it
goes, are free values; 64 bytes is the size of the records whose size the manual gives (DESIGN CHOICE). -/
def State.plmPut (s : State) (k : Nat) (x : Nat × Nat) (b : PlmMsgBody) : State :=
  let (l, s1) := s.drawBytes 64
  let (a, s2) := s1.draw
  (s2.plmCtl1 k { cnd := 0, seg := false, ix := plmNone, use := .msg, opc := 0, fabric := fabAddr x (a.toNat % 2 ^ 48), loc := 0, len := 64,
                  amount := 0, data := some (l, []) }).plmSend k x b

/-- The plume waits from now on (R297): something that it waited for has come, or a wait begins. -/
def State.plmWaits (s : State) (k : Nat) : State := s.modPlume k fun p => { p with waitFrom := s.time }

/-! ## Completion (Table 8.9) -/

/-- A completion record. -/
def plmRecord (r : PlmRun) (o : PlmOp) (status expected found pos bucket now : Nat) : List Byte :=
  toLe 8 r.step.toNat ++ toLe 1 o.op ++ toLe 1 status ++ toLe 2 o.tag ++ toLe 2 o.first ++ toLe 2 o.count ++ toLe 8 expected ++
  toLe 8 found ++ toLe 2 r.late ++ toLe 2 r.nonfin ++ toLe 2 pos ++ toLe 2 bucket ++ toLe 8 r.tStart ++ toLe 8 now ++ toLe 1 1 ++ toLe 7 0

/-- The PERMUTE that firmware has arranged ends: it leaves the program again. -/
def Plume.unarm (p : Plume) (ix : Nat) : Plume :=
  if p.permuting && ix + 1 == p.desc.ops.length then
    { p with armed := Option.none, permuting := false, desc := { p.desc with ops := p.desc.ops.dropLast } }
  else p

/-- A call that arranged a re-shard waits for one position fewer. -/
def State.reshardDone (s : State) (id : Nat) : State :=
  let upd (c : Call) : Call := match c.wait with
    | some (.reshard i left) => if i = id then { c with wait := some (.reshard i (left - 1)) } else c
    | _ => c
  { s with acc := { s.acc with calls := s.acc.calls.map upd } }

/-- A re-shard that was arranged will not come. -/
def State.reshardFailed (s : State) (z : Option PlmReshard) : State :=
  match z with
  | none => s
  | some z =>
    let upd (c : Call) : Call := match c.wait with
      | some (.reshard i _) => if i = z.id then { c with wait := some .failed } else c
      | _ => c
    { s with acc := { s.acc with calls := s.acc.calls.map upd } }

/-- An operation completes: its record is queued for CND_CPL and it leaves the list.  EXPECTED is a GATHER's version. -/
def State.plmComplete (s : State) (k : Nat) (r : PlmRun) (status found pos bucket : Nat) : State :=
  let o := (s.plume k).desc.op r.ix
  let rec' := plmRecord r o status (if o.op = 3 then o.value.toNat else 0) found pos bucket s.time
  ((s.modPlume k fun p => { p with
    runs := p.runs.filter fun x => !(x.ix == r.ix && x.step == r.step)
    segs := if status = psOk ∨ status = psPoisoned then p.segs else p.segs.filter fun e => e.ix != r.ix
    records := p.records ++ [rec'] }).modPlume k fun p => p.unarm r.ix).setF (Fld.PLM_STATUS_LAST k) status

/-- An operation has done its work: OK, or POISONED with the first bucket affected (R299). -/
def State.plmDone (s : State) (k : Nat) (r : PlmRun) : State :=
  match r.poison with
  | some b => s.plmComplete k r psPoisoned 0 plmNone b
  | none => s.plmComplete k r psOk 0 plmNone plmNone

/-! ## What an abort leaves undefined (R298) -/

/-- Bytes that the manual leaves undefined. -/
def State.undefine (s : State) (p a len : Nat) : State :=
  let (l, s1) := s.drawBytes len
  s1.hbmWrite p a l

/-- Elements of a chunk that are in place. -/
def PlmRun.have' (r : PlmRun) (b c : Nat) : Nat := (r.got.filter fun e => e.1 == b && e.2.1 == c).foldl (fun a e => a + e.2.2) 0

/-- The chunks that an operation was to write and has not written whole become undefined.  An RS that has decided on no bucket has begun
nothing, and leaves OUT unchanged, as the first row of Table 9.2 and Example 9.2 have it (DEDUCED). -/
def State.plmUndefine (s : State) (k : Nat) (r : PlmRun) : State :=
  let d := (s.plume k).desc
  let o := d.op r.ix
  let p := s.plmOwner k
  let chunk (s : State) (base fmt b c : Nat) : State :=
    if r.have' b c < d.size b c then s.undefine p (base + d.lo b c * fmtBytes fmt) (d.size b c * fmtBytes fmt) else s
  let others : List Nat := (List.range d.npos).filter fun c => c != d.mypos
  o.buckets.foldl (fun s b =>
    let x := d.bucket b
    match o.op with
    | 1 => if r.decided = [] then s else chunk s x.out d.outFmt b d.mypos
    | 4 => (List.range d.npos).foldl (fun s c => chunk s x.out d.outFmt b c) s
    | 5 => (List.range d.npos).foldl (fun s c => chunk s x.out d.outFmt b c) s
    | 2 => if d.sharded then s else others.foldl (fun s c => chunk s x.home d.wfmt b c) s
    | 3 => (r.asked.filter fun e => e.1 == b).foldl (fun s e =>
        chunk s (if d.sharded then o.addr else x.home) d.wfmt b e.2) s
    | _ => s) s

/-! ## Breaking and aborting (R297, R298) -/

/-- Everything that runs completes with a status, naming a position; nothing further is issued but the notices to every
position. -/
def State.plmHalt (s : State) (k status pos st : Nat) : State :=
  let rs := (s.plume k).runs
  let s := s.reshardFailed (s.plume k).armed
  let s1 := rs.foldl (fun s r => (s.plmUndefine k r).plmComplete k r status 0 pos plmNone) s
  let s2 := s1.modPlume k fun p => { p with runs := [], ctl := [], segs := [], work := [], awaited := [], armed := none }
  let s3 := (s2.setF (Fld.PLM_STATUS_LAST k) status).setPlmState k st
  let d := (s3.plume k).desc
  let s4 := ((List.range d.npos).filter fun q => q != d.mypos).foldl (fun s q => s.plmSend k (d.at' q) (.abort pos)) s3
  (s4.plmIncAll k 1 .notice).plmPump k

/-- The ring breaks (R297): the position that failed to answer, and the status of the remote operation. -/
def State.plmBreak (s : State) (k pos code : Nat) : State :=
  if !s.plmActive k then s
  else
    let step := s.reg (Reg.PLM_STEP k)
    (s.plmHalt k psBroken pos plBroken).raise (srcPlume (k / 16)) (s.plmOwner k) clsOperation 0x5003 0 ([w k] ++ w2 step ++ [w pos, w code])

/-- An abort, which began at a position (R298): it wins while the plume is active. -/
def State.plmAbort (s : State) (k pos : Nat) : State :=
  if !s.plmActive k then s
  else
    let step := s.reg (Reg.PLM_STEP k)
    (s.plmHalt k psAborted pos plAborted).raise (srcPlume (k / 16)) (s.plmOwner k) clsInfo 0x5006 0 ([w k] ++ w2 step ++ [w pos])

/-! ## Version entries (Table 8.8) -/

def State.vAddr (s : State) (k b : Nat) : Nat := (s.plume k).desc.vtable + b * 64
def State.vGet (s : State) (k b o n : Nat) : Nat := ofLe (s.hbmRead (s.plmOwner k) (s.vAddr k b + o) n)
def State.vSet (s : State) (k b o n v : Nat) : State := s.hbmWrite (s.plmOwner k) (s.vAddr k b + o) (toLe n v)
def State.vCur (s : State) (k b : Nat) : Nat := s.vGet k b 0 8
def State.vPrev (s : State) (k b : Nat) : Nat := s.vGet k b 8 8
def State.vAtStage (s : State) (k b : Nat) : Bool := bits (s.vGet k b 0x10 1) 0 1 == 1
def State.vPrevValid (s : State) (k b : Nat) : Bool := bits (s.vGet k b 0x10 1) 1 1 == 1
def State.vRefs (s : State) (k b : Nat) : Nat := s.vGet k b 0x12 2
def State.vStale (s : State) (k b c : Nat) : Bool := bits (s.vGet k b (0x20 + c / 8) 1) (c % 8) 1 == 1
def State.setStale (s : State) (k b c : Nat) (on : Bool) : State :=
  let v := s.vGet k b (0x20 + c / 8) 1
  let m := 2 ^ (c % 8)
  if (bits v (c % 8) 1 == 1) == on then s else s.vSet k b (0x20 + c / 8) 1 (if on then v + m else v - m)

/-! ## When a remote operation of a plume completes -/

/-- The last copy or escrow of an operation has completed: PERMUTE goes on when its row is performed again. -/
def State.plmCounted (s : State) (k ix : Nat) (poison : Option Nat) : State :=
  match (s.plume k).runs.find? fun r => r.ix == ix with
  | none => s
  | some r =>
    let upd (x : PlmRun) : PlmRun := if x.ix = ix then { x with waiting := x.waiting - 1, poison := x.poison <|> poison } else x
    let s1 := s.modPlume k fun p => { p with runs := p.runs.map upd }
    if r.waiting = 1 ∧ ((s.plume k).desc.op ix).op = 7 then s1.plmDone k { r with waiting := 0, poison := r.poison <|> poison } else s1

/-- A remote operation of a plume completes: any status but OK and POISONED breaks the ring (R297), and for ESCROW any but
OK (R312); of a copy that delivers poison the bucket is noted (R299). -/
def State.plmOpDone (s : State) (k : Nat) (use : PlmUse) (status dev part : Nat) : State :=
  let bad := match use with
    | .escrow _ => status != 0
    | .notice => false
    | _ => status != 0 && status != 7
  if !s.plmActive k then s.plmPump k
  else if bad then s.plmBreak k ((s.plume k).desc.posOf dev part) status
  else
    let s1 := match use with
      | .escrow ix => s.plmCounted k ix none
      | .permute ix b => s.plmCounted k ix (if status = 7 then some b else none)
      | .serve b => s.vSet k b 0x12 2 (s.vRefs k b - 1)
      | .msg => s
      | .notice => s
    s1.plmPump k

end Sys2Proof.Machine
end

