-- ==== Sys2Proof/Machine/Protect.lean ====
section
/-! DEFINITION. Protection tables and buddies: who is whose buddy, and the method that firmware assigns to each region (R2, R336 to
R339, Table 10.3). -/
namespace Sys2Proof.Machine

/-! ## Failure domains (R2) -/

/-- The failure domain of a device, as its own TOP_FDOM or the device table gives it. -/
def State.fdomOf (s : State) (dev : Nat) : Option Nat :=
  if dev = s.getF Fld.TOP_DEVNUM_DEVNUM then some ((s.reg Reg.TOP_FDOM).toNat % 65536)
  else (s.devTable.find? fun e => e.dev == dev).map DevEntry.fdom

/-- Two devices share a failure domain: one device with itself, equal feeds, or equal racks; a device that nothing is known of shares
every one (DESIGN CHOICE). -/
def State.sharesDomain (s : State) (a b : Nat) : Bool :=
  a == b || match s.fdomOf a, s.fdomOf b with
    | some x, some y => x / 4096 == y / 4096 || x % 4096 == y % 4096
    | _, _ => true

/-! ## Buddies (R338) -/

/-- The second pass: each position takes the first after it that shares nothing with it and is nobody's buddy. -/
def greedyBuddies (n : Nat) (free : Nat → Nat → Bool) : List (Option Nat) :=
  (List.range n).foldl (fun (l : List (Option Nat)) p =>
    l ++ [((List.range (n - 1)).map fun i => (p + 1 + i) % n).find? fun q => free p q && !l.contains (some q)]) []

def State.chooseBuddies (s : State) (ring : List (Nat × Nat)) : List (Option Nat) :=
  let n := ring.length
  let free (p q : Nat) : Bool := !s.sharesDomain (ring.getD p (0, 0)).1 (ring.getD q (0, 0)).1
  match ((List.range (n - 1)).map (· + 1)).find? fun k => (List.range n).all fun p => free p ((p + k) % n) with
  | some k => (List.range n).map fun p => some ((p + k) % n)
  | none => greedyBuddies n free

/-- The buddy that a plume's own position has. -/
def State.buddyOf (s : State) (k : Nat) : Option Nat :=
  let d := (s.plume k).desc
  match s.buddies.find? fun b => b.plume == d.id with
  | some b => b.buddies.getD d.mypos none
  | none => none

/-! ## The protection table (R336, R337) -/

/-- An entry of Table 10.3. -/
structure ProtEntry where
  base : Nat
  length : Nat
  kind : Nat
  verify : Nat
  churn : Nat
  deltas : Bool
  method : Nat
  slot : Nat
  shadow : Nat
  format : Nat
  deriving DecidableEq, Repr

def ProtEntry.ofBytes (l : List Byte) : ProtEntry :=
  { base := fieldAt l 0 8, length := fieldAt l 8 8, kind := fieldAt l 0x10 1, verify := fieldAt l 0x11 1, churn := fieldAt l 0x12 2
    deltas := fieldAt l 0x14 1 % 2 == 1, method := fieldAt l 0x15 1, slot := fieldAt l 0x16 1, shadow := fieldAt l 0x18 8
    format := fieldAt l 0x20 2 }

def State.protAddr (s : State) (p i : Nat) : Nat := s.getF (Fld.LOG_PROT_BASE p) * 64 + i * 64
def State.protCount (s : State) (p : Nat) : Nat := s.getF (Fld.LOG_PROT_COUNT p)
def State.protEntry (s : State) (p i : Nat) : ProtEntry := ProtEntry.ofBytes (s.hbmRead p (s.protAddr p i) 64)

def mtNone : Nat := 0
def mtShadow : Nat := 1
def mtSnapshot : Nat := 2
def mtFallback : Nat := 3

/-- METHOD of a region (R337). -/
def State.protMethod (s : State) (e : ProtEntry) : Nat :=
  if e.kind = 4 then mtNone
  else if e.kind = 1 ∧ s.getF Fld.LOG_PROT_THRESH_SIZE_MIN * 2 ^ 20 ≤ e.length ∧ s.getF Fld.LOG_PROT_THRESH_CHURN_MIN ≤ e.churn then
    (if (s.buddyOf e.slot).isSome then mtShadow else mtFallback)
  else mtSnapshot

/-- METHOD of a region changes: the entry, its PROTECT record and its event.  BUDDY_DEVICE is 0xFF where there is no buddy. -/
def State.protSet (s : State) (p i new reason : Nat) : State :=
  let e := s.protEntry p i
  if e.method = new then s
  else
    let dev := match s.buddyOf e.slot with
      | some q => ((s.plume e.slot).desc.at' q).1
      | none => 255
    let s1 := s.hbmWrite p (s.protAddr p i + 0x15) (toLe 1 new)
    (s1.logRecord 0x0A p srcFumarole (toLe 2 i ++ toLe 1 e.method ++ toLe 1 new ++ toLe 1 reason ++ toLe 1 dev ++ toLe 10 0)).raise
      srcFumarole p clsInfo 0x7004 0 [w i, w e.method, w new, w reason]

/-- REASON of a change (Table 10.6): no buddy; a shadow that may be built again; the reason of the occasion, where it has one.  Of any
other change the manual gives no code: a free value. -/
def State.protReason (s : State) (old new occasion : Nat) : Nat × State :=
  if new = mtFallback then (1, s)
  else if old = mtFallback ∧ new = mtShadow then (2, s)
  else if occasion ≠ 0 then (occasion, s)
  else
    let (v, s1) := s.draw
    (v.toNat % 256, s1)

/-- Firmware assigns METHOD to every region of a partition's table. -/
def State.protAssign (s : State) (p occasion : Nat) : State :=
  (List.range (s.protCount p)).foldl (fun s i =>
    let e := s.protEntry p i
    let new := s.protMethod e
    if e.method = new then s
    else
      let (reason, s1) := s.protReason e.method new occasion
      s1.protSet p i new reason) s

/-- Partitions with a protection table. -/
def State.protected (s : State) : List Nat := (List.range 64).filter fun p => s.partActive p && s.protCount p != 0

/-- Buddies are chosen again after a ring has changed, where the job has any (R339). -/
def State.rebuddy (s : State) (id : Nat) (ring : List (Nat × Nat)) : State :=
  if s.buddies.any fun b => b.plume == id then
    let l := s.chooseBuddies ring
    let s1 := { s with buddies := s.buddies.map fun (b : BuddyMap) => if b.plume = id then BuddyMap.mk id l else b }
    s1.protected.foldl (fun s p => s.protAssign p 0) s1
  else s

end Sys2Proof.Machine
end

