-- ==== Sys2Proof/Machine/Remote.lean ====
section
/-! DEFINITION. Remote operations: their entries, what the destination checks and does, and their completion (R240 to
R253, R31, R32, R398, R441, R445, R532). -/
namespace Sys2Proof.Machine

/-- Fabric address fields (R31). -/
def fabDev (a : Nat) : Nat := bits a 56 8
def fabPart (a : Nat) : Nat := bits a 50 6
def fabLocal (a : Nat) : Nat := bits a 0 48

/-! ## The local side -/

/-- The local side is an operand cache of an array that has been retired (R253). -/
def State.sideGone (s : State) (o : RmoOp) : Bool :=
  decide (o.opc < 2) && o.lkind == 0 && s.arrState o.ocArray == stRetired

/-- Offsets of the first and the last byte, within an operation, of each line that begins at one of the offsets. -/
def lineEnds (a len : Nat) (offs : List Nat) : List Nat :=
  offs.flatMap fun o => [o, min ((a + o) / 64 * 64 + 63 - a) (len - 1)]

/-- The bytes of an operation's local side, and the offsets of its poisoned lines. -/
def State.sideRead (s : State) (o : RmoOp) : List Byte × List Nat :=
  match o.src with
  | .plume _ _ (some x) => x
  | .firmware l => (l, [])
  | _ =>
  if o.lkind = 0 then
    let off := o.ocBase + o.loc
    let ls := (touchedLines off o.len).filter fun l => getBool s.mem.ocPoison (o.ocArray * ocLines + l)
    (s.ocRead o.ocArray off o.len, lineEnds off o.len (ls.map fun l => max (l * 64) off - off))
  else (s.localRead o.part o.loc o.len, lineEnds o.loc o.len (s.localPoisons o.part o.loc o.len))

/-- Byte offset of a local line whose tag fails (R441). -/
def State.sideBadTag (s : State) (o : RmoOp) : Option Nat :=
  match o.src with
  | .plume _ _ (some _) => none
  | .firmware _ => none
  | _ => if o.lkind = 0 then none else s.localBadTag o.part o.loc o.len

/-- The operand-cache lines of an array that an operation reads at its local side. -/
def RmoOp.linesRead (o : RmoOp) : List Nat :=
  match o.src with
  | .plume _ _ (some _) => []
  | .firmware _ => []
  | _ => if o.opc = opcPut ∧ o.lkind = 0 then touchedLines (o.ocBase + o.loc) o.len else []

/-- Write part of an operation's local side, with the poisoned lines it carries. -/
def State.sideWrite (s : State) (o : RmoOp) (off : Nat) (data : List Byte) (marks : List Nat) : State :=
  if o.lkind = 0 then
    let at' := o.ocBase + o.loc
    let s1 := s.windowWrite o.ocArray (at' + off) data
    ((marks.map fun m => (at' + m) / 64).dedup).foldl (fun s l => ocPoisonLine s o.ocArray l) s1
  else (s.localWrite o.part (o.loc + off) data).localSetPoison o.part o.loc marks

/-! ## Checks at the destination (R243, R246, R398) -/

/-- The access kind that a byte range allows (Table 7.2): step 2 of R246. -/
def kindOk (opc addr len : Nat) : Bool :=
  if opc = opcGinc then
    match localKind addr with
    | .reg off => decide (geySpace - regBase ≤ off) && decide (off < geySpace - regBase + 65536 * 32) && off % 32 == 0
    | .unmapped => true
    | _ => false
  else if opc < 2 then !rangeHasKind addr len isSpecialKind
  else match localKind addr with
    | .hbm => true
    | .unmapped => true
    | _ => false

/-- A device and partition may reach a partition of this device (R398). -/
def State.mayReach (s : State) (dev q p : Nat) : Bool :=
  if dev = s.getF Fld.TOP_DEVNUM_DEVNUM then
    q == p || (s.getF (Fld.PRT_JOB_JOB q) == s.getF (Fld.PRT_JOB_JOB p) && s.getF (Fld.PRT_JOB_JOB p) != 0)
  else q == p && bits (s.getF (Fld.PRT_PEER_PEERS p (dev / 32))) (dev % 32) 1 == 1

/-- The first check of R246 that fails, as a status; the destination partition's state comes with step 3 (Table 12.5), and
so does the text of a sealed partition, which nothing writes (Table 13.2). -/
def State.destCheck (s : State) (dev q opc fabric len : Nat) : Option Nat :=
  let a := fabLocal fabric
  let p := fabPart fabric
  let st := s.partState p
  if bits fabric 48 2 ≠ 0 then some rsAddrRange
  else if !kindOk opc a len then some rsAddrKind
  else if st = psResetting ∨ st = psDestroying then some rsDestReset
  else if st ≠ psActive then some rsAccessDenied
  else if !s.mayReach dev q p then some rsAccessDenied
  else if opc = opcGinc then
    (if localKind a = .unmapped then some rsAddrUnmapped
     else if s.geyOwner ((a - geySpace) / 32) ≠ p then some rsAccessDenied else none)
  else if opc ≠ opcGet ∧ s.textHit p a len then some rsAccessDenied
  else if !s.localRangeOk p a len then some rsAddrUnmapped
  else none

/-! ## Performing at the destination (R241) -/

/-- Offset and length of the parts of a range that cover only part of a line. -/
def partialParts (a len : Nat) : List (Nat × Nat) :=
  if len = 0 then []
  else
    let first := min len (64 - a % 64)
    let lastStart := (a + len) / 64 * 64
    (if a % 64 ≠ 0 ∨ len < 64 then [(0, first)] else []) ++
    (if (a + len) % 64 ≠ 0 ∧ a < lastStart then [(lastStart - a, a + len - lastStart)] else [])

/-- Write bytes of a PUT: answers the state, the status and the bytes written.  A partial line whose tag fails stops it
there, and what lies beyond that line is undefined (Table 7.5, R532). -/
def State.putBytes (s : State) (p a : Nat) (data : List Byte) (marks : List Nat) : State × Nat × Nat :=
  let s := if a < hbmBytes then s.hbmUse p data.length else s
  match (partialParts a data.length).find? fun x => (s.localBadTag p (a + x.1) x.2).isSome with
  | some (o, k) =>
    let s1 := s.localWrite p a (data.take o)
    let (junk, s2) := s1.drawBytes (data.length - (o + k))
    ((s2.localWrite p (a + o + k) junk).integrityAt p (a + o), rsIntegrity, o)
  | none => ((s.localWrite p a data).localSetPoison p a marks, if marks = [] then rsOk else rsPoisoned, data.length)

/-- Read the bytes of a GET: the state, the bytes delivered, the marks they carry and the status. -/
def State.getBytes (s : State) (p a len : Nat) : State × List Byte × List Nat × Nat :=
  let s := if a < hbmBytes then s.hbmUse p len else s
  let marks := lineEnds a len (s.localPoisons p a len)
  match s.localBadTag p a len with
  | some o => (s.integrityAt p (a + o), s.localRead p a o, marks.filter fun m => decide (m < o), rsIntegrity)
  | none => (s, s.localRead p a len, marks, if marks = [] then rsOk else rsPoisoned)

/-- An atomic on one element: state, status and old value (R76, R206, R208, R532).  `sub` is 0 ADD, 1 MIN, 2 MAX, 3 SWAP,
4 CAS.  Its flags go to the bank of the partition that issued it: for another device's operation, which reaches only the partition of
its own number (R398), the bank of that number here, since RESP carries no flags back (DEDUCED). -/
def State.atomic (s : State) (issuer p a sub fmt : Nat) (operand compare : Word64) : State × Nat × Nat :=
  let wb := fmtWidth fmt / 8
  let s := s.hbmUse p wb
  match s.rmwStatus p a wb with
  | .poisoned => (s, rsPoisoned, 0)
  | .integrity => (s.integrityAt p a, rsIntegrity, 0)
  | .ok =>
    let old := ofLe (s.hbmRead p a wb)
    let x := operand.toNat % 2 ^ (8 * wb)
    let (s1, f) : State × Word32 :=
      match sub with
      | 0 => let r := s.addOnWrite p a fmt (toLe wb x); (r.1, r.2.2)
      | 1 => let r := minMaxElem false fmt old x; (s.hbmWrite p a (toLe wb r.1), r.2)
      | 2 => let r := minMaxElem true fmt old x; (s.hbmWrite p a (toLe wb r.1), r.2)
      | 3 => (s.hbmWrite p a (toLe wb x), 0)
      | _ => (if old = compare.toNat % 2 ^ (8 * wb) then s.hbmWrite p a (toLe wb x) else s, 0)
    let src := match s.hbmPhys p a with | some pa => s.srcHbm pa | none => srcGeyser
    (s1.numFlags src issuer none 4 s1.time f, rsOk, old)

/-- Perform an operation whose destination is this device (R249): the operation with its outcome. -/
def State.performLocal (s : State) (o : RmoOp) : State × RmoOp :=
  let a := fabLocal o.fabric
  let p := fabPart o.fabric
  let fail (st : Nat) : State × RmoOp := (s, { o with status := some st })
  if s.sideGone o then (s, o.abort 4)
  else match s.destCheck s.ownDev o.part o.opc o.fabric (if o.opc < 2 then o.len else fmtWidth o.fmt / 8) with
  | some st => fail st
  | none =>
    if o.opc = opcPut then
      match s.sideBadTag o with
      | some k => (s.integrityAt o.part (o.loc + k), { o with status := some rsIntegrity })
      | none =>
        let (data, marks) := s.sideRead o
        let (s1, st, done) := s.putBytes p a data marks
        (s1, { o with status := some st, done, detail := if st = rsPoisoned then marks.headD 0 else 0 })
    else if o.opc = opcGet then
      let (s1, data, marks, st) := s.getBytes p a o.len
      (s1.sideWrite o 0 data marks,
       { o with status := some st, done := data.length, detail := if st = rsPoisoned then marks.headD 0 else 0 })
    else if o.opc = opcGinc then
      (s.geyAdd ((a - geySpace) / 32) o.operand, { o with status := some rsOk, done := 1 })
    else
      let (s1, st, old) := s.atomic o.part p a (o.opc - 2) o.fmt o.operand o.compare
      (s1, { o with status := some st, old := if st = rsOk then old else 0, done := if st = rsOk then 1 else 0 })

/-! ## Completion (R247, R250, R251) -/

/-- The completion record (Table 7.4). -/
def RmoOp.record (o : RmoOp) (now : Nat) : List Byte :=
  RmoRecord.toBytes {
    old := o.old, addr := o.fabric, length := o.len, done := o.done, opc := o.opc, status := o.status.getD 0,
    tag := o.f 0x2E 2, sourceKind := o.f 2 1, larray := o.f 3 1, retransmits := min o.retx 65535, tRelease := o.f 0x30 8,
    tComplete := now, detail := o.detail }

/-- An earlier operation of the same stream is still outstanding. -/
def State.streamBusy (s : State) (o : RmoOp) : Bool :=
  match s.rmo.ops.find? fun x => x.cnd == o.cnd && x.dev == o.dev with
  | some x => x.id != o.id
  | none => false

/-- Segments of an operation that this device has sent, or is to send, and of which it does not know that they are performed. -/
def State.framesOut (s : State) (id : Nat) : Bool :=
  let hit (g : ZrtSeg) : Bool := segOfIds g [id]
  (s.rmo.paths.any fun (e : Nat × Path) => (e.2.unacked.flatMap Unacked.segs).any hit || e.2.sendq.any hit) ||
  (s.rmo.closing.any fun k => (k.unacked.flatMap Unacked.segs).any hit || k.sendq.any hit) || (s.rmo.stranded.any fun e => hit e.2)
/-- Completed operations pin their stream only while frames of theirs are out (R252, R256). -/
def State.trimLate (s : State) : State := { s with rmo := { s.rmo with late := s.rmo.late.filter fun e => s.framesOut e.1 } }

/-- Forget an operation that has completed; its frames that are out still pin its stream. -/
def State.dropOp (s : State) (o : RmoOp) : State :=
  let s1 := ({ s with rmo := { s.rmo with ops := (s.rmo.ops.filter fun x => x.id != o.id), late := s.rmo.late ++ [(o.id, o.cnd, o.dev)] } }).trimLate
  let s2 := s1.setF (Fld.CND_RMO_OUT_COUNT o.eng) (s1.getF (Fld.CND_RMO_OUT_COUNT o.eng) - 1)
  match o.src with
  | .array n =>
    let s3 := s2.modArr n fun a => { a with
      rmoOut := a.rmoOut.filter fun x => x != o.id
      hbmGets := a.hbmGets.filter fun x => x != o.id
      rmoRanges := a.rmoRanges.filter fun r => r.1 != o.id }
    (s3.releaseAll n (s3.arr n).released.length).poke n
  | _ => s2

/-- Complete an operation: its record is posted with the credit granted at release, or the credit returns; GINC follows.
A RINC has no record, and reports its failure (R232); a plume's operation tells its plume (R297). -/
def State.completeOp (s : State) (o : RmoOp) : State :=
  let st := o.status.getD 0
  let s1 := match o.src with
    | .geyser g count =>
      if st = rsOk then s else s.rincFailed o.part g count (dw o.fabric) st
    | .plume _ _ _ => s
    | _ => s.completeCw o.eng o.cw o.cc (st == rsOk) (o.record s.time)
  match o.src with
  | .plume k use _ => (s1.dropOp o).plmOpDone k use st o.dev (fabPart o.fabric)
  | _ => s1.dropOp o

/-- RMO_COMPLETE: an operation whose outcome is known completes, after the earlier ones of its stream.  An operation of a
stopped partition completes ABORTED; the manual gives its DETAIL no value (Table 1.10, Table 7.5). -/
def execRmoComplete (id : Nat) (s : State) : Host.Outcome State Fault Refusal := live s <|
  match s.rmo.ops.find? fun o => o.id == id with
  | none => .next s
  | some o =>
    let held := match o.src with
      | .geyser _ _ => false
      | .plume _ _ _ => false
      | _ => (o.cc.any fun c => s.cndHeld c) && !s.stopped.contains o.part
    if s.streamBusy o || held then .next s
    else
      match o.status with
      | some _ => .next (s.completeOp o)
      | none =>
        if s.stopped.contains o.part then
          let (d, s1) := s.draw
          .next (s1.completeOp (o.abort (d.toNat % 2 ^ 32)))
        else .next s

end Sys2Proof.Machine
end

