-- ==== Sys2Proof/Machine/ZrtWire.lean ====
section
/-! DEFINITION. ZRT frames as they travel: the bytes of the header and of segments in network byte order, and the packet around them
(R3, R257 to R259, R262, R266, R267). -/
namespace Sys2Proof

/-- The low `n` bytes of a number in network byte order. -/
def toBe (n v : Nat) : List Byte := (toLe n v).reverse
/-- The number that bytes in network byte order hold. -/
def ofBe (l : List Byte) : Nat := ofLe l.reverse

/-- A segment (Table 7.8): its header, then its data in memory order, padded with zeros to a multiple of 8 bytes. -/
def ZrtSeg.toBytes (g : ZrtSeg) : List Byte :=
  toBe 1 g.kind ++ toBe 1 g.sub ++ toBe 1 g.part ++
  toBe 1 ((if g.first then 1 else 0) + (if g.last then 2 else 0) + if g.marks.isEmpty then 0 else 4) ++ toBe 4 g.opId ++
  toBe 8 g.addr.toNat ++ toBe 4 g.len ++ toBe 4 g.off ++ toBe 8 g.operand.toNat ++ g.data ++
  List.replicate (ceilDiv g.data.length 8 * 8 - g.data.length) 0

/-- TYPE of a frame (Table 7.7). -/
def ZrtBody.code : ZrtBody → Nat
  | .data _ => 1
  | .ack _ => 2
  | .opening _ _ => 3
  | .openAck _ _ => 4
  | .close _ _ _ _ => 5
  | .closeAck _ _ _ _ => 6
  | .probe => 7
  | .probeReply => 8

/-- SACK_COUNT. -/
def ZrtBody.sacks : ZrtBody → Nat
  | .ack l => l.length
  | _ => 0

/-- What follows the header: segments; SACK blocks; BOOT_ID and epoch.  The manual says what CLOSE and CLOSE_ACK carry and gives it no
layout: here the vents in one byte as in VENTS, three zero bytes, epoch and RX_APPLIED (DESIGN CHOICE). -/
def ZrtBody.toBytes : ZrtBody → List Byte
  | .data segs => segs.flatMap ZrtSeg.toBytes
  | .ack l => l.flatMap fun e => toBe 4 e.1 ++ toBe 4 e.2
  | .opening boot epoch => toBe 4 boot ++ toBe 4 epoch
  | .openAck boot epoch => toBe 4 boot ++ toBe 4 epoch
  | .close sv rv e rx => toBe 1 (sv * 16 + rv) ++ toBe 3 0 ++ toBe 4 e ++ toBe 4 rx
  | .closeAck sv rv e rx => toBe 1 (sv * 16 + rv) ++ toBe 3 0 ++ toBe 4 e ++ toBe 4 rx
  | .probe => []
  | .probeReply => []

/-- The UDP payload: the ZRT header (Table 7.7), then what its TYPE defines. -/
def ZrtFrame.toBytes (f : ZrtFrame) : List Byte :=
  let payload := f.body.toBytes
  toBe 1 (16 + f.body.code) ++ toBe 1 ((if f.ecnEcho then 1 else 0) + (if f.ackNow then 2 else 0) + if f.retx then 4 else 0) ++
  toBe 1 f.src ++ toBe 1 f.dst ++ toBe 1 (f.svent * 16 + f.rvent) ++ toBe 1 f.body.sacks ++ toBe 2 payload.length ++ toBe 4 f.group ++
  toBe 4 f.epoch ++ toBe 4 f.psn ++ toBe 4 f.ackPsn ++ toBe 4 f.ts ++ toBe 4 f.tsEcho ++ payload

end Sys2Proof
namespace Sys2Proof.Machine

/-- The packet in which a path of vent `v` carries a frame (R257).  The ECN field is ECT(0), binary 10, or Not-ECT. -/
def State.zrtPacket (s : State) (v : Nat) (f : ZrtFrame) : ZrtPacket :=
  let p := s.path f.dst v
  { ipv6 := p.ipv6, address := p.ip, srcPort := 49152 + (f.dst * 16 + v) % 16384, dstPort := p.port, df := !p.ipv6, hops := 64
    dscp := s.getF Fld.CND_ZRT_CFG_DSCP, ecn := if p.ecn && s.flag Fld.CND_ZRT_CFG_ECN_EN then 2 else 0, payload := f.toBytes }

end Sys2Proof.Machine
end

