-- ==== Sys2Proof/Machine/Zrt.lean ====
section
/-! DEFINITION. Zwimeas Remote Transport: taking remote-operation entries, frames, acknowledgement, retransmission, rate
and the states of paths (R245, R249, R254 to R270, R392, R445). -/
namespace Sys2Proof.Machine

/-! ## Serial numbers, paths -/

/-- `a` is at or below `b` as serial numbers of 32 bits (R258). -/
def serialLe (a b : Nat) : Bool := decide ((b + 2 ^ 32 - a) % 2 ^ 32 < 2 ^ 31)
def serialSucc (a : Nat) : Nat := (a + 1) % 2 ^ 32
/-- The value below the first PSN of an epoch. -/
def psnNone : Nat := 2 ^ 32 - 1

def State.setPath (s : State) (d v : Nat) (p : Path) : State :=
  { s with rmo := { s.rmo with paths := Sparse.set pathDefault s.rmo.paths (d * 16 + v) p } }
def State.modPath (s : State) (d v : Nat) (f : Path → Path) : State := s.setPath d v (f (s.path d v))
def vents : List Nat := List.range 16
def srcZrt (v : Nat) : Nat := srcConduit (v / 4)
def State.zrtOn (s : State) : Bool := s.flag Fld.CND_ZRT_CFG_ENABLE

def rtoMax (s : State) : Nat := s.getF Fld.CND_ZRT_RTO_RTO_MAX * 1000
def rtoMin (s : State) : Nat := s.getF Fld.CND_ZRT_RTO_RTO_MIN * 1000
def rtoInit (s : State) : Nat := s.getF Fld.CND_ZRT_RTO_RTO_INIT * 1000
/-- RTO from the measurements (R263). -/
def rtoOf (s : State) (p : Path) : Nat := if p.measured then max (rtoMin s) (p.srtt + 4 * p.rttvar) else rtoInit s

/-- Ports of a vent under its port mode (Table 11.1); MODE 3 is reserved and has none. -/
def State.ventPorts (s : State) (v : Nat) : Nat := match s.getF (Fld.VNT_CTL_MODE v) with
  | 0 => 1
  | 1 => 2
  | 2 => 4
  | _ => 0
def State.portUp (s : State) (v n : Nat) : Bool := bits (s.getF (Fld.VNT_STATUS_LINK_UP v)) n 1 == 1
/-- A port is usable when its link is UP and its next hop is VALID (R369). -/
def State.portUsable (s : State) (v n : Nat) : Bool := s.portUp v n && s.flag (Fld.VNT_NEXTHOP_VALID v n)
/-- The port on which a path leaves its vent: the first usable one from port d mod P upwards (R369). -/
def State.pathPort (s : State) (d v : Nat) : Option Nat :=
  let p := s.ventPorts v
  ((List.range p).map fun i => (d % p + i) % p).find? fun n => s.portUsable v n
/-- Line rate of a path in Mb/s: of the port it uses, or of the port mode while it has none (R264, R369). -/
def State.lineRate (s : State) (d v : Nat) : Nat :=
  let code := match s.pathPort d v with
    | some n => bits (s.getF (Fld.VNT_STATUS_RATE v)) (4 * n) 4
    | none => 3 - min 2 (s.getF (Fld.VNT_CTL_MODE v))
  match code with
  | 3 => 800000
  | 2 => 400000
  | _ => 200000

/-! ## The device table (R392) -/

def memberUp : Nat := 1
/-- The head notes a change of a member's state, with GROUP_MEMBER. -/
def State.groupState (s : State) (d new : Nat) : State :=
  if !s.flag Fld.PCI_CFG_HEAD then s
  else
    match s.devTable.find? fun e => e.dev == d with
    | none => s
    | some e =>
      if e.state = new then s
      else
        let upd (x : DevEntry) : DevEntry := if x.dev = d then { x with state := new, tSeen := s.time } else x
        ({ s with devTable := s.devTable.map upd }).raise srcFumarole wholeDevice clsInfo 0x9006 0 [w d, w e.state, w new]

/-! ## Segments of operations (R259) -/

def fragMax (p : Path) : Nat := if p.jumbo then 8192 else 1024

/-- Cut data into fragments of at most `m` bytes: offset and bytes. -/
def fragments (m : Nat) : Nat → Nat → List Byte → List (Nat × List Byte)
  | 0, _, _ => []
  | k + 1, off, l => if l.length ≤ m then [(off, l)] else (off, l.take m) :: fragments m k (off + m) (l.drop m)

/-- Bytes of poisoned lines are carried as zeros: `a` is where offset 0 lies in its line. -/
def zeroMarked (marks : List Nat) (off : Nat) (l : List Byte) (a : Nat) : List Byte :=
  l.zipIdx.map fun e => if marks.any fun m => (a + m) / 64 == (a + off + e.2) / 64 then 0 else e.1

def dataSegs (kind part opId : Nat) (addr : Word64) (m a : Nat) (data : List Byte) (marks : List Nat) : List ZrtSeg :=
  let fs := fragments m (data.length / m + 1) 0 data
  fs.zipIdx.map fun e =>
    let off := e.1.1
    let l := e.1.2
    { kind, sub := 0, part, first := e.2 == 0, last := e.2 + 1 == fs.length, opId, addr, len := data.length, off, operand := 0,
      data := zeroMarked marks off l a, marks := marks.filter fun k => decide (off ≤ k) && decide (k < off + l.length) }

/-- The segments that carry an operation to its destination. -/
def State.opSegs (s : State) (o : RmoOp) (p : Path) : List ZrtSeg :=
  let id := o.id % 2 ^ 32
  let one (kind sub len : Nat) (operand : Word64) (data : List Byte) : List ZrtSeg :=
    [{ kind, sub, part := o.part, first := true, last := true, opId := id, addr := dw o.fabric, len, off := 0, operand, data, marks := [] }]
  if o.opc = opcPut then
    let (data, marks) := s.sideRead o
    dataSegs 1 o.part id (dw o.fabric) (fragMax p) (if o.lkind = 0 then (o.ocBase + o.loc) % 64 else o.loc % 64) data marks
  else if o.opc = opcGet then one 2 0 o.len 0 []
  else if o.opc = opcGinc then one 4 0 0 o.operand []
  else one 3 (o.fmt * 16 + (o.opc - 2)) 0 o.operand (if o.opc = 6 then (toLe 8 o.compare.toNat).reverse else [])

/-! ## Where a stream goes (R256) -/

/-- Segments of a path that are not known to be performed. -/
def Path.pendingSegs (p : Path) : List ZrtSeg := p.unacked.flatMap Unacked.segs ++ p.sendq
/-- A request segment of an operation of the stream, be it one that has completed since (R252). -/
def State.segOf (s : State) (c d : Nat) (g : ZrtSeg) : Bool :=
  decide (g.kind < 8) && ((s.rmo.ops.any fun o => o.id % 2 ^ 32 == g.opId && o.cnd == c && o.dev == d) ||
    s.rmo.late.any fun e => e.1 % 2 ^ 32 == g.opId && e.2.1 == c && e.2.2 == d)
/-- An operation of a conduit has a segment that is not sent (R245). -/
def State.unsentOf (s : State) (c : Nat) : Bool :=
  let hit (g : ZrtSeg) : Bool := decide (g.kind < 8) && s.rmo.ops.any fun o => o.id % 2 ^ 32 == g.opId && o.cnd == c
  (s.rmo.paths.any fun (e : Nat × Path) => e.2.sendq.any hit) || (s.rmo.closing.any fun k => k.sendq.any hit) ||
  s.rmo.stranded.any fun e => hit e.2

/-- The vents in the order in which a stream searches them. -/
def searchOrder (c : Nat) : List Nat := (List.range 16).map fun i => (c + i) % 16

/-- The path on which a stream sends: the one that holds its unacknowledged frames while it is UP, or else the first UP
path of its search. -/
def State.streamVent (s : State) (c d : Nat) : Option Nat :=
  let up (v : Nat) : Bool := (s.path d v).usable
  match (searchOrder c).find? fun v => up v && ((s.path d v).pendingSegs.any fun g => s.segOf c d g) with
  | some v => some v
  | none => (searchOrder c).find? up

/-! ## Sending frames -/

/-- Bytes of the IP packet of a frame: IP, UDP and ZRT headers, segments padded to 8 bytes; and on the wire, with what Ethernet adds
(Example 7.1). -/
def packetBytes (p : Path) (segs : List ZrtSeg) : Nat :=
  (if p.ipv6 then 40 else 20) + 8 + 32 + segs.foldl (fun a g => a + 32 + ceilDiv g.data.length 8 * 8) 0
def wireBytes (p : Path) (segs : List ZrtSeg) : Nat := 38 + packetBytes p segs
/-- The segments fit one frame of a path: its data bytes and its MTU (R257, R259). -/
def fitsFrame (p : Path) (segs : List ZrtSeg) : Bool :=
  decide ((segs.map fun g => g.data.length).sum ≤ fragMax p) && decide (packetBytes p segs ≤ if p.jumbo then 9000 else 1500)

/-- Hand a frame of a path to its vent's transmit queue. -/
def State.zrtPush (s : State) (d v psn : Nat) (ackNow retx echo : Bool) (body : ZrtBody) : State :=
  let p := s.path d v
  let q := match body with
    | .data _ => s.getF Fld.CND_ZRT_CFG_DATA_TXQ
    | _ => s.getF Fld.CND_ZRT_CFG_CTL_TXQ
  let f : ZrtFrame := {
    sumOk := true, versionOk := true, ce := false, ecnEcho := echo, ackNow, retx, src := s.ownDev, dst := d, svent := v, rvent := p.rvent,
    group := s.getF Fld.CND_ZRT_GROUP_TAG, epoch := p.epoch, psn, ackPsn := p.rxApplied, ts := s.time % 2 ^ 32, tsEcho := p.tsEcho, body }
  { s with rmo := { s.rmo with out := s.rmo.out ++ [(v, q, f)] } }

/-- Add to a partition's count of vent bytes (R409). -/
def State.useVent (s : State) (p n : Nat) : State := if p < 64 then s.incF (Fld.PRT_USE_VENT_COUNT p) n else s

/-- The rate spaces DATA frames (R264): nanoseconds that bytes take at a rate in Mb/s. -/
def sendTime (bytes rate : Nat) : Nat := if rate = 0 then 0 else ceilDiv (bytes * 8000) rate

/-- Send a DATA frame, new or again. -/
def State.sendData (s : State) (d v psn : Nat) (segs : List ZrtSeg) (ackNow again : Bool) : State :=
  let p := s.path d v
  let bytes := wireBytes p segs
  let s1 := s.zrtPush d v psn ackNow again p.ceSeen (.data segs)
  let s2 := s1.modPath d v fun p => { p with
    nextSend := max s.time p.nextSend + sendTime bytes p.rate
    ceSeen := false
    sinceAck := 0
    ackDue := none
    retx := if again then min (p.retx + 1) (2 ^ 32 - 1) else p.retx }
  let s3 := if again then s2.incF Fld.CND_ZRT_RETX_COUNT 1 else s2.incF Fld.CND_ZRT_TX_COUNT 1
  let ids := (segs.filter fun g => decide (g.kind < 8)).map ZrtSeg.opId
  let bump (o : RmoOp) : RmoOp := if again && ids.contains (o.id % 2 ^ 32) then { o with retx := o.retx + 1 } else o
  let s4 := { s3 with rmo := { s3.rmo with ops := s3.rmo.ops.map bump } }
  match segs with
  | g :: _ => s4.useVent g.part bytes
  | [] => s4

/-- The largest prefix of at most `k` segments, and at least one, that fits a frame behind those it has (R259). -/
def takeSegs (p : Path) : Nat → List ZrtSeg → List ZrtSeg → List ZrtSeg
  | 0, have', _ => have'
  | _ + 1, have', [] => have'
  | k + 1, have', g :: t =>
    if have'.isEmpty || fitsFrame p (have' ++ [g]) then takeSegs p k (have' ++ [g]) t else have'

/-- Send again the first of the frames that are to be sent again, once the rate allows it (R263, R264). -/
def State.sendAgain (s : State) (d v : Nat) : State :=
  match (s.path d v).again with
  | [] => s
  | (psn, now) :: t =>
    let s1 := s.modPath d v fun p => { p with again := t }
    match (s.path d v).unacked.find? fun u => u.psn == psn with
    | none => s1
    | some u =>
      let mark (x : Unacked) : Unacked := if x.psn = psn then { x with resent := true, sentAt := s.time } else x
      (s1.sendData d v psn u.segs now true).modPath d v fun p => { p with unacked := p.unacked.map mark }

/-- Send again what may leave now, at most `n` frames. -/
def State.pumpAgain (s : State) (d v : Nat) : Nat → State
  | 0 => s
  | n + 1 => if (s.path d v).again.isEmpty || decide (s.time < (s.path d v).nextSend) then s else State.pumpAgain (s.sendAgain d v) d v n

/-- ZRT_FRAME_SEND: a frame that is to be sent again leaves once the rate allows; or else the next segments of a path, at most `k` of
them, in one DATA frame once window and rate allow. -/
def execZrtFrameSend (d v k : Nat) (s : State) : Host.Outcome State Fault Refusal := live s <|
  if 256 ≤ d then .fault (.noSuchUnit d)
  else if 16 ≤ v then .fault (.noSuchUnit v)
  else
    let p := s.path d v
    if !(s.zrtOn && p.usable) || decide (s.time < p.nextSend) then .next s
    else if !p.again.isEmpty then .next (s.sendAgain d v)
    else if p.sendq.isEmpty || decide (p.window ≤ p.unacked.length) then .next s
    else
      let segs := takeSegs p (max 1 k) [] p.sendq
      let s1 := s.sendData d v p.txNext segs false false
      .next (s1.modPath d v fun p => { p with
        sendq := p.sendq.drop segs.length
        lastAckAdvance := if p.unacked.isEmpty then s.time else p.lastAckAdvance
        unacked := p.unacked ++ [{ psn := p.txNext, segs, sentAt := s.time, resent := false }]
        txNext := serialSucc p.txNext })

/-- Contiguous blocks of a rising list of PSNs. -/
def sackBlocks : List Nat → List (Nat × Nat)
  | [] => []
  | a :: t => match sackBlocks t with
    | (b, e) :: r => if b = serialSucc a then (a, e) :: r else (a, a) :: (b, e) :: r
    | [] => [(a, a)]

/-- Send an ACK (R262). -/
def State.sendAck (s : State) (d v : Nat) : State :=
  let p := s.path d v
  let s1 := s.zrtPush d v 0 false false p.ceSeen (.ack ((sackBlocks (p.pool.map Prod.fst)).take 4))
  s1.modPath d v fun p => { p with ceSeen := false, sinceAck := 0, ackDue := none }

/-- Send OPEN (R265, R266): the epoch proposed is the previous one plus 1. -/
def State.sendOpen (s : State) (d v : Nat) : State :=
  s.zrtPush d v 0 false false false (.opening (s.getF Fld.CND_ZRT_BOOT_BOOT_ID) (((s.path d v).epoch + 1) % 2 ^ 32))

/-! ## Taking entries (R245, R32, R445) -/

/-- A sealed partition's operations leave the device only with NET_EXPOSE (Table 13.2). -/
def State.netBarred (s : State) (p : Nat) : Bool :=
  s.isSealed p && !(match s.policy p with | some x => x.netExpose | none => false)

/-- SEC_EXPOSED, once per power-on, where a vent does not encrypt (R445). -/
def State.secExposed (s : State) (p : Nat) : State :=
  if !s.isSealed p || s.sec.exposed.contains p then s
  else
    match vents.find? fun v => decide (s.getF (Fld.VNT_SEC_CFG_VALIDATE v) < 2) with
    | none => s
    | some v =>
      ({ s with sec := { s.sec with exposed := s.sec.exposed ++ [p] } }).raise srcSinter p clsInfo 0xA008 0 [w p, w v]

/-- The outcome of an operation that never leaves this device (R248): no connection to others at all, a sealed partition's (R445), a
retired array's (R253), or a local line whose tag fails (R441). -/
def State.endsHere (s : State) (o : RmoOp) : Option (State × RmoOp) :=
  if !s.flag Fld.TOP_DEVNUM_VALID || !s.zrtOn then some (s, o.settle rsUnreachable 0)
  else if s.netBarred o.part then some (s, o.settle rsAccessDenied 0)
  else if s.sideGone o then some (s, o.abort 4)
  else if o.opc = opcPut then (s.sideBadTag o).map fun k => (s.integrityAt o.part (o.loc + k), o.settle rsIntegrity 0)
  else none

/-- RMO_ENTRY_TAKE: the conduit engine takes the entry at the head of a remote-operation conduit when it can track one more operation
and no earlier entry of the conduit waits to be sent (R245).  One whose outcome is known completes with it; one to another device goes on
its stream's path, and waits in the conduit while the peer, reachable at its release, has no path UP. -/
def execRmoEntryTake (take : EntryTake) (s : State) : Host.Outcome State Fault Refusal := live s <|
  let c := take.conduit
  let u := take.upsets
  if conduitCount ≤ c then .fault (.noSuchUnit c)
  else
    let (s, ok) := s.cndCheck c
    let x := s.cndGet c
    if !ok || !x.valid || x.kind != 1 || s.cndHeld c || x.occupied == 0 || decide (32768 ≤ s.getF (Fld.CND_RMO_OUT_COUNT x.home)) then .next s
    else
      let entry := s.cndHead c
      let q := (s.rmo.queued.find? fun q => q.cnd == c).getD ⟨c, s.rmo.nextId, .host x.owner, none, s.time, none⟩
      let o := entryOp q.id c x.home x.owner q.src q.cc entry
      let waits := s.unsentOf c ||
        s.rmo.closing.any fun k => k.dev == o.dev && (k.unacked.flatMap Unacked.segs).any fun g => s.segOf c o.dev g
      let isLocal := o.dev == s.ownDev
      let route := s.streamVent c o.dev
      if waits || (q.fate.isNone && !isLocal && route.isNone && (s.endsHere o).isNone) then .next s
      else
        let s1 := (s.cndPop c).serveConduit c
        let s2 := { s1 with rmo := { s1.rmo with
          nextId := max s1.rmo.nextId (q.id + 1)
          queued := match s1.rmo.queued.findIdx? fun (q : RmoQueued) => q.cnd == c with
            | some i => s1.rmo.queued.eraseIdx i
            | none => s1.rmo.queued } }
        let s3 := s2.setF (Fld.CND_RMO_OUT_COUNT x.home) (s2.getF (Fld.CND_RMO_OUT_COUNT x.home) + 1)
        let s4 := applyOcUpsets s3 o.ocArray o.linesRead u
        let add (x : State × RmoOp) : Host.Outcome State Fault Refusal := .next { x.1 with rmo := { x.1.rmo with ops := x.1.rmo.ops ++ [x.2] } }
        match q.fate with
        | some (st, d) => add (s3, o.settle st d)
        | none =>
          if isLocal then add (s4.performLocal o)
          else match s3.endsHere o, route with
            | some x, _ => add x
            | none, none => .next s
            | none, some v =>
              let marks := if o.opc = opcPut then (s4.sideRead o).2 else []
              add ((s4.secExposed o.part).modPath o.dev v fun p => { p with sendq := p.sendq ++ s4.opSegs o p }, { o with poison := marks.head? })

/-- Abort an outstanding operation: whether the abort wins (R252). -/
def State.abortOp (s : State) (id detail : Nat) : State × Bool :=
  if s.rmo.ops.any fun o => o.id == id && o.status.isNone then (s.abortTaken detail fun o => o.id == id, true) else (s, false)

/-- Device time at which OP_TIMEOUT after a release has passed (R268). -/
def State.opLimit (s : State) (released : Nat) : Nat := released + s.getF Fld.CND_ZRT_LIMITS_OP_TIMEOUT * 1000000

/-- OP_TIMEOUT_EXPIRY (R268): an operation released over ZRT that is still outstanding when OP_TIMEOUT has passed completes with TIMEOUT,
be it taken or still in its conduit. -/
def execOpTimeoutExpiry (id : Nat) (s : State) : Host.Outcome State Fault Refusal := live s <|
  let taken (o : RmoOp) : Bool := o.id == id && o.status.isNone && o.dev != s.ownDev && decide (s.opLimit (o.f 0x30 8) ≤ s.time)
  let away (c id : Nat) : Bool :=
    ((s.rmo.queued.filter fun q => q.cnd == c).zipIdx.any fun e =>
      let x := s.cndGet c
      e.1.id == id && entryDev (s.hbmRead x.owner (x.slot (x.cons + e.2)) 64) != s.ownDev)
  let late (q : RmoQueued) : Bool := q.id == id && q.fate.isNone && decide (s.opLimit q.released ≤ s.time) && away q.cnd id
  let updQ (q : RmoQueued) : RmoQueued := if late q then { q with fate := some (rsTimeout, 0) } else q
  let updO (o : RmoOp) : RmoOp := if taken o then o.settle rsTimeout 0 else o
  let s1 := { s with rmo := { s.rmo with ops := s.rmo.ops.map updO, queued := s.rmo.queued.map updQ } }
  .next (if s.rmo.ops.any taken then s1.dropUnsent [id] else s1)

/-! ## Path states (R265 to R267) -/

/-- CLOSE goes out for each unaccounted epoch of a peer once a path to it is UP. -/
def State.sendCloses (s : State) (d : Nat) : State :=
  match vents.find? fun v => (s.path d v).usable with
  | none => s
  | some u =>
    let s1 := (s.rmo.closing.filter fun k => k.dev == d && !k.sent).foldl (fun s k =>
      s.zrtPush d u 0 false false false (.close k.vent (s.path d k.vent).rvent k.epoch k.rxApplied)) s
    let mark (k : Closing) : Closing := if k.dev = d then { k with sent := true } else k
    { s1 with rmo := { s1.rmo with closing := s1.rmo.closing.map mark } }

/-- The frames of a path's epoch wait to be accounted for (R267). -/
def State.closeEpoch (s : State) (d v : Nat) : State :=
  let p := s.path d v
  let s1 := { s with rmo := { s.rmo with closing := s.rmo.closing ++ [Closing.mk d v p.epoch p.rxApplied p.unacked p.sendq false false] } }
  s1.modPath d v fun p => { p with unacked := [], sendq := [], pool := [], again := [], ackDue := none }

/-- A device of the group has failed: a snapshot under way is to be abandoned (R345). -/
def State.snapAtRisk (s : State) : State :=
  if s.getF Fld.LOG_SNAP_STATE = 0 then s else { s with log := { s.log with snapLost := true } }

/-- A peer that was reachable has no path left that is UP or OPENING: PEER_UNREACHABLE (R256). -/
def State.peerLost (s : State) (d v : Nat) (was : Bool) : State :=
  if was && s.peerUnreachable d then ((s.raise (srcZrt v) wholeDevice clsInfo 0x4003 0 [w d]).groupState d 2).snapAtRisk else s

/-- A path that was UP stops: PATH_DOWN with a cause, and PEER_UNREACHABLE with the last one. -/
def State.pathStops (s : State) (d v new : Nat) (cause : Word32) : State :=
  let p := s.path d v
  let s1 := ((if p.shut then s else s.closeEpoch d v).modPath d v fun p => { p with state := new }).raise (srcZrt v) wholeDevice clsInfo 0x4001 0
    [w d, w v, w p.epoch, cause]
  (s1.peerLost d v true).sendCloses d

/-- Cut a segment that is to be sent again to the fragments of its new path (R259). -/
def recut (m : Nat) (g : ZrtSeg) : List ZrtSeg :=
  let fs := fragments m (g.data.length / m + 1) 0 g.data
  fs.zipIdx.map fun (e : (Nat × List Byte) × Nat) =>
    let off := g.off + e.1.1
    { g with
      off, data := e.1.2, first := g.first && e.2 == 0, last := g.last && e.2 + 1 == fs.length
      marks := g.marks.filter fun k => decide (off ≤ k) && decide (k < off + e.1.2.length) }

/-- The path on which a segment for a peer is sent again: its stream's new path; for an answer the first that is UP. -/
def State.segVent (s : State) (d : Nat) (g : ZrtSeg) : Option Nat :=
  if 8 ≤ g.kind then vents.find? fun v => (s.path d v).usable
  else match s.rmo.ops.find? fun o => o.id % 2 ^ 32 == g.opId && o.dev == d with
    | some o => (searchOrder o.cnd).find? fun v => (s.path d v).usable
    | none => none

/-- Put segments that a peer did not perform at the front of their new paths, in order; those that find none wait for one (R267). -/
def State.rerouted (s : State) (d : Nat) (segs : List ZrtSeg) : State :=
  segs.reverse.foldl (fun s g =>
    match s.segVent d g with
    | some v => s.modPath d v fun p => { p with sendq := recut (fragMax p) g ++ p.sendq }
    | none => { s with rmo := { s.rmo with stranded := (d, g) :: s.rmo.stranded } }) s

/-- Segments that waited for a path to a peer take one. -/
def State.unstrand (s : State) (d : Nat) : State :=
  let mine (e : Nat × ZrtSeg) : Bool := e.1 == d
  let s1 := { s with rmo := { s.rmo with stranded := s.rmo.stranded.filter fun e => !mine e } }
  s1.rerouted d ((s.rmo.stranded.filter mine).map Prod.snd)

/-- A path comes UP with a new epoch: PSNs restart and the rate is the line rate. -/
def State.pathUp (s : State) (d v epoch : Nat) : State :=
  let p := s.path d v
  let s1 := if p.state = stUp ∧ !p.shut then s.closeEpoch d v else s
  let s2 := s1.modPath d v fun p => { p with
    state := stUp, shut := false, again := [], epoch, txNext := 0, rxApplied := psnNone, unacked := [], sendq := [], pool := [], rate := s.lineRate d v, alpha := 65536,
    rto := rtoInit s, measured := false, srtt := 0, rttvar := 0, expiries := 0, nextSend := s.time,
    lastAckAdvance := s.time, ceSeen := false, sinceAck := 0, ackDue := none, echoSeen := false }
  let s3 := s2.raise (srcZrt v) wholeDevice clsInfo 0x4002 0 [w d, w v, w epoch]
  ((s3.groupState d memberUp).sendCloses d).unstrand d

/-- A peer has restarted (R266): what is outstanding to it completes with DEST_RESET, and its other paths open again. -/
def State.peerRestarted (s : State) (d v old boot : Nat) : State :=
  let hit (o : RmoOp) : Bool := o.dev == d && o.status.isNone && o.dev != s.ownDev
  let n := (s.rmo.ops.filter hit).length
  let upd (o : RmoOp) : RmoOp := if hit o then { o with status := some rsDestReset } else o
  let s1 := { s with rmo := { s.rmo with
    ops := s.rmo.ops.map upd
    closing := s.rmo.closing.filter fun k => k.dev != d
    stranded := s.rmo.stranded.filter fun (e : Nat × ZrtSeg) => e.1 != d
    inbound := s.rmo.inbound.filter fun k => k.dev != d } }
  let s2 := vents.foldl (fun s u =>
    if u ≠ v ∧ (s.path d u).valid then
      s.modPath d u fun p => { p with state := stOpening, unacked := [], sendq := [], pool := [], again := [], ackDue := none, shut := false }
    else s) s1
  let s3 := s2.trimLate.modPath d v fun p => { p with unacked := [], sendq := [], pool := [], again := [], state := if p.state = stUp then stDown else p.state }
  ((s3.raise (srcZrt v) wholeDevice clsInfo 0x4004 0 [w d, w old, w boot, w n]).groupState d 3).snapAtRisk

/-- The peer's BOOT_ID is learned on every path to it; a change from one learned before, on whichever path, is a restart (R266).  A
PEER_BOOT of 0 is one that has not been learned (DEDUCED: no OPEN has come). -/
def State.learnBoot (s : State) (d v boot : Nat) : State :=
  let other (u : Nat) : Option Nat :=
    let b := (s.path d u).peerBoot
    if (s.path d u).valid && b != 0 && b != boot then some b else none
  let s1 := match (v :: vents).findSome? other with
    | some old => s.peerRestarted d v old boot
    | none => s
  vents.foldl (fun s u => if (s.path d u).valid then s.modPath d u fun p => { p with peerBoot := boot } else s) s1

/-- Send again, on each stream's path, the segments of an epoch that the peer did not perform (R267): those of
operations still outstanding, and answers, before anything later.  The record stays, its RX_APPLIED with it, until a CLOSE for the epoch
has been answered. -/
def State.resendAfter (s : State) (k : Closing) (rx : Nat) : State :=
  let segs := (k.unacked.filter fun u => !serialLe u.psn rx).flatMap Unacked.segs ++ k.sendq
  let live (g : ZrtSeg) : Bool := decide (8 ≤ g.kind) || s.rmo.ops.any fun o => o.id % 2 ^ 32 == g.opId && o.dev == k.dev && o.status.isNone
  let done (x : Closing) : Closing := if x = k then { x with unacked := [], sendq := [], settled := true } else x
  (({ s with rmo := { s.rmo with closing := s.rmo.closing.map done } }).rerouted k.dev (segs.filter live)).trimLate

/-! ## Performing received segments (R259 to R261) -/

def State.setInbound (s : State) (d opId st : Nat) : State :=
  { s with rmo := { s.rmo with inbound := (s.rmo.inbound.filter fun k => !(k.dev == d && k.opId == opId)) ++ [⟨d, opId, st⟩] } }
def State.inboundStatus (s : State) (d opId : Nat) : Option Nat :=
  (s.rmo.inbound.find? fun k => k.dev == d && k.opId == opId).map Inbound.status
def State.dropInbound (s : State) (d opId : Nat) : State :=
  { s with rmo := { s.rmo with inbound := s.rmo.inbound.filter fun k => !(k.dev == d && k.opId == opId) } }

def respSeg (g : ZrtSeg) (st : Nat) (old : Word64) : ZrtSeg :=
  { kind := 9, sub := 0, part := g.part, first := true, last := true, opId := g.opId, addr := g.addr, len := 0, off := st, operand := old,
    data := [], marks := [] }
/-- Queue answers on the reverse direction of the path. -/
def State.answer (s : State) (d v : Nat) (l : List ZrtSeg) : State := s.modPath d v fun p => { p with sendq := p.sendq ++ l }

def State.performSeg (s : State) (d v : Nat) (g : ZrtSeg) : State :=
  let fab := g.addr.toNat
  let a := fabLocal fab
  let p := fabPart fab
  match g.kind with
  | 1 =>
    let s0 := if g.first then s.setInbound d g.opId ((s.destCheck d g.part opcPut fab g.len).getD rsOk) else s
    match s0.inboundStatus d g.opId with
    | none => s0
    | some st =>
      let s1 := if st = rsOk ∨ st = rsPoisoned then
          let (s1, st', _) := s0.putBytes p (a + g.off) g.data (g.marks.map fun m => m - g.off)
          s1.setInbound d g.opId (if st' = rsOk then st else st')
        else if st = rsIntegrity then
          let (junk, s1) := s0.drawBytes g.data.length
          s1.localWrite p (a + g.off) junk
        else s0
      if g.last then
        let st' := (s1.inboundStatus d g.opId).getD rsOk
        (s1.dropInbound d g.opId).answer d v [respSeg g st' 0]
      else s1
  | 2 =>
    match s.destCheck d g.part opcGet fab g.len with
    | some st => s.answer d v [respSeg g st 0]
    | none =>
      let (s1, data, marks, st) := s.getBytes p a g.len
      let segs := dataSegs 8 g.part g.opId g.addr (fragMax (s1.path d v)) (a % 64) data marks
      s1.answer d v ((segs.map fun x => { x with len := g.len }) ++ [respSeg g st 0])
  | 3 =>
    let fmt := g.sub / 16
    let sub := g.sub % 16
    match s.destCheck d g.part (2 + sub) fab (fmtWidth fmt / 8) with
    | some st => s.answer d v [respSeg g st 0]
    | none =>
      let (s1, st, old) := s.atomic g.part p a sub fmt g.operand (dw (ofLe g.data.reverse))
      s1.answer d v [respSeg g st (if st = rsOk then dw old else 0)]
  | 4 =>
    match s.destCheck d g.part opcGinc fab 8 with
    | some st => s.answer d v [respSeg g st 0]
    | none => (s.geyAdd ((a - geySpace) / 32) g.operand).answer d v [respSeg g rsOk 0]
  | 8 =>
    match s.rmo.ops.find? fun o => o.id % 2 ^ 32 == g.opId && o.dev == d && o.status.isNone with
    | none => s
    | some o =>
      if s.sideGone o then (s.abortOp o.id 4).1  -- R253: nothing more is written
      else
        let s1 := s.sideWrite o g.off g.data g.marks
        let upd (x : RmoOp) : RmoOp := if x.id = o.id then
            { x with done := x.done + g.data.length, poison := x.poison <|> g.marks.head? } else x
        { s1 with rmo := { s1.rmo with ops := s1.rmo.ops.map upd } }
  | 9 =>
    match s.rmo.ops.find? fun o => o.id % 2 ^ 32 == g.opId && o.dev == d && o.status.isNone with
    | none => s
    | some o =>
      let st := g.off % 256
      let good := st == rsOk || st == rsPoisoned
      let upd (x : RmoOp) : RmoOp := if x.id = o.id then
          { x with
            status := some st
            old := if x.opc < 2 ∨ x.opc = opcGinc then 0 else g.operand.toNat
            done := if x.opc = opcGet then x.done else if x.opc = opcPut then (if good then x.len else 0) else if st = rsOk then 1 else 0
            detail := if st = rsPoisoned then x.poison.getD 0 else 0 } else x
      { s with rmo := { s.rmo with ops := s.rmo.ops.map upd } }
  | _ => s

/-- Perform one DATA frame: it becomes the highest performed in order. -/
def State.performFrame (s : State) (d v psn : Nat) (segs : List ZrtSeg) : State :=
  let s1 := s.modPath d v fun p => { p with rxApplied := psn, sinceAck := p.sinceAck + 1 }
  (segs.foldl (fun s g => s.performSeg d v g) s1).incF Fld.CND_ZRT_RX_COUNT 1

/-- Perform the buffered successors (R261). -/
def State.drainPool (s : State) (d v : Nat) : Nat → State
  | 0 => s
  | k + 1 =>
    let p := s.path d v
    match p.pool.find? fun e => e.1 == serialSucc p.rxApplied with
    | none => s
    | some e => State.drainPool ((s.modPath d v fun p => { p with pool := p.pool.erase e }).performFrame d v e.1 e.2) d v k

/-! ## Receiving (R261 to R264, R269) -/

/-- A frame is discarded and counted under its reason (Table 7.10). -/
def State.zrtDiscard (s : State) (v reason : Nat) (src : Word32) : State :=
  (s.incSat (Fld.CND_ZRT_DISCARD_COUNT reason) 1).raise (srcZrt v) wholeDevice clsInfo 0x4005 0 [w reason, src]

def isCloseBody : ZrtBody → Bool
  | .close _ _ _ _ => true
  | .closeAck _ _ _ _ => true
  | _ => false
def isOpenBody : ZrtBody → Bool
  | .opening _ _ => true
  | .openAck _ _ => true
  | _ => false
def isDataBody : ZrtBody → Bool
  | .data _ => true
  | _ => false

/-- The first check of Table 7.10, up to the epoch, that a frame received at vent `v` fails.  OPEN and OPEN_ACK pass the check of the epoch
(DEDUCED: they carry the epoch that is to be, R266 has the receiver take the larger of it and its own, and Table 7.9 lets it be "accepted
under R266"; a check against the old one would keep two sides whose epochs differ apart for good).  An epoch that the peer has closed is
current no more (R267). -/
def State.zrtCheck (s : State) (v : Nat) (f : ZrtFrame) : Option Nat :=
  let p := s.path f.src v
  if !f.sumOk then some 0
  else if !f.versionOk then some 1
  else if f.group ≠ s.getF Fld.CND_ZRT_GROUP_TAG then some 2
  else if f.dst ≠ s.ownDev ∨ !s.flag Fld.TOP_DEVNUM_VALID then some 3
  else if !(p.valid && p.rvent == f.svent && f.rvent == v) then some 4
  else if !isCloseBody f.body && !isOpenBody f.body && (f.epoch != p.epoch || p.shut) then some 5
  else none

/-- Rate cut on an ECN echo (R264). -/
def Path.echo (p : Path) (now rateMin : Nat) : Path :=
  let p1 := { p with echoSeen := true }
  if p.srtt ≤ now - p.lastCut then
    let alpha := p.alpha + (65536 - p.alpha) / 16
    { p1 with alpha, rate := max rateMin (p.rate * (131072 - alpha) / 131072), lastCut := now }
  else p1

/-- What ACK_PSN, ECN_ECHO and TS_ECHO of a received frame do (R263, R264). -/
def State.ackSeen (s : State) (d v : Nat) (f : ZrtFrame) : State :=
  let p := s.path d v
  let gone := p.unacked.filter fun u => serialLe u.psn f.ackPsn
  let p1 := if f.ecnEcho then p.echo s.time (s.getF Fld.CND_ZRT_RATE_RATE_MIN) else p
  if gone.isEmpty then s.setPath d v p1
  else
    let sample := (s.time % 2 ^ 32 + 2 ^ 32 - f.tsEcho) % 2 ^ 32
    let p2 := if gone.any Unacked.resent then p1
      else if p1.measured then
        let diff := if p1.srtt ≤ sample then sample - p1.srtt else p1.srtt - sample
        { p1 with srtt := (7 * p1.srtt + sample) / 8, rttvar := (3 * p1.rttvar + diff) / 4 }
      else { p1 with srtt := sample, rttvar := sample / 2, measured := true }
    s.setPath d v { p2 with
      unacked := p2.unacked.filter fun u => !serialLe u.psn f.ackPsn
      again := p2.again.filter fun e => !serialLe e.1 f.ackPsn
      expiries := 0, lastAckAdvance := s.time, rto := rtoOf s p2 }

/-- The frames below the highest SACKed PSN that no block covers are sent again, each at most once per SRTT (R263) and spaced by the rate
(R264). -/
def State.resendGaps (s : State) (d v : Nat) (sacks : List (Nat × Nat)) : State :=
  match sacks with
  | [] => s
  | b :: t =>
    let top := t.foldl (fun m e => if serialLe m e.2 then e.2 else m) b.2
    let p := s.path d v
    let missing (u : Unacked) : Bool :=
      serialLe u.psn top && u.psn != top && !(sacks.any fun e => serialLe e.1 u.psn && serialLe u.psn e.2) &&
      (!u.resent || decide (u.sentAt + p.srtt ≤ s.time)) && !(p.again.any fun e => e.1 == u.psn)
    let gaps := (p.unacked.filter missing).map fun u => (u.psn, false)
    (s.modPath d v fun p => { p with again := p.again ++ gaps }).pumpAgain d v (p.again.length + gaps.length)

/-- A DATA frame that passed the checks up to the epoch. -/
def State.dataArrives (s : State) (v : Nat) (f : ZrtFrame) (segs : List ZrtSeg) : State :=
  let d := f.src
  if (s.path d v).state ≠ stUp then (s.zrtDiscard v 5 (w d)).sendOpen d v
  else
    let s1 := if f.ce then (s.incF Fld.CND_ZRT_CE_COUNT 1).modPath d v fun p => { p with ceSeen := true } else s
    let p := s1.path d v
    if f.psn = serialSucc p.rxApplied then
      let s2 := s1.performFrame d v f.psn segs
      let s3 := s2.drainPool d v p.pool.length
      let q := s3.path d v
      if f.ackNow ∨ s3.getF Fld.CND_ZRT_ACK_ACK_FRAMES ≤ q.sinceAck then s3.sendAck d v
      else s3.modPath d v fun p => { p with ackDue := p.ackDue <|> some (s.time + s.getF Fld.CND_ZRT_ACK_ACK_DELAY * 100) }
    else if serialLe f.psn p.rxApplied || p.pool.any fun e => e.1 == f.psn then (s1.zrtDiscard v 7 (w d)).sendAck d v
    else
      let ahead := (f.psn + 2 ^ 32 - p.rxApplied) % 2 ^ 32
      let used := (s1.rmo.paths.map fun (e : Nat × Path) => e.2.pool.length).foldl (· + ·) 0
      if ahead ≤ p.window ∧ used < s1.getF Fld.CND_ZRT_POOL_SLOTS then
        let lower (e : Nat × List ZrtSeg) : Bool := serialLe e.1 f.psn
        (s1.modPath d v fun p => { p with
          pool := (p.pool.filter lower) ++ [(f.psn, segs)] ++ p.pool.filter fun e => !lower e }).sendAck d v
      else s1.zrtDiscard v 6 (w d)

/-- A ZRT frame received at a vent. -/
def State.zrtReceive (s : State) (v : Nat) (f : ZrtFrame) : State :=
  if !s.zrtOn then s
  else
    match s.zrtCheck v f with
    | some r =>
      let s1 := s.zrtDiscard v r (if r ≤ 1 then 0xFFFFFFFF else w f.src)
      -- R265: DATA for a path that is not UP is answered with OPEN, whatever its epoch
      if r = 5 ∧ isDataBody f.body ∧ (s.path f.src v).state ≠ stUp then s1.sendOpen f.src v else s1
    | none =>
      let d := f.src
      let s0 := s.modPath d v fun p => { p with tsEcho := f.ts }
      let cur := f.epoch == (s0.path d v).epoch && (s0.path d v).state == stUp
      let s1 := if cur then (s0.ackSeen d v f).trimLate else s0
      match f.body with
      | .data segs => s1.dataArrives v f segs
      | .ack sacks => if cur then s1.resendGaps d v sacks else s1
      | .opening boot e =>
        let s2 := s1.learnBoot d v boot
        let epoch := max e (((s2.path d v).epoch + 1) % 2 ^ 32)
        let s3 := s2.pathUp d v epoch
        s3.zrtPush d v 0 false false false (.openAck (s3.getF Fld.CND_ZRT_BOOT_BOOT_ID) epoch)
      | .openAck boot e =>
        if (s1.path d v).state = stUp ∧ (s1.path d v).epoch = e then s1
        else (s1.learnBoot d v boot).pathUp d v e
      | .close sv rv e rx =>
        -- the closed path is named from the sender's side: its vent `sv`, ours `rv`
        -- a path that is UP in that epoch stops performing and sending in it, and stays UP until it opens again
        let s2 := if (s1.path d rv).usable && (s1.path d rv).rvent == sv && (s1.path d rv).epoch == e then
            (s1.closeEpoch d rv).modPath d rv fun p => { p with shut := true }
          else s1
        match s2.rmo.closing.find? fun k => k.dev == d && k.vent == rv && k.epoch == e with
        | none => s2
        | some k =>
          let s3 := if k.settled then s2 else s2.resendAfter k rx
          let same (x : Closing) : Bool := x.dev == d && x.vent == rv && x.epoch == e
          ({ s3 with rmo := { s3.rmo with closing := s3.rmo.closing.filter fun x => !same x } }).zrtPush d v 0 false false false
            (.closeAck sv rv e k.rxApplied)
      | .closeAck sv _ e rx =>
        match s1.rmo.closing.find? fun k => k.dev == d && k.vent == sv && k.epoch == e with
        | none => s1
        | some k => if k.settled then s1 else s1.resendAfter k rx
      | .probe => s1.zrtPush d v 0 false false false .probeReply
      | .probeReply => s1

/-- A received ZRT frame of one TYPE: what the frame received does, where its TYPE is the command's. -/
def zrtFrameOf (ok : ZrtBody → Bool) (v : Nat) (f : ZrtFrame) (s : State) : Host.Outcome State Fault Refusal :=
  if 16 ≤ v then .fault (.noSuchUnit v)
  else if 256 ≤ f.src then .fault (.noSuchUnit f.src)
  else if ok f.body then .next (s.zrtReceive v f) else .next s

def execZrtData (v : Nat) (f : ZrtFrame) (s : State) : Host.Outcome State Fault Refusal := live s <|
  zrtFrameOf (fun b => match b with | .data _ => true | _ => false) v f s
def execZrtAck (v : Nat) (f : ZrtFrame) (s : State) : Host.Outcome State Fault Refusal := live s <|
  zrtFrameOf (fun b => match b with | .ack _ => true | _ => false) v f s
def execZrtOpen (v : Nat) (f : ZrtFrame) (s : State) : Host.Outcome State Fault Refusal := live s <|
  zrtFrameOf (fun b => match b with | .opening _ _ => true | _ => false) v f s
def execZrtOpenAck (v : Nat) (f : ZrtFrame) (s : State) : Host.Outcome State Fault Refusal := live s <|
  zrtFrameOf (fun b => match b with | .openAck _ _ => true | _ => false) v f s
def execZrtClose (v : Nat) (f : ZrtFrame) (s : State) : Host.Outcome State Fault Refusal := live s <|
  zrtFrameOf (fun b => match b with | .close _ _ _ _ => true | _ => false) v f s
def execZrtCloseAck (v : Nat) (f : ZrtFrame) (s : State) : Host.Outcome State Fault Refusal := live s <|
  zrtFrameOf (fun b => match b with | .closeAck _ _ _ _ => true | _ => false) v f s
def execZrtProbe (v : Nat) (f : ZrtFrame) (s : State) : Host.Outcome State Fault Refusal := live s <|
  zrtFrameOf (fun b => match b with | .probe => true | _ => false) v f s
def execZrtProbeReply (v : Nat) (f : ZrtFrame) (s : State) : Host.Outcome State Fault Refusal := live s <|
  zrtFrameOf (fun b => match b with | .probeReply => true | _ => false) v f s

/-! ## Timers (R262 to R265) -/

/-- A command on a path. -/
def onPath (d v : Nat) (f : State → State) (s : State) : Host.Outcome State Fault Refusal :=
  if 256 ≤ d then .fault (.noSuchUnit d) else if 16 ≤ v then .fault (.noSuchUnit v) else .next (f s)

/-- RTO_EXPIRY (R263, R264, R265): no ACK_PSN has advanced for one RTO while frames are unacknowledged; before that nothing happens. -/
def execRtoExpiry (d v : Nat) (s : State) : Host.Outcome State Fault Refusal := live s <|
  onPath d v (fun s =>
    let p := s.path d v
    if p.state ≠ stUp then s
    else
      match p.unacked with
      | [] => s
      | u :: _ =>
        if s.time < p.lastAckAdvance + p.rto then s
        else if s.getF Fld.CND_ZRT_LIMITS_RETRY_MAX ≤ p.expiries + 1 then s.pathStops d v stDown 1
        else
          let s1 := s.modPath d v fun p => { p with
            expiries := p.expiries + 1
            lastAckAdvance := s.time
            again := (u.psn, true) :: p.again.filter fun e => e.1 != u.psn
            rto := min (2 * p.rto) (rtoMax s)
            rate := max (s.getF Fld.CND_ZRT_RATE_RATE_MIN) (p.rate / 2) }
          s1.pumpAgain d v 1) s

/-- ACK_DELAY_EXPIRY (R262): ACK_DELAY has passed since a frame that no acknowledgement covers; before that nothing happens. -/
def execAckDelayExpiry (d v : Nat) (s : State) : Host.Outcome State Fault Refusal := live s <|
  onPath d v (fun s => if (s.path d v).state = stUp ∧ ((s.path d v).ackDue.any fun t => decide (t ≤ s.time)) then s.sendAck d v else s) s

/-- RATE_PERIOD_TICK (R264). -/
def execRatePeriodTick (d v : Nat) (s : State) : Host.Outcome State Fault Refusal := live s <|
  onPath d v (fun s =>
    let p := s.path d v
    if p.state ≠ stUp then s
    else if p.echoSeen then s.setPath d v { p with echoSeen := false }
    else s.setPath d v { p with
      alpha := p.alpha * 15 / 16
      rate := min (s.lineRate d v) (p.rate + s.getF Fld.CND_ZRT_RATE_RATE_STEP * 100) }) s

/-- PROBE_INTERVAL_TICK (R265): a path that is OPENING or DOWN sends OPEN. -/
def execProbeIntervalTick (d v : Nat) (s : State) : Host.Outcome State Fault Refusal := live s <|
  onPath d v (fun s =>
    let p := s.path d v
    if s.zrtOn && p.valid && (p.state == stOpening || p.state == stDown) then s.sendOpen d v else s) s

/-- PATH_IDLE_PROBE (R265). -/
def execPathIdleProbe (d v : Nat) (s : State) : Host.Outcome State Fault Refusal := live s <|
  onPath d v (fun s =>
    let p := s.path d v
    if s.zrtOn && p.valid && p.state == stUp && p.unacked.isEmpty && p.sendq.isEmpty then s.zrtPush d v 0 false false false .probe
    else s) s

/-! ## Path entries (R254, R265) -/

/-- Physical address of a path entry. -/
def State.pathAddr (s : State) (d v : Nat) : Nat := s.getF Fld.CND_ZRT_PATH_BASE_BASE * 2 ^ 18 + (d * 16 + v) * 64

/-- The path that an entry of the table configures, in state OPENING; what the engine kept of an earlier epoch is the
table's. -/
def State.loadPath (s : State) (d v : Nat) : Path :=
  let e := readBytes s.mem.hbm (s.pathAddr d v) 64
  let f (o n : Nat) : Nat := ofLe ((e.drop o).take n)
  { Path.closed with
    valid := true, ipv6 := bits (f 0 1) 1 1 == 1, jumbo := bits (f 0 1) 2 1 == 1, ecn := bits (f 0 1) 3 1 == 1, rvent := bits (f 0 1) 4 4,
    window := f 2 2, port := f 4 2, ip := (e.drop 8).take 16, state := stOpening, epoch := f 0x18 4, peerBoot := f 0x1C 4,
    rto := rtoInit s, rxApplied := psnNone }

/-- Write the live fields of a path back to its entry. -/
def State.storePath (s : State) (d v : Nat) : State :=
  let p := s.path d v
  let a := s.pathAddr d v
  let acked := match p.unacked with
    | u :: _ => (u.psn + 2 ^ 32 - 1) % 2 ^ 32
    | [] => (p.txNext + 2 ^ 32 - 1) % 2 ^ 32
  let s1 := s.hbmWritePhys (a + 1) (toLe 1 p.state)
  s1.hbmWritePhys (a + 0x18) (toLe 4 p.epoch ++ toLe 4 p.peerBoot ++ toLe 4 p.txNext ++ toLe 4 acked ++ toLe 4 p.rxApplied ++
    toLe 4 p.srtt ++ toLe 4 p.rate ++ toLe 4 p.retx)

/-- PATH_ENTRY_VALID: an entry whose VALID bit has been set opens. -/
def State.pathValid (s : State) (d v : Nat) : State :=
  if (s.path d v).valid then s
  else if bits ((readBytes s.mem.hbm (s.pathAddr d v) 1).headD 0).toNat 0 1 = 0 then s
  else s.setPath d v (s.loadPath d v)
def execPathEntryValid (d v : Nat) (s : State) : Host.Outcome State Fault Refusal := live s <| onPath d v (fun s => s.pathValid d v) s

/-- PATH_ENTRY_INVALID: the path closes, and what is outstanding on it migrates under R267. -/
def State.pathInvalid (s : State) (d v : Nat) : State :=
  let p := s.path d v
  if !p.valid then s
  else
    let was := !s.peerUnreachable d
    let s1 := if p.state = stUp then s.pathStops d v stClosed 2 else (s.modPath d v fun p => { p with state := stClosed }).peerLost d v was
    (s1.storePath d v).modPath d v fun p => { p with valid := false }
def execPathEntryInvalid (d v : Nat) (s : State) : Host.Outcome State Fault Refusal := live s <| onPath d v (fun s => s.pathInvalid d v) s

end Sys2Proof.Machine
end

