-- ==== Sys2Proof/Machine/Plumes.lean ====
section
/-! DEFINITION. Plume operations: the commands of a plume's program, of its slot registers, and what arrives from the ring
(R274 to R299, R302, R312, R347). -/
namespace Sys2Proof.Machine

/-! ## Runs -/

def State.runAt (s : State) (k ix : Nat) : Option PlmRun := (s.plume k).runs.find? fun r => r.ix == ix
/-- Replace an operation that runs. -/
def State.putRun (s : State) (k : Nat) (r : PlmRun) : State :=
  let upd (x : PlmRun) : PlmRun := if x.ix = r.ix ∧ x.step = r.step then r else x
  s.modPlume k fun p => { p with runs := p.runs.map upd }
/-- Note the first bucket that poisoned data affects (R299). -/
def PlmRun.poisoned (r : PlmRun) (b : Nat) (on : Bool) : PlmRun := if on && r.poison.isNone then { r with poison := some b } else r
def PlmRun.add (r : PlmRun) (b c n : Nat) : PlmRun := { r with got := r.got ++ [(b, c, n)] }
def PlmRun.decision (r : PlmRun) (b : Nat) : Option Bool := (r.decided.find? fun e => e.1 == b).map Prod.snd
/-- The numeric flags of a list of results. -/
def flagsOf {α : Type} (rs : List (α × Word32)) : Word32 := rs.foldl (fun f e => f ||| e.2) 0
/-- Flags of plume work go to the owner's bank (R78, R277); where no reducer is at work there is no array to name (DESIGN CHOICE). -/
def State.plmFlags (s : State) (k : Nat) (larray : Option Nat) (f : Word32) : State :=
  s.numFlags (srcPlume (k / 16)) (s.plmOwner k) larray 5 s.time f

/-- The reducers that are mapped to an array in service (R277). -/
def State.mappedReducers (s : State) (k : Nat) : List Nat :=
  (s.plume k).desc.reducers.filter fun l => match s.physOf (s.plmOwner k) l with
    | some n => s.arrState n != stRetired
    | none => false

/-- The next reducer in round-robin order. -/
def State.nextReducer (s : State) (k : Nat) : Nat × State :=
  let rs := s.mappedReducers k
  let t := (s.plume k).turn
  (rs.getD (t % max 1 rs.length) 0, s.modPlume k fun p => { p with turn := t + 1 })

/-! ## Elements -/

/-- The elements of `n` values of a format at a partition-relative address, and the first and last element of each
poisoned line among them. -/
def State.plmRead (s : State) (p a fmt n : Nat) : List Nat × List Nat :=
  let wb := fmtBytes fmt
  let len := n * wb
  (toElems wb n (s.hbmRead p a len), ((lineEnds a len (s.localPoisons p a len)).map fun o => o / wb).dedup)
/-- Write elements, with the poisoned ones among them. -/
def State.plmWrite (s : State) (p a fmt : Nat) (vs marks : List Nat) : State :=
  let wb := fmtBytes fmt
  (s.hbmWrite p a (vs.flatMap fun v => toLe wb v)).localSetPoison p a (marks.map fun i => i * wb)

/-- Convert an element exactly, or with one rounding to nearest even (R279). -/
def plmConvert (src dst x : Nat) : Nat × Word32 := if src = dst then (x, 0) else convElem dst .rne 0 false false (elemValue src x)

def elemFinite (fmt x : Nat) : Bool := Num.isFinite (elemValue fmt x)

/-- The better of two reports: the smaller element, and for one element the smaller KIND, the earlier report winning
(R289). -/
def betterReport (a b : Option PlmReport) : Option PlmReport :=
  match a, b with
  | none, x => x
  | x, none => x
  | some x, some y => if y.elem < x.elem ∨ (y.elem = x.elem ∧ y.kind < x.kind) then some y else some x

/-- The first index at which a list is true. -/
def firstTrue (l : List Bool) : Option Nat := l.findIdx? fun b => b

/-! ## Segments (R278, Table 8.6) -/

def PlmTag.toBytes (t : PlmTag) : List Byte :=
  toLe 4 t.id ++ toLe 1 t.kind ++ toLe 1 t.opix ++ toLe 2 t.bucket ++ toLe 8 t.step ++ toLe 8 t.first ++ toLe 4 t.count ++
  toLe 2 t.hops ++ toLe 2 t.chunk ++ toLe 8 t.version ++ List.replicate 24 0
def PlmTag.ofBytes (l : List Byte) : PlmTag :=
  { id := fieldAt l 0 4, kind := fieldAt l 4 1, opix := fieldAt l 5 1, bucket := fieldAt l 6 2, step := fieldAt l 8 8,
    first := fieldAt l 0x10 8, count := fieldAt l 0x18 4, hops := fieldAt l 0x1C 2, chunk := fieldAt l 0x1E 2,
    version := fieldAt l 0x20 8 }

/-- Bytes of a staging slot, and offsets of the slots and areas from STAGING. -/
def PlmDesc.slotBytes (d : PlmDesc) : Nat := 64 + 2 ^ d.log2seg
def PlmDesc.slotOff (d : PlmDesc) (j i : Nat) : Nat := d.staging + (j * d.nslot + i) * d.slotBytes
def PlmDesc.requestOff (d : PlmDesc) (pos : Nat) : Nat := d.staging + d.ncnd * d.nslot * d.slotBytes + pos * 64
def PlmDesc.statusOff (d : PlmDesc) (pos : Nat) : Nat := d.requestOff d.npos + pos * 64

/-- Queue a segment for the downstream neighbour: its PUT, and the increment of ARRIVE on the same conduit. -/
def State.plmSegment (s : State) (k : Nat) (r : PlmRun) (t : PlmTag) (fmt : Nat) (vs marks : List Nat) : State × PlmRun :=
  let d := (s.plume k).desc
  let wb := fmtBytes fmt
  let data := t.toBytes ++ vs.flatMap fun v => toLe wb v
  let j := r.seg % d.ncnd
  let i := r.seg / d.ncnd % d.nslot
  let dst := d.at' d.down
  let put : PlmEmit := { cnd := j, seg := true, ix := r.ix, use := .msg, opc := 0, fabric := fabAddr dst (d.slotOff j i), loc := 0,
                         len := data.length, amount := 0, data := some (data, marks.map fun m => 64 + m * wb) }
  let inc : PlmEmit := { cnd := j, seg := false, ix := r.ix, use := .msg, opc := 0x10, fabric := fabGey dst (d.geyBase + 8 + j), loc := 0,
                         len := 0, amount := 1, data := none }
  (s.modPlume k fun p => { p with segs := p.segs ++ [put, inc] }, { r with seg := r.seg + 1 })

/-- Cut elements `lo` to `hi` into pieces of at most `m`. -/
def cutRange (lo hi m : Nat) : List (Nat × Nat) :=
  (List.range (ceilDiv (hi - lo) m)).map fun i => (lo + i * m, min m (hi - lo - i * m))
/-- Elements of a format in a segment. -/
def PlmDesc.perSeg (d : PlmDesc) (fmt : Nat) : Nat := 2 ^ d.log2seg / fmtBytes fmt

def PlmDesc.tag (d : PlmDesc) (r : PlmRun) (kind b c first count hops version : Nat) : PlmTag :=
  { id := d.id, kind, opix := r.ix, bucket := b, step := r.step.toNat, first, count, hops, chunk := c, version }

/-- Send a chunk out of memory in segments of a kind. -/
def State.plmSendChunk (s : State) (k : Nat) (r : PlmRun) (kind b c base rel fmt version : Nat) : State × PlmRun :=
  let d := (s.plume k).desc
  let p := s.plmOwner k
  (cutRange (d.lo b c) (d.hi b c) (d.perSeg fmt)).foldl (fun x e =>
    let (vs, marks) := x.1.plmRead p (base + (e.1 - rel) * fmtBytes fmt) fmt e.2
    x.1.plmSegment k (x.2.poisoned b !marks.isEmpty) (d.tag x.2 kind b c e.1 e.2 0 version) fmt vs marks) (s, r)

/-- Return a slot's credit to the upstream neighbour. -/
def State.plmCredit (s : State) (k j : Nat) : State := s.plmInc k (s.plume k).desc.up (24 + j) j .msg

/-! ## Bucket records (R287, R289, Table 8.7) -/

/-- The position status records of a bucket. -/
def Plume.statusOf (p : Plume) (b : Nat) : List PlmStatus := p.status.filter fun x => x.bucket == b

/-- The late log records of a bucket, each with its PLM_LATE (R287). -/
def State.plmLateRecords (s : State) (k : Nat) (r : PlmRun) (b : Nat) (late : List Nat) : State :=
  let d := (s.plume k).desc
  let p := s.plmOwner k
  let pol := if d.carry then 1 else 0
  late.foldl (fun s q =>
    (s.logRecord 0x04 p (srcPlume (k / 16))
      (toLe 1 k ++ toLe 1 pol ++ toLe 2 q ++ toLe 1 (d.at' q).1 ++ toLe 1 0 ++ toLe 2 b ++ toLe 4 d.id ++ toLe 4 0)).raise
      (srcPlume (k / 16)) p clsInfo 0x5001 0 ([w k] ++ w2 r.step ++ [w b, w q, w pol])) s

/-- Write a bucket's record once the status records of all positions are there. -/
def State.plmBucketRecord (s : State) (k : Nat) (r : PlmRun) (b : Nat) : State × PlmRun :=
  let pl := s.plume k
  let d := pl.desc
  let p := s.plmOwner k
  let xs := pl.statusOf b
  if r.recorded.contains b || xs.length < d.npos then (s, r)
  else
    let late := (List.range d.npos).filter fun q => xs.any fun x => x.pos == q && !x.taken
    let rep := xs.foldl (fun a x => betterReport a x.rep) none
    let s1 := s.plmLateRecords k r b late
    let taken := (r.decision b).getD false
    let kind := (rep.map PlmReport.kind).getD 0
    let pos := (rep.map PlmReport.pos).getD 0
    let dev := match rep with | some x => (d.at' x.pos).1 | none => 0
    let flags := 1 + (if rep.isSome then 2 else 0) + kind * 4 + (if taken then 16 else 0)
    let body := toLe 8 r.step.toNat ++ toLe 1 flags ++ toLe 1 dev ++ toLe 2 late.length ++ toLe 2 pos ++ toLe 2 0 ++
      toLe 8 ((rep.map PlmReport.elem).getD 0) ++ toLe 8 s1.time
    let s2 := (s1.hbmWrite p (d.bstatus + b * 32) body).geyRelease (88 + k / 16) (d.geyBase + 3) 1
    let s3 := s2.modPlume k fun q => { q with status := q.status.filter fun x => x.bucket != b }
    let s4 := match rep with
      | some x => (s3.incSat (Fld.PLM_COUNTS_NONFINITE k) 1).raise (srcPlume (k / 16)) p clsInfo 0x5002 0
          ([w k] ++ w2 r.step ++ [w b, w x.kind, w dev] ++ w2 (dw x.elem))
      | none => s3
    (s4, { r with recorded := r.recorded ++ [b], nonfin := r.nonfin + if rep.isSome then 1 else 0 })

/-- This position's status record for a bucket (R289): to every other position, whose STATUS geyser counts it. -/
def State.plmSendStatus (s : State) (k : Nat) (r : PlmRun) (b : Nat) : State × PlmRun :=
  let d := (s.plume k).desc
  let x : PlmStatus := ⟨b, d.mypos, (r.decision b).getD false, (r.reports.find? fun e => e.1 == b).map Prod.snd⟩
  let s1 := ((List.range d.npos).filter fun q => q != d.mypos).foldl (fun s q =>
    let (l, s) := s.drawBytes 64
    ((s.plmCtl1 k { cnd := 0, seg := false, ix := plmNone, use := .msg, opc := 0, fabric := fabAddr (d.at' q) (d.statusOff d.mypos),
                    loc := 0, len := 64, amount := 0, data := some (l, []) }).plmInc k q 2 0 .msg).plmSend k (d.at' q) (.status x)) s
  (s1.modPlume k fun p => { p with status := p.status ++ [x] }).plmBucketRecord k r b

/-! ## Reduction (R279, R282, R285, R286) -/

/-- Results of the owned chunk, from the accumulated elements on: converted, written at OUT, and for AR sent on. -/
def State.plmResult (s : State) (k : Nat) (r : PlmRun) (b first : Nat) (acc marks : List Nat) (rep : Option PlmReport) (l : Nat) :
    State × PlmRun :=
  let d := (s.plume k).desc
  let p := s.plmOwner k
  let x := d.bucket b
  let rs := acc.map fun a => plmConvert d.carryFmt d.outFmt a
  let vs := rs.map Prod.fst
  let ovf := firstTrue ((List.zip acc vs).map fun e => elemFinite d.carryFmt e.1 && !elemFinite d.outFmt e.2)
  let rep' := betterReport rep (ovf.map fun i => ⟨3, first + i, d.mypos⟩)
  let s1 := (s.plmFlags k (some l) (flagsOf rs)).plmWrite p
    (x.out + first * fmtBytes d.outFmt) d.outFmt vs marks
  let old := (r.reports.find? fun e => e.1 == b).map Prod.snd
  let reports := match betterReport old rep' with
    | some z => (r.reports.filter fun e => e.1 != b) ++ [(b, z)]
    | none => r.reports
  let r1 := ({ r with reports }.add b d.mypos acc.length).poisoned b !marks.isEmpty
  let (s2, r2) := if (d.op r.ix).op = 4 ∧ 1 < d.npos then
      s1.plmSegment k r1 (d.tag r1 3 b d.mypos first vs.length 0 0) d.outFmt vs marks
    else (s1, r1)
  if r2.have' b d.mypos = d.size b d.mypos then s2.plmSendStatus k r2 b else (s2, r2)

/-- This position's own contribution to elements of a bucket, in CARRY_FMT, +0 where it is late, the poisoned ones, its
non-finite report, and the flags of its conversion. -/
def State.plmOwn (s : State) (k : Nat) (r : PlmRun) (b first n : Nat) : List Nat × List Nat × Option PlmReport × Word32 :=
  let d := (s.plume k).desc
  match r.decision b with
  | some true =>
    let (vs, marks) := s.plmRead (s.plmOwner k) ((d.bucket b).contrib + first * fmtBytes d.elemFmt) d.elemFmt n
    let xs := vs.map (plmConvert d.elemFmt d.carryFmt)
    (xs.map Prod.fst, marks, (firstTrue (vs.map fun v => !elemFinite d.elemFmt v)).map fun i => ⟨1, first + i, d.mypos⟩, flagsOf xs)
  | _ => (List.replicate n 0, [], none, 0)

/-- A partial goes to the downstream neighbour, and with it the report so far (R289), for which the tag has no field. -/
def State.plmPartialOut (s : State) (k : Nat) (r : PlmRun) (t : PlmTag) (vs marks : List Nat) (rep : Option PlmReport) : State × PlmRun :=
  let d := (s.plume k).desc
  let s1 := match rep with
    | some x => s.plmSend k (d.at' d.down) (.report t x)
    | none => s
  s1.plmSegment k r t d.carryFmt vs marks

/-- After the decision on a bucket: the partials that begin here go out, or with one position are the result. -/
def State.plmBegin (s : State) (k : Nat) (r : PlmRun) (b : Nat) : State × PlmRun :=
  let d := (s.plume k).desc
  let c := d.up
  let x := (cutRange (d.lo b c) (d.hi b c) (d.perSeg d.carryFmt)).foldl (fun (x : State × PlmRun) e =>
    let (vs, marks, rep, f) := x.1.plmOwn k x.2 b e.1 e.2
    let r := x.2.poisoned b !marks.isEmpty
    if d.npos = 1 then
      let (l, s1) := x.1.nextReducer k
      (s1.plmFlags k (some l) f).plmResult k r b e.1 vs marks rep l
    else (x.1.plmFlags k none f).plmPartialOut k r (d.tag r 1 b c e.1 e.2 1 0) vs marks rep) (s, r)
  if d.size b d.mypos = 0 then x.1.plmSendStatus k x.2 b else x

/-- The one decision on a bucket of an RS or AR (R285). -/
def State.plmDecide (s : State) (k : Nat) (r : PlmRun) (b : Nat) (taken : Bool) : State × PlmRun :=
  let d := (s.plume k).desc
  let s1 := if taken then s else (s.incSat (Fld.PLM_COUNTS_LATE k) 1).incSat (Fld.PLM_COUNTS_LATE_TOTAL k) 1
  let s2 := s1.modPlume k fun p => { p with
    carry := if taken || !d.carry then p.carry.filter fun x => x != b else (p.carry.filter fun x => x != b) ++ [b] }
  s2.plmBegin k { r with decided := r.decided ++ [(b, taken)], late := r.late + if taken then 0 else 1 } b

/-- Whether a step-scaled geyser condition holds (Tables 8.3 and 8.5). -/
def State.plmReached (s : State) (k : Nat) (r : PlmRun) (g : Nat) (value : Word64) : Bool :=
  decide ((s.plume k).threshold r value ≤ (s.geyCount g).toNat)

/-- The replay late list of a partition names a bucket of a step and slot (R347): `n` entries are looked at. -/
def State.replayLate (s : State) (p k step b : Nat) : Nat → Nat → Bool
  | 0, _ => false
  | n + 1, a =>
    let e := s.hbmRead p a 16
    if fieldAt e 0 8 = 2 ^ 64 - 1 then false
    else if fieldAt e 0 8 = step ∧ fieldAt e 8 1 = k ∧ fieldAt e 10 2 = b then true
    else State.replayLate s p k step b n (a + 16)

/-- The deadline of the present step (R285). -/
def State.plmDeadline (s : State) (k : Nat) : Nat := (s.reg (Reg.PLM_STEP_T0 k)).toNat + (s.plume k).budget * 1000

/-- What decides a bucket now (R285): a contribution that was ready by the deadline, or the deadline once it has passed; in a replay the
late list of the log in place of deadlines (R287); an AR has no deadline.  A contribution that is ready at the very deadline is
taken (DESIGN CHOICE: both conditions hold at that moment). -/
def State.plmVerdict (s : State) (k : Nat) (r : PlmRun) (b : Nat) : Option Bool :=
  let pl := s.plume k
  let p := s.plmOwner k
  let since := (r.ready.find? fun e => e.1 == b).map Prod.snd
  if (pl.desc.op r.ix).op ≠ 1 then since.map fun _ => true
  else if s.flag (Fld.LOG_REPLAY_ENABLE p) then
    if s.replayLate p k r.step.toNat b 65536 (s.getF (Fld.LOG_REPLAY_BASE p) * 16) then some false else since.map fun _ => true
  else if pl.budget = 0 then since.map fun _ => true
  else match since with
    | some t => some (decide (t ≤ s.plmDeadline k))
    | none => if s.plmDeadline k ≤ s.time then some false else none

/-! ## Progress of an operation -/

/-- RS and AR: every bucket that can be decided now is. -/
def State.plmReduceProgress (s : State) (k : Nat) (r : PlmRun) : State × PlmRun :=
  ((s.plume k).desc.op r.ix).buckets.foldl (fun (x : State × PlmRun) b =>
    if (x.2.decision b).isSome then x
    else match x.1.plmVerdict k x.2 b with
      | some t => x.1.plmDecide k x.2 b t
      | none => x) (s, r)

/-- BCAST: the sender's buckets go out as they become ready. -/
def State.plmBcastProgress (s : State) (k : Nat) (r : PlmRun) : State × PlmRun :=
  let d := (s.plume k).desc
  let o := d.op r.ix
  let p := s.plmOwner k
  if fieldOf o.value 0 16 ≠ d.mypos then (s, r)
  else o.buckets.foldl (fun (x : State × PlmRun) b =>
    let y := d.bucket b
    if (x.2.decision b).isSome || !x.1.plmReached k x.2 y.gey (dw y.target) then x
    else
      let r0 := { x.2 with decided := x.2.decided ++ [(b, true)] }
      (List.range d.npos).foldl (fun (z : State × PlmRun) c =>
        (cutRange (d.lo b c) (d.hi b c) (d.perSeg d.outFmt)).foldl (fun (z : State × PlmRun) e =>
          let (vs, marks) := z.1.plmRead p (y.contrib + e.1 * fmtBytes d.elemFmt) d.elemFmt e.2
          let cs := vs.map (plmConvert d.elemFmt d.carryFmt)
          let xs := cs.map fun v => plmConvert d.carryFmt d.outFmt v.1
          let os := xs.map Prod.fst
          let r1 := (z.2.add b c e.2).poisoned b !marks.isEmpty
          let s1 := (z.1.plmFlags k none (flagsOf cs ||| flagsOf xs)).plmWrite p (y.out + e.1 * fmtBytes d.outFmt) d.outFmt os marks
          if d.npos = 1 then (s1, r1) else s1.plmSegment k r1 (d.tag r1 4 b c e.1 e.2 0 0) d.outFmt os marks) z) (x.1, r0)) (s, r)

/-- FLIP (R291): each bucket whose previous version has retired takes STEP as its current version. -/
def State.plmFlipProgress (s : State) (k : Nat) (r : PlmRun) : State × PlmRun :=
  ((s.plume k).desc.op r.ix).buckets.foldl (fun (x : State × PlmRun) b =>
    if x.2.recorded.contains b || x.1.vPrevValid k b then x
    else
      let s1 := ((x.1.vSet k b 8 8 (x.1.vCur k b)).vSet k b 0 8 x.2.step.toNat).vSet k b 0x10 1 3
      (s1.modPlume k fun p => { p with flips := Sparse.set natDefault p.flips b (Sparse.get natDefault p.flips b + 1) },
       { x.2 with recorded := x.2.recorded ++ [b] })) (s, r)

/-- Every chunk of every bucket of an operation is in place. -/
def PlmDesc.allIn (d : PlmDesc) (r : PlmRun) (skipOwn : Bool) : Bool :=
  ((d.op r.ix).buckets.all fun b => (List.range d.npos).all fun c => (skipOwn && c == d.mypos) || r.have' b c == d.size b c)

/-- Nothing of an operation waits to be sent. -/
def Plume.sentAll (p : Plume) (ix : Nat) : Bool := p.segs.all fun e => e.ix != ix

/-! ## PERMUTE (R296) -/

/-- The copies of a new position: for each bucket and array, the parts of its new chunk by old owner. -/
def State.permuteGets (s : State) (k : Nat) (r : PlmRun) (z : PlmReshard) : List PlmEmit :=
  let d := (s.plume k).desc
  let n' := z.ring.length
  let arrays : List (Nat × Nat × Nat × Nat × Bool) := (z.arrays.map fun a => (a.1, a.2.1, a.2.2.1, a.2.2.2, false)) ++
    if d.sharded then d.buckets.zipIdx.map fun e => (e.2, fmtBytes d.wfmt, e.1.home, e.1.home, true) else []
  if z.newPos = plmNone then []
  else arrays.flatMap fun a =>
    let b := a.1
    let wb := a.2.1
    let lo := chunkLo (d.bucket b).elems n' z.newPos
    let hi := chunkHi (d.bucket b).elems n' z.newPos
    (List.range d.npos).flatMap fun c =>
      let l := max lo (d.lo b c)
      let h := min hi (d.hi b c)
      if h ≤ l then []
      else
        let oldOff := if a.2.2.2.2 then l - d.lo b c else l
        let newOff := if a.2.2.2.2 then l - lo else l
        (cutRange 0 ((h - l) * wb) 16777216).map fun q =>
          { cnd := b % d.ncnd, seg := false, ix := r.ix, use := .permute r.ix b, opc := 1,
            fabric := fabAddr (z.sources.getD c (0, 0)) (a.2.2.1 + oldOff * wb + q.1), loc := a.2.2.2.1 + newOff * wb + q.1, len := q.2,
            amount := 0, data := none }

/-- Steps 3 to 6: the new ring and chunking, and the re-shard record. -/
def State.permuteEnd (s : State) (k : Nat) (r : PlmRun) (z : PlmReshard) : State :=
  let d := (s.plume k).desc
  let p := s.plmOwner k
  let s1 := (List.range d.buckets.length).foldl (fun s b =>
    ((s.vSet k b 0 8 r.step.toNat).vSet k b 0x10 1 0).hbmWrite p (s.vAddr k b + 0x20) (List.replicate 32 0)) s
  let n' := z.ring.length
  let body := toLe 4 z.id ++ toLe 2 d.npos ++ toLe 2 n' ++ toLe 2 z.newPos ++ toLe 6 0 ++
    z.ring.flatMap fun x => toLe 4 (x.1 + 256 * x.2)
  let s2 := (s1.logRecord 0x07 p (srcPlume (k / 16)) body).modPlume k fun q => { q with
    desc := { q.desc with npos := n', mypos := z.newPos, ring := z.ring }, carry := [], carryIn := [] }
  let s3 := ((s2.raise (srcPlume (k / 16)) p clsInfo 0x5005 0 [w k, w z.id, w d.npos, w n']).plmDone k r).reshardDone z.id
  (if z.newPos = plmNone then s3.setPlmState k plDone else s3).rebuddy d.id z.ring

/-- PERMUTE as far as it goes: a wrong RESHARD_ID ends it; when all have joined and every version has retired its copies
begin; when they are complete it ends. -/
def State.permuteProgress (s : State) (k : Nat) (r : PlmRun) (z : PlmReshard) : State :=
  let d := (s.plume k).desc
  let all := (d.ring ++ z.ring).dedup
  if r.copying then (if r.waiting = 0 then s.permuteEnd k r z else s.putRun k r)
  else if (all.all fun x => r.joined.contains x) && ((List.range d.buckets.length).all fun b => !s.vPrevValid k b) then
    let gets := s.permuteGets k r z
    let r1 := { r with copying := true, waiting := gets.length }
    let s1 := (s.putRun k r1).modPlume k fun p => { p with ctl := p.ctl ++ gets }
    if gets = [] then s1.permuteEnd k r1 z else s1
  else s.putRun k r

/-! ## ESCROW (R312) -/

/-- Bytes of an owned chunk in an escrow half. -/
def PlmDesc.escrowBytes (d : PlmDesc) (b : Nat) : Nat := ceilDiv (d.size b d.mypos * fmtBytes d.outFmt) 64 * 64

/-- The remote operations of an ESCROW: each chunk on the stream of its conduit, then the header on every one of those
streams. -/
def PlmDesc.escrowOps (d : PlmDesc) (r : PlmRun) : List PlmEmit :=
  let o := d.op r.ix
  let dst := d.at' (fieldOf o.value 0 16)
  let esize := 64 + (o.buckets.map d.escrowBytes).sum
  let base := o.addr + r.step.toNat % 2 * esize
  let header := toLe 8 r.step.toNat ++ toLe 4 d.id ++ toLe 2 d.mypos ++ toLe 2 o.first ++ toLe 2 o.count ++ toLe 2 1 ++ List.replicate 44 0
  let chunks := o.buckets.flatMap fun b =>
    let before := ((o.buckets.takeWhile fun x => x != b).map d.escrowBytes).sum
    let src := (d.bucket b).out + d.lo b d.mypos * fmtBytes d.outFmt
    (cutRange 0 (d.size b d.mypos * fmtBytes d.outFmt) 16777216).map fun q =>
      { cnd := b % d.ncnd, seg := false, ix := r.ix, use := .escrow r.ix, opc := 0, fabric := fabAddr dst (base + 64 + before + q.1),
        loc := src + q.1, len := q.2, amount := 0, data := none }
  let streams := (o.buckets.map fun b => b % d.ncnd).dedup
  chunks ++ streams.map fun j =>
    { cnd := j, seg := false, ix := r.ix, use := .escrow r.ix, opc := 0, fabric := fabAddr dst base, loc := 0, len := 64, amount := 0,
      data := some (header, []) }

/-! ## Gathers (R293, R294) -/

/-- Where an owner serves a version of its chunk from: the address of its first element. -/
def State.serveFrom (s : State) (k b version : Nat) : Option Nat :=
  let d := (s.plume k).desc
  let x := d.bucket b
  let lo := d.lo b d.mypos
  let home := if d.sharded then x.home else x.home + lo * fmtBytes d.wfmt
  if version = s.vCur k b then some (if s.vAtStage k b then x.stage + lo * fmtBytes d.wfmt else home)
  else if s.vPrevValid k b ∧ version = s.vPrev k b then some home
  else none

/-- Where a gathered chunk of a bucket goes. -/
def PlmDesc.gatherTo (d : PlmDesc) (o : PlmOp) (b c : Nat) : Nat :=
  (if d.sharded then o.addr else (d.bucket b).home) + d.lo b c * fmtBytes d.wfmt

/-- A gather ends with SHARD_VERSION (R293). -/
def State.plmVersionFail (s : State) (k : Nat) (r : PlmRun) (b c found : Nat) : State :=
  let o := (s.plume k).desc.op r.ix
  (s.raise (srcPlume (k / 16)) (s.plmOwner k) clsOperation 0x5004 0 ([w k, w b] ++ w2 o.value ++ w2 (dw found))).plmComplete k r psVersion
    found c b

/-- The chunks that a gather needs, and their requests: those marked STALE, or the whole bucket. -/
def State.plmGatherStart (s : State) (k : Nat) (r : PlmRun) : State × PlmRun :=
  let d := (s.plume k).desc
  let o := d.op r.ix
  let need : List (Nat × Nat) := o.buckets.flatMap fun b => ((List.range d.npos).filter fun c =>
    decide (0 < d.size b c) && (d.sharded || s.vStale k b c)).map fun c => (b, c)
  let s1 := (need.filter fun e => e.2 != d.mypos).foldl (fun s e =>
    let (l, s) := s.drawBytes 64
    (s.plmCtl1 k { cnd := e.2 % d.ncnd, seg := false, ix := r.ix, use := .msg, opc := 0, fabric := fabAddr (d.at' e.2) (d.requestOff d.mypos),
                   loc := 0, len := 64, amount := 0, data := some (l, []) }).plmSend k (d.at' e.2)
      (.request d.mypos e.1 e.2 o.value.toNat (d.gatherTo o e.1 e.2))) s
  (s1, { r with asked := need })

/-- A chunk that was asked for is in place. -/
def State.plmGathered (s : State) (k : Nat) (r : PlmRun) (b c : Nat) : State × PlmRun :=
  let d := (s.plume k).desc
  (if d.sharded then s else s.setStale k b c false,
   ({ r with asked := r.asked.filter fun e => e != (b, c) }).add b c (d.size b c))

/-- The owned chunks that a gather asks for are copied here. -/
def State.plmGatherOwn (s : State) (k : Nat) (r : PlmRun) : State × PlmRun × Option (Nat × Nat) :=
  let d := (s.plume k).desc
  let o := d.op r.ix
  let p := s.plmOwner k
  (r.asked.filter fun e => e.2 == d.mypos).foldl (fun (x : State × PlmRun × Option (Nat × Nat)) e =>
    match x.2.2, x.1.serveFrom k e.1 o.value.toNat with
    | some f, _ => (x.1, x.2.1, some f)
    | none, some a =>
      let (vs, marks) := x.1.plmRead p a d.wfmt (d.size e.1 e.2)
      let y := (x.1.plmWrite p (d.gatherTo o e.1 e.2) d.wfmt vs marks).plmGathered k (x.2.1.poisoned e.1 !marks.isEmpty) e.1 e.2
      (y.1, y.2, none)
    | none, none => (x.1, x.2.1, some (e.1, x.1.vCur k e.1))) (s, r, none)

/-! ## Starting and completing operations (R276) -/

/-- The next operation may start. -/
def State.plmMayStart (s : State) (k : Nat) : Bool :=
  let p := s.plume k
  let asyncOp (r : PlmRun) : Bool := (p.desc.op r.ix).flags % 2 == 1
  let o := p.desc.op p.next
  s.plmActive k && p.awaited.isEmpty && decide (p.next < p.desc.ops.length) && (p.runs.all asyncOp) &&
  (o.flags % 2 == 1 || p.runs.all fun r => (p.desc.op r.ix).op == 6 || r.step != s.reg (Reg.PLM_STEP k))

/-- PLM_STATUS.STATE and OPIX follow the operations that run: WAITING while only geysers or neighbours are waited for. -/
def State.plmSync (s : State) (k : Nat) : State :=
  if !s.plmActive k then s
  else
    let p := s.plume k
    let waits := !p.awaited.isEmpty || (!p.runs.isEmpty && p.runs.all fun r => (p.desc.op r.ix).op == 6 || (p.desc.op r.ix).op == 9)
    let s1 := match p.runs.getLast? with
      | some r => s.setF (Fld.PLM_STATUS_OPIX k) r.ix
      | none => s
    s1.setPlmState k (if waits then plWaiting else plRunning)

/-- An RS or AR clears DONE in its buckets' records as it starts. -/
def State.plmClearDone (s : State) (k : Nat) (o : PlmOp) : State :=
  let p := s.plmOwner k
  o.buckets.foldl (fun s b =>
    let a := (s.plume k).desc.bstatus + b * 32 + 8
    match s.hbmRead p a 1 with
    | [f] => s.hbmWrite p a [f &&& 0xFE]
    | _ => s) s

/-- The first operation of a step sets T0, and the budget and counts of the step (R276, R285). -/
def State.plmOpenStep (s : State) (k : Nat) : State :=
  if !(s.plume k).fresh then s
  else
    ((s.modPlume k fun p => { p with fresh := false, budget := s.getF (Fld.PLM_STEP_DEADLINE_BUDGET k), carryIn := p.carry }).setReg
      (Reg.PLM_STEP_T0 k) (dw s.time)).setFs [(Fld.PLM_COUNTS_LATE k, 0), (Fld.PLM_COUNTS_NONFINITE k, 0)]

/-- A position joins the PERMUTE that runs: a RESHARD_ID that differs ends the operation with DESC_INVALID (R296). -/
def State.plmRejoined (s : State) (k dev part id : Nat) : State :=
  match (s.plume k).runs.find? fun r => ((s.plume k).desc.op r.ix).op == 8 with
  | none => s
  | some r =>
    if some id = r.reshard.map PlmReshard.id then (s.putRun k { r with joined := (r.joined ++ [(dev, part)]).dedup }).plmWaits k
    else (s.reshardFailed r.reshard).plmComplete k r psInvalid 0 ((s.plume k).desc.posOf dev part) plmNone

/-- A position joins a re-shard: a join that comes before PERMUTE has started here is kept for it (R296). -/
def State.plmRejoin (s : State) (k dev part id : Nat) : State :=
  if (s.plume k).runs.any fun r => ((s.plume k).desc.op r.ix).op == 8 then s.plmRejoined k dev part id
  else s.modPlume k fun p => { p with rejoins := p.rejoins ++ [(dev, part, id)] }

/-- Start the operation at an index of the program, after which `next` is the next, with the re-shard descriptor that a PERMUTE
finds at its ADDR. -/
def State.plmStartOp (s : State) (k : Nat) (z : Option PlmReshard) (ix next : Nat) : State :=
  let s := s.plmOpenStep k
  let p := s.plume k
  let d := p.desc
  let o := d.op ix
  let r : PlmRun := { ix, step := s.reg (Reg.PLM_STEP k), tStart := s.time, seg := 0, late := 0, nonfin := 0, poison := none,
                      decided := [], reports := [], got := [], recorded := [], asked := [], waiting := 0, reshard := z,
                      joined := [d.at' d.mypos], missed := [], ready := [], copying := false }
  let ready := if o.reduces then (o.buckets.filter fun b => s.plmReached k r (d.bucket b).gey (dw (d.bucket b).target)).map fun b => (b, s.time)
    else []
  let r := { r with ready }
  let s1 := s.modPlume k fun p => { p with next, runs := p.runs ++ [r], waitFrom := s.time }
  let invalid := (o.op = 2 ∧ d.sharded) ∨ ((o.op = 1 ∨ o.op = 3 ∨ o.op = 4) ∧ s.mappedReducers k = [])
  if invalid then s1.plmComplete k r psInvalid 0 plmNone plmNone
  else
    match o.op with
    | 1 => s1.plmClearDone k o
    | 4 => s1.plmClearDone k o
    | 2 =>
      let x := o.buckets.foldl (fun (x : State × PlmRun) b =>
        match x.1.serveFrom k b (x.1.vCur k b) with
        | some a => if d.npos = 1 then x else x.1.plmSendChunk k x.2 2 b d.mypos a (d.lo b d.mypos) d.wfmt (x.1.vCur k b)
        | none => x) (s1, r)
      x.1.putRun k x.2
    | 3 =>
      let x := s1.plmGatherStart k r
      let y := x.1.plmGatherOwn k x.2
      match y.2.2 with
      | some (b, found) => y.1.plmVersionFail k y.2.1 b d.mypos found
      | none => y.1.putRun k y.2.1
    | 7 =>
      let ops := d.escrowOps r
      (s1.putRun k { r with waiting := ops.length }).modPlume k fun p => { p with ctl := p.ctl ++ ops }
    | 8 =>
      let s2 := ((d.ring ++ (z.map PlmReshard.ring).getD []).dedup.filter fun x => x != d.at' d.mypos).foldl (fun s x =>
        s.plmPut k x (.rejoin (d.at' d.mypos).1 (d.at' d.mypos).2 ((z.map PlmReshard.id).getD 0))) s1
      (s2.plume k).rejoins.foldl (fun s e => s.plmRejoined k e.1 e.2.1 e.2.2) (s2.modPlume k fun p => { p with rejoins := [] })
    | _ => s1

/-- Carry an operation on as far as it goes, and complete it when it has done its work. -/
def State.plmProgress (s : State) (k ix : Nat) : State :=
  match s.runAt k ix with
  | none => s
  | some r =>
    let d := (s.plume k).desc
    let o := d.op ix
    let finish (x : State × PlmRun) (ok : Bool) : State := if ok then x.1.plmDone k x.2 else x.1.putRun k x.2
    match o.op with
    | 1 =>
      let x := s.plmReduceProgress k r
      finish x (o.buckets.all fun b => x.2.recorded.contains b)
    | 4 =>
      let x := s.plmReduceProgress k r
      finish x ((o.buckets.all fun b => x.2.recorded.contains b) && d.allIn x.2 false && (x.1.plume k).sentAll ix)
    | 2 => finish (s, r) (d.allIn r true && (s.plume k).sentAll ix)
    | 3 => finish (s, r) r.asked.isEmpty
    | 5 =>
      let x := s.plmBcastProgress k r
      finish x (d.allIn x.2 false && (x.1.plume k).sentAll ix)
    | 6 => if s.plmReached k r o.gey o.value then
        ((s.plmIncAll k 0 .msg).modPlume k fun p => { p with relStep := some r.step }).plmDone k r else s
    | 8 => match r.reshard with
      | some z => s.permuteProgress k r z
      | none => s
    | 9 => if s.plmReached k r o.gey o.value then s.plmDone k r else s
    | 10 => (s.geyRelease (88 + k / 16) o.gey o.value).plmDone k r
    | 11 =>
      let x := s.plmFlipProgress k r
      finish x (o.buckets.all fun b => x.2.recorded.contains b)
    | 12 => ((s.plmDone k r).setReg (Reg.PLM_STEP k) (s.reg (Reg.PLM_STEP k) + 1)).modPlume k fun p => { p with next := 0, fresh := true }
    | 13 => (s.plmDone k r).setPlmState k plDone
    | _ => s

/-- Carry on every operation of the program that runs and has a code. -/
def State.plmProgressAll (s : State) (k op : Nat) : State :=
  ((s.plume k).runs.filter fun r => ((s.plume k).desc.op r.ix).op == op).foldl (fun s r => s.plmProgress k r.ix) s

/-- A command on a slot that the device has. -/
def onSlot (k : Nat) (f : State → State) (s : State) : Host.Outcome State Fault Refusal :=
  if 64 ≤ k then .fault (.noSuchUnit k) else .next (f s)

/-- The PERMUTE that firmware has arranged starts at the LOOP (SVC_PLM_RESHARD). -/
def State.plmPermuteAt (s : State) (k : Nat) : State :=
  let p := s.plume k
  let n := p.desc.ops.length
  (s.modPlume k fun p => { p with
    permuting := true, desc := { p.desc with ops := p.desc.ops ++ [⟨8, 0, 0, 0, 0, 0, 0, 0⟩] } }).plmStartOp k p.armed n p.next

/-- The row of a plume operation: the sequencer starts it when it is the next of the program and may start, and carries on
what runs of it. -/
def State.plmRow (s : State) (k op : Nat) (z : Option PlmReshard) : State :=
  if !s.plmActive k then s.plmPump k
  else
    let s1 := s.plmPump k
    let p := s1.plume k
    let nextOp := (p.desc.op p.next).op
    let s2 :=
      if !s1.plmMayStart k then s1
      else if nextOp = 12 ∧ p.armed.isSome then (if op = 8 then s1.plmPermuteAt k else s1)
      else if nextOp = op then s1.plmStartOp k z p.next (p.next + 1)
      else s1
    let s3 := s2.plmProgressAll k op
    (s3.plmPump k).plmSync k

/-- RS (R282, R283). -/
def execRs (k : Nat) (s : State) : Host.Outcome State Fault Refusal := live s <| onSlot k (fun s => s.plmRow k 1 none) s
/-- AG (R294). -/
def execAg (k : Nat) (s : State) : Host.Outcome State Fault Refusal := live s <| onSlot k (fun s => s.plmRow k 2 none) s

/-- The answer to a gather request arrives: the chunk is in place, poisoned or not (R299), or the owner's CUR where it holds no such version. -/
def State.plmGatherReply (s : State) (k b c : Nat) (found : Option Nat) : State :=
  match (s.plume k).runs.find? fun r => ((s.plume k).desc.op r.ix).op == 3 && r.asked.contains (b, c) with
  | none => s
  | some r => match found with
    | none =>
      let d := (s.plume k).desc
      let bad := !(s.localPoisons (s.plmOwner k) (d.gatherTo (d.op r.ix) b c) (d.size b c * fmtBytes d.wfmt)).isEmpty
      let x := s.plmGathered k (r.poisoned b bad) b c
      (x.1.putRun k x.2).plmWaits k
    | some v => s.plmVersionFail k r b c v

/-- GATHER (R293): it starts, or an answer to one of its requests arrives (bucket, chunk and, where the owner does not hold
the version, its CUR). -/
def execGather (k : Nat) (reply : Option (Nat × Nat × Option Nat)) (s : State) : Host.Outcome State Fault Refusal := live s <|
  onSlot k (fun s =>
    match reply with
    | none => s.plmRow k 3 none
    | some (b, c, found) => if s.plmActive k then (s.plmGatherReply k b c found).plmRow k 3 none else s) s

/-- AR (R279). -/
def execAr (k : Nat) (s : State) : Host.Outcome State Fault Refusal := live s <| onSlot k (fun s => s.plmRow k 4 none) s
/-- BCAST. -/
def execBcast (k : Nat) (s : State) : Host.Outcome State Fault Refusal := live s <| onSlot k (fun s => s.plmRow k 5 none) s
/-- RELEASE (R292). -/
def execRelease (k : Nat) (s : State) : Host.Outcome State Fault Refusal := live s <| onSlot k (fun s => s.plmRow k 6 none) s
/-- ESCROW (R312). -/
def execEscrow (k : Nat) (s : State) : Host.Outcome State Fault Refusal := live s <| onSlot k (fun s => s.plmRow k 7 none) s

/-- PERMUTE (R296): it starts with the re-shard descriptor at its ADDR, or a position of either ring joins it. -/
def execPermute (k : Nat) (z : PlmReshard) (join : Option (Nat × Nat × Nat)) (s : State) : Host.Outcome State Fault Refusal := live s <|
  onSlot k (fun s =>
    match join with
    | none => s.plmRow k 8 (some z)
    | some (dev, part, id) => if s.plmActive k then (s.plmRejoin k dev part id).plmRow k 8 (some z) else s) s

/-- WAIT. -/
def execWait (k : Nat) (s : State) : Host.Outcome State Fault Refusal := live s <| onSlot k (fun s => s.plmRow k 9 none) s
/-- SIGNAL. -/
def execSignal (k : Nat) (s : State) : Host.Outcome State Fault Refusal := live s <| onSlot k (fun s => s.plmRow k 10 none) s
/-- FLIP (R291). -/
def execFlip (k : Nat) (s : State) : Host.Outcome State Fault Refusal := live s <| onSlot k (fun s => s.plmRow k 11 none) s
/-- LOOP. -/
def execLoop (k : Nat) (s : State) : Host.Outcome State Fault Refusal := live s <| onSlot k (fun s => s.plmRow k 12 none) s
/-- END. -/
def execEndPlume (k : Nat) (s : State) : Host.Outcome State Fault Refusal := live s <| onSlot k (fun s => s.plmRow k 13 none) s

/-! ## START, ABORT and joining (R274, R290, R298) -/

/-- A join record is there: a mismatch ends START with DESC_INVALID. -/
def State.plmCheckJoin (s : State) (k : Nat) (j : PlmJoin) : State :=
  let p := s.plume k
  let me := p.desc.joinOf
  if !(s.plmActive k && p.awaited.contains j.pos) then s
  else if j.id = me.id ∧ j.npos = me.npos ∧ j.crc = me.crc then
    ((s.modPlume k fun p => { p with awaited := p.awaited.filter fun x => x != j.pos }).plmWaits k).plmSync k
  else ((s.modPlume k fun p => { p with awaited := [] }).setF (Fld.PLM_STATUS_LAST k) psInvalid).setPlmState k plIdle

/-- START (R274, R290). -/
def State.plmStart (s : State) (k : Nat) : State :=
  if s.plmActive k then s
  else
    let p := s.plmOwner k
    let (l, d) := s.readPlume p (s.getF (Fld.PLM_DESC_BASE k) * 256)
    if !(s.flag (Fld.PLM_OWNER_VALID k) && s.plmDescOk p l d) then (s.setF (Fld.PLM_STATUS_LAST k) psInvalid).setPlmState k plIdle
    else
      let step := s.reg (Reg.PLM_STEP k)
      let old := (s.plume k).joins
      let ns := ([d.up, d.down].dedup).filter fun x => x != d.mypos
      let s1 := s.setPlume k { (s.plume k).leftover with
        desc := d, stepStart := step, fresh := true, awaited := ns, sent := List.replicate d.ncnd 0, handled := List.replicate d.ncnd 0
        waitFrom := s.time }
      let s2 := (List.range 48).foldl (fun s i => s.geySetCount (d.geyBase + i) 0) s1
      let s3 := (List.range d.buckets.length).foldl (fun s b =>
        ((s.vSet k b 0 8 (step - 1).toNat).vSet k b 0x10 4 0).hbmWrite p (s.vAddr k b + 0x20) (List.replicate 32 0)) s2
      let s4 := (s3.setFs [(Fld.PLM_COUNTS_LATE_TOTAL k, 0), (Fld.PLM_COUNTS_LATE k, 0), (Fld.PLM_COUNTS_NONFINITE k, 0),
        (Fld.PLM_STATUS_OPIX k, 0)]).setReg (Reg.PLM_ADDS k) 0
      let s5 := ns.foldl (fun s q => s.plmPut k (d.at' q) (.join d.joinOf)) (s4.setPlmState k plRunning)
      old.foldl (fun s j => s.plmCheckJoin k j) ((s5.plmPump k).plmSync k)

/-- A write of PLM_CTL: ABORT, then START. -/
def State.plmCtl (s : State) (k v : Nat) : State :=
  let s1 := if bits v 1 1 = 1 then s.plmAbort k (s.plume k).desc.mypos else s
  if bits v 0 1 = 1 then s1.plmStart k else s1

/-- JOIN_RECORD (R274): a neighbour's join record arrives; one that arrives before START is kept for it. -/
def execJoinRecord (k pos id npos : Nat) (crc : BitVec 32) (s : State) : Host.Outcome State Fault Refusal := live s <|
  onSlot k (fun s =>
    let j : PlmJoin := ⟨pos, id, npos, crc⟩
    if s.plmActive k then s.plmCheckJoin k j
    else s.modPlume k fun p => { p with joins := (p.joins.filter fun x => x.pos != pos) ++ [j] }) s

/-! ## What arrives from the ring -/

/-- A partial is handed to the next reducer (R277, R285). -/
def State.plmPartial (s : State) (k j : Nat) (t : PlmTag) (vs marks : List Nat) (rep : Option PlmReport) : State :=
  let (l, s1) := s.nextReducer k
  s1.modPlume k fun p => { p with work := p.work ++ [PlmWork.mk l t vs marks rep 0 j] }

/-- Data of AG, AR or BCAST is placed by its tag and goes on round the ring (R294, R279).  STALE is cleared with the last segment of a
chunk all of which is written; a chunk of which a segment came before RELEASE stays STALE (DEDUCED: R294 writes a chunk or does not). -/
def State.plmPlace (s : State) (k j : Nat) (r : PlmRun) (t : PlmTag) (fmt : Nat) (vs marks : List Nat) : State :=
  let d := (s.plume k).desc
  let p := s.plmOwner k
  let x := d.bucket t.bucket
  let origin := if t.kind = 4 then fieldOf (d.op r.ix).value 0 16 else t.chunk
  let released := (s.plume k).relStep == some r.step
  let s1 := match t.kind with
    | 2 =>
      if !released then s.setStale k t.bucket t.chunk true
      else
        let s1 := s.plmWrite p (x.home + t.first * fmtBytes fmt) fmt vs marks
        if r.missed.contains (t.bucket, t.chunk) || r.have' t.bucket t.chunk + vs.length < d.size t.bucket t.chunk then s1
        else s1.setStale k t.bucket t.chunk false
    | _ => s.plmWrite p (x.out + t.first * fmtBytes fmt) fmt vs marks
  let r0 := if t.kind = 2 ∧ !released then { r with missed := (r.missed ++ [(t.bucket, t.chunk)]).dedup } else r
  let r1 := (r0.add t.bucket t.chunk vs.length).poisoned t.bucket !marks.isEmpty
  let (s2, r2) := if d.down = origin then (s1, r1) else s1.plmSegment k r1 { t with opix := r.ix } fmt vs marks
  ((s2.putRun k r2).plmCredit k j).plmProgress k r.ix

/-- The operation of a plume that a segment belongs to: its code by the tag's KIND. -/
def PlmDesc.takes (d : PlmDesc) (t : PlmTag) (r : PlmRun) : Bool :=
  let op := (d.op r.ix).op
  r.ix == t.opix && r.step.toNat == t.step &&
  match t.kind with
  | 1 => op == 1 || op == 4
  | 2 => op == 2
  | 3 => op == 4
  | 4 => op == 5
  | _ => false

/-- Handle the segment in a staging slot (R278): one whose operation has not started here, or whose bucket is not decided,
waits in its slot. -/
def State.plmArrive (s : State) (k j i : Nat) (rep : Option PlmReport) : State :=
  let pl := s.plume k
  let d := pl.desc
  let p := s.plmOwner k
  let h := pl.handled.getD j 0
  if !(s.plmActive k && pl.awaited.isEmpty) || d.ncnd ≤ j || d.nslot ≤ i || (s.geyCount (d.geyBase + 8 + j)).toNat ≤ h then s
  else
    let a := d.slotOff j i
    let t := PlmTag.ofBytes (s.hbmRead p a 64)
    if t.id ≠ d.id then
      let (v, s1) := s.draw
      s1.plmBreak k d.up (v.toNat % 2 ^ 32)
    else
      match pl.runs.find? fun r => d.takes t r with
      | none => s
      | some r =>
        let fmt := match t.kind with
          | 1 => d.carryFmt
          | 2 => d.wfmt
          | _ => d.outFmt
        let n := min t.count (d.perSeg fmt)
        let (vs, marks) := s.plmRead p (a + 64) fmt n
        let took (s : State) : State := s.modPlume k fun p => { p with handled := p.handled.set j (h + 1), waitFrom := s.time }
        if t.kind = 1 then
          (if (r.decision t.bucket).isNone then s
           else ((took s).putRun k (r.poisoned t.bucket !marks.isEmpty)).plmPartial k j t vs marks rep)
        else (took s).plmPlace k j r t fmt vs marks

/-- PLM_SEGMENT_ARRIVE: a segment lies in slot `m` of conduit `j`; for a partial, `rep` is its report so far, for which the
tag has no field. -/
def execPlmSegmentArrive (k j m : Nat) (rep : Option PlmReport) (s : State) : Host.Outcome State Fault Refusal := live s <|
  onSlot k (fun s => ((s.plmArrive k j m rep).plmPump k).plmSync k) s

/-- Elements that one cycle of a vector engine adds (R277). -/
def addsPerCycle (fmt : Nat) : Nat := if fmtBytes fmt = 4 then 256 else 512

/-- A cycle of adds on the oldest segment of a reducer: a segment all of whose elements are added is forwarded, or is the
result where this position owns the chunk. -/
def State.plmAddCycle (s : State) (k : Nat) (x : PlmWork) : State :=
  let d := (s.plume k).desc
  match (s.plume k).runs.find? fun r => d.takes x.tag r with
  | none => s.modPlume k fun q => { q with work := q.work.erase x }
  | some r =>
    let n := min (addsPerCycle d.carryFmt) (x.acc.length - x.done)
    let first := x.tag.first + x.done
    let (own, m, rep1, f) := s.plmOwn k r x.tag.bucket first n
    let old := (x.acc.drop x.done).take n
    let sums := (List.zip old own).map fun e => addElem d.carryFmt e.1 e.2
    let inf := firstTrue ((List.zip (List.zip old own) sums).map fun e =>
      elemFinite d.carryFmt e.1.1 && elemFinite d.carryFmt e.1.2 && !elemFinite d.carryFmt e.2.1)
    let rep := betterReport (betterReport x.rep rep1) (inf.map fun i => ⟨2, first + i, d.mypos⟩)
    let y : PlmWork := { x with
      acc := x.acc.take x.done ++ sums.map Prod.fst ++ x.acc.drop (x.done + n)
      marks := (x.marks ++ m.map fun i => x.done + i).dedup
      rep
      done := x.done + n }
    let s1 := (s.setReg (Reg.PLM_ADDS k) (s.reg (Reg.PLM_ADDS k) + dw n)).plmFlags k (some x.larray) (f ||| flagsOf sums)
    if y.done < y.acc.length then
      let upd (z : PlmWork) : PlmWork := if z = x then y else z
      s1.modPlume k fun q => { q with work := q.work.map upd }
    else
      let s2 := (s1.modPlume k fun q => { q with work := q.work.erase x }).plmCredit k x.cnd
      let r1 := r.poisoned x.tag.bucket !y.marks.isEmpty
      let z := if x.tag.chunk = d.mypos then s2.plmResult k r1 x.tag.bucket x.tag.first y.acc y.marks rep x.larray
        else s2.plmPartialOut k r1 (d.tag r1 1 x.tag.bucket x.tag.chunk x.tag.first y.acc.length (x.tag.hops + 1) 0) y.acc y.marks rep
      (z.1.putRun k z.2).plmProgress k r.ix

/-- REDUCER_ADD (R277). -/
def execReducerAdd (k larray : Nat) (s : State) : Host.Outcome State Fault Refusal := live s <|
  onSlot k (fun s =>
    match (s.plume k).work.find? fun x => x.larray == larray with
    | none => s
    | some x => if s.plmActive k then ((s.plmAddCycle k x).plmPump k).plmSync k else s) s

/-- LATE_DECISION (R285): the deadline of the step has come for a bucket of an RS that is not decided; before it, or where the step has
none, nothing is decided. -/
def execLateDecision (k b : Nat) (s : State) : Host.Outcome State Fault Refusal := live s <|
  onSlot k (fun s =>
    let pl := s.plume k
    if !s.plmActive k || pl.budget == 0 || s.flag (Fld.LOG_REPLAY_ENABLE (s.plmOwner k)) || decide (s.time < s.plmDeadline k) then s
    else match pl.runs.find? fun r => (pl.desc.op r.ix).op == 1 && (pl.desc.op r.ix).buckets.contains b && (r.decision b).isNone with
      | none => s
      | some r =>
        let x := s.plmDecide k r b ((s.plmVerdict k r b).getD false)
        (((x.1.putRun k x.2).plmProgress k r.ix).plmPump k).plmSync k) s

/-- POSITION_STATUS_RECORD (R289): a position's status record for a bucket arrives. -/
def execPositionStatusRecord (k pos b : Nat) (taken : Bool) (rep : Option PlmReport) (s : State) :
    Host.Outcome State Fault Refusal := live s <|
  onSlot k (fun s =>
    let pl := s.plume k
    if !s.plmActive k || pl.desc.npos ≤ pos || (pl.status.any fun x => x.bucket == b && x.pos == pos) then s
    else
      let s1 := (s.modPlume k fun p => { p with status := p.status ++ [PlmStatus.mk b pos taken rep] }).plmWaits k
      match pl.runs.find? fun r => ((pl.desc.op r.ix).op == 1 || (pl.desc.op r.ix).op == 4) && (pl.desc.op r.ix).buckets.contains b with
      | none => s1
      | some r =>
        let x := s1.plmBucketRecord k r b
        (((x.1.putRun k x.2).plmProgress k r.ix).plmPump k).plmSync k) s

/-- GATHER_REQUEST (R293): a request of a position for this position's chunk of a bucket at a version, to go to an address of
the requester. -/
def execGatherRequest (k pos b version addr : Nat) (s : State) : Host.Outcome State Fault Refusal := live s <|
  onSlot k (fun s =>
    let d := (s.plume k).desc
    if !s.plmActive k || d.npos ≤ pos || d.buckets.length ≤ b then s
    else match s.serveFrom k b version with
      | none => (s.plmPut k (d.at' pos) (.noVersion b d.mypos (s.vCur k b))).plmPump k
      | some a =>
        let j := pos % d.ncnd
        let dst := d.at' pos
        let puts : List PlmEmit := (cutRange 0 (d.size b d.mypos * fmtBytes d.wfmt) 16777216).map fun q =>
          PlmEmit.mk j false plmNone .msg 0 (fabAddr dst (addr + q.1)) (a + q.1) q.2 0 none
        let inc := PlmEmit.mk j false plmNone (.serve b) 0x10 (fabGey dst (d.geyBase + Config.gatherGeyser % 48)) 0 0 1 none
        let s1 := s.vSet k b 0x12 2 (s.vRefs k b + 1)
        (s1.modPlume k fun p => { p with ctl := p.ctl ++ puts ++ [inc] }).plmPump k) s

/-- VERSION_RETIRE (R292): the previous version of a bucket's owned chunk retires. -/
def execVersionRetire (k b : Nat) (s : State) : Host.Outcome State Fault Refusal := live s <|
  onSlot k (fun s =>
    let pl := s.plume k
    let d := pl.desc
    let p := s.plmOwner k
    let x := d.bucket b
    let all := decide (d.npos * Sparse.get natDefault pl.flips b ≤ (s.geyCount d.geyBase).toNat)
    let forced := (pl.runs.any fun r => (d.op r.ix).op == 11 && (d.op r.ix).buckets.contains b && !r.recorded.contains b) &&
      pl.budget != 0 && decide (s.plmDeadline k ≤ s.time)
    if !(s.plmActive k && s.vPrevValid k b && s.vRefs k b == 0 && (all || forced)) then s
    else
      let lo := d.lo b d.mypos
      let wb := fmtBytes d.wfmt
      let home := if d.sharded then x.home else x.home + lo * wb
      let (vs, marks) := s.plmRead p (x.stage + lo * wb) d.wfmt (d.size b d.mypos)
      let s1 := ((s.plmWrite p home d.wfmt vs marks).vSet k b 0x10 1 0).geyRelease (88 + k / 16) (d.geyBase + 4) 1
      ((s1.plmProgressAll k 11).plmPump k).plmSync k) s

/-- A plume waits for another position: for a join, or in an operation that takes something from the ring. -/
def Plume.waitsForRing (p : Plume) : Bool := !p.awaited.isEmpty || p.runs.any fun r => decide ((p.desc.op r.ix).op ≤ 5) || (p.desc.op r.ix).op == 8
/-- The moment at which a wait that goes on now has lasted too long: PLM_HOP_TIMEOUT after the later of its start and the step's
deadline (R297). -/
def State.plmHopLimit (s : State) (k : Nat) : Nat :=
  let pl := s.plume k
  max pl.waitFrom (if pl.budget = 0 then 0 else s.plmDeadline k) + max 1 (s.getF (Fld.PLM_HOP_TIMEOUT_MS k)) * 1000000

/-- PLM_HOP_TIMEOUT_EXPIRY (R297): a wait for a position of the ring has lasted too long; before that nothing happens. -/
def execPlmHopTimeoutExpiry (k pos : Nat) (s : State) : Host.Outcome State Fault Refusal := live s <|
  onSlot k (fun s => if (s.plume k).waitsForRing ∧ s.plmHopLimit k ≤ s.time then s.plmBreak k pos 0xFF else s) s

/-- PLM_ABORT_NOTICE (R298): an abort that began at another position. -/
def execPlmAbortNotice (k pos : Nat) (s : State) : Host.Outcome State Fault Refusal := live s <| onSlot k (fun s => s.plmAbort k pos) s

/-- A function-level reset of a partition aborts its plumes and returns its slots to their reset values (R298). -/
def State.plmResetOf (s : State) (p : Nat) : State :=
  ((List.range 64).filter fun k => s.flag (Fld.PLM_OWNER_VALID k) && s.plmOwner k == p).foldl (fun s k =>
    let s1 := s.plmAbort k (s.plume k).desc.mypos
    let s2 := (s1.setPlmState k plIdle).resetRegs (Reg.PLM_DESC k) (Reg.PLM_DESC k + 0x100)
    s2.setPlume k (s2.plume k).leftover) s

/-- What a plume does of itself while time passes: a decision that is due, and what waits for a credit. -/
def State.plmTick (s : State) (k : Nat) : State :=
  let pl := s.plume k
  let idle := pl.ctl.isEmpty && pl.segs.isEmpty && pl.records.isEmpty && pl.owed.isEmpty && pl.owedRecords.isEmpty && pl.runs.isEmpty
  if idle then s
  else if s.plmActive k then (((s.plmProgressAll k 1).plmProgressAll k 4).plmPump k).plmSync k
  else s.plmPump k

end Sys2Proof.Machine
end

