-- ==== Sys2Proof/Machine/Steps.lean ====
section
/-! DEFINITION. Step banks: attempts begin, commit and abort, the amax walk, and ENABLE (R304 to R311, R316, R319, R323,
R324). -/
namespace Sys2Proof.Machine

/-- A command on a bank that the device has. -/
def onBank (j : Nat) (f : State → State) (s : State) : Host.Outcome State Fault Refusal :=
  if 4 ≤ j then .fault (.noSuchUnit j) else .next (f s)

/-! ## Ring entries (Table 9.4) -/

/-- The second word of an entry: SEQ, OUTCOME, CAUSE, FLAGS and FORMAT. -/
def ringWord (tag outcome cause flags : Nat) : Word64 :=
  dw (tag % 2 ^ 32 + outcome * 2 ^ 32 + cause * 2 ^ 40 + flags * 2 ^ 48 + 2 ^ 56)

/-- Open the entry of the present tag. -/
def State.ringOpen (s : State) (j : Nat) : State :=
  let n := s.bankEntry' j
  let s1 := s.resetRegs (Reg.PRF_RING j n 0) (Reg.PRF_RING j n 16)
  (s1.setReg (Reg.PRF_RING j n 0) (s1.reg (Reg.PRF_STEP_NUM j))).setReg (Reg.PRF_RING j n 1)
    (ringWord (s1.bankTag j) 0 0 (if s1.unsync then 1 else 0))
/-- An attempt ends: its entry's outcome, and FINAL in the entry that took the times of phase 7. -/
def State.ringEnd (s : State) (j outcome cause : Nat) : State :=
  let n := s.bankEntry' j
  let v := s.reg (Reg.PRF_RING j n 1)
  let s1 := s.setReg (Reg.PRF_RING j n 1) (putField (putField v 32 8 outcome) 40 8 cause)
  match (s1.bank j).phase7 with
  | some m => s1.setReg (Reg.PRF_RING j m 1) (s1.reg (Reg.PRF_RING j m 1) ||| 0x0002000000000000)
  | none => s1

/-- Give marker geysers `lo` to `hi` of a bank the count 0. -/
def State.clearMarkers (s : State) (j lo hi : Nat) : State :=
  let mb := s.getF (Fld.PRF_STEP_MARK_MARK_BASE j)
  (List.range (hi - lo)).foldl (fun s i => s.geySetCount ((mb + lo + i) % 65536) 0) s

/-! ## Begin (R305) -/

/-- ATTEMPT_BEGIN: an idle bank begins an attempt when BEGIN_GEY exceeds the attempts begun. -/
def execAttemptBegin (j : Nat) (s : State) : Host.Outcome State Fault Refusal := live s <|
  onBank j (fun s =>
    if !(s.bankEnabled j && s.bankState j == bkIdle &&
        decide ((s.bank j).begun < (s.reg (Reg.GEY_COUNT (s.getF (Fld.PRF_STEP_GEY_BEGIN_GEY j)))).toNat)) then s
    else
      let s1 := s.setReg (Reg.PRF_STEP_TAG j) (s.reg (Reg.PRF_STEP_TAG j) + 1)
      let s2 := (s1.clearMarkers j 0 12).ringOpen j
      ((s2.setBankState j bkOpen).modBank j fun b => { b with begun := b.begun + 1 }).bankTryCommit j) s

/-! ## Commit (R306, R316) -/

/-- The amax walk over records `i` on: the records advanced. -/
def State.amaxWalk (s : State) (p tag : Nat) (step : Word64) : Nat → Nat → State × Nat
  | 0, _ => (s, 0)
  | n + 1, i =>
    let a := s.amaxRecordAddr p i
    let r := s.hbmRead p a 64
    let x := State.amaxWalk s p tag step n (i + 1)
    if !s.amaxRecordOk p i || fieldAt r 0 8 != tag then x
    else
      let head := fieldAt r 8 1 % 16
      let valid := fieldAt r 0x0A 2
      let valid' := if bits valid head 1 = 1 then valid else valid + 2 ^ head
      (((x.1.hbmWrite p (a + 8) (toLe 1 ((head + 1) % 16) ++ toLe 1 1)).hbmWrite p (a + 0x0A) (toLe 2 valid')).hbmWrite p (a + 0x10)
        (toLe 8 step.toNat), x.2 + 1)

/-- The commit record of a bank is with the logger still. -/
def State.commitWaits (s : State) (j : Nat) : Bool :=
  s.log.waiting.any fun r => r.type == 5 && r.part == s.bankOwner j && fieldAt r.body 0 1 == j

/-- Steps 2 to 4 of R306. -/
def State.bankCommit (s : State) (j : Nat) : State :=
  let p := s.bankOwner j
  let tag := s.bankTag j
  let step := s.reg (Reg.PRF_STEP_NUM j)
  let x := s.amaxWalk p tag step (s.amaxCount p) 0
  let s1 := x.1.ringEnd j 1 0
  let s2 := (s1.setReg (Reg.PRF_STEP_NUM j) (step + 1)).incF (Fld.PRF_STEP_COUNTS_COMMITS j) 1
  let s3 := (s2.modBank j fun b => { b with phase7 := some (s2.bankEntry' j) }).clearMarkers j 12 14
  let s4 := (s3.geyRelease 96 (s3.getF (Fld.PRF_STEP_MARK_DONE_GEY j)) 1).setBankState j bkIdle
  s4.raise srcBank p clsInfo 0x6001 0 ([w j] ++ w2 step ++ w2 (dw tag) ++ [w x.2])

/-- ATTEMPT_COMMIT: an attempt whose commit condition holds commits, once the logger has accepted its record. -/
def execAttemptCommit (j : Nat) (s : State) : Host.Outcome State Fault Refusal := live s <|
  onBank j (fun s =>
    let s1 := if s.bankEnabled j then s.bankTryCommit j else s
    if s1.bankState j = bkCommitting ∧ !s1.commitWaits j then s1.bankCommit j else s1) s

/-! ## Abort (R307, R311) -/

/-- The plume slots whose carries the attempt of a bank could use: PLM_SLOT, or without PLM_EN every slot of the owner. -/
def State.bankSlots (s : State) (j : Nat) : List Nat :=
  if s.flag (Fld.PRF_STEP_CFG_PLM_EN j) then [s.getF (Fld.PRF_STEP_CFG_PLM_SLOT j)] else s.slotsOf (s.bankOwner j)
/-- The buckets carried into a step at a slot (R286): once the plume has opened the step they are in it; before, they wait for it. -/
def State.carriedAt (s : State) (k : Nat) (step : Word64) : List Nat :=
  let p := s.plume k
  if p.fresh || s.reg (Reg.PLM_STEP k) != step then p.carry else p.carryIn
/-- The buckets carried into the step, which an abort voids. -/
def State.carried (s : State) (j : Nat) : List Nat :=
  ((s.bankSlots j).flatMap fun k => s.carriedAt k (s.reg (Reg.PRF_STEP_NUM j))).dedup

/-- The steps of R307 for the attempt of a bank, with a cause. -/
def State.bankAbort (s : State) (j cause : Nat) : State :=
  let p := s.bankOwner j
  let slot := s.getF (Fld.PRF_STEP_CFG_PLM_SLOT j)
  let void := s.carried j
  let body := toLe 1 j ++ toLe 1 cause ++ toLe 2 void.length ++ toLe 4 (s.bankPlumeId j) ++ toLe 8 s.time ++ void.flatMap fun b => toLe 2 b
  let s1 := s.logTagged 0x06 p srcBank (some (s.bankTag j)) body
  let s2 := (s.bankSlots j).foldl (fun s k => s.modPlume k fun q => { q with carry := [], carryIn := [] })
    (if s1.flag (Fld.PRF_STEP_CFG_PLM_EN j) then s1.plmAbort slot (s1.plume slot).desc.mypos else s1)
  let s3 := (s2.ringEnd j 2 cause).incF (Fld.PRF_STEP_COUNTS_ABORTS j) 1
  ((s3.modBank j fun b => { b with phase7 := none, cause := 0 }).raise srcBank p clsInfo 0x6002 0
    ([w j] ++ w2 (s3.reg (Reg.PRF_STEP_NUM j)) ++ w2 (dw (s3.bankTag j)) ++ [w cause, w void.length])).setBankState j bkIdle

/-- ATTEMPT_ABORT: a rise that the bank observed in an open attempt aborts it. -/
def execAttemptAbort (j : Nat) (s : State) : Host.Outcome State Fault Refusal := live s <|
  onBank j (fun s => if s.bankState j = bkAborting then s.bankAbort j (s.bank j).cause else s) s

/-! ## ENABLE (R304) -/

/-- The geysers that a bank names. -/
def State.bankGeysers (s : State) (j : Nat) : List Nat :=
  [s.getF (Fld.PRF_STEP_GEY_BEGIN_GEY j), s.getF (Fld.PRF_STEP_GEY_COMMIT_GEY j), s.getF (Fld.PRF_STEP_GEY_NAY_GEY j),
   s.getF (Fld.PRF_STEP_GEY_ABORT_GEY j), s.getF (Fld.PRF_STEP_MARK_DONE_GEY j)] ++
  (List.range 14).map fun i => s.getF (Fld.PRF_STEP_MARK_MARK_BASE j) + i

/-- ENABLE goes from 0 to 1, or the write is refused. -/
def State.bankEnable (s : State) (j : Nat) : State :=
  let p := s.bankOwner j
  if !s.flag (Fld.PRF_STEP_OWNER_VALID j) || !((s.bankGeysers j).all fun g => decide (g < 65536) && s.geyOwner g == p) then
    s.setF (Fld.PRF_STEP_STATUS_CFG_ERR j) 1
  else
    let g (f : FieldRef) : Nat := s.getF f
    let s1 := ((s.geySetCount (g (Fld.PRF_STEP_GEY_BEGIN_GEY j)) 0).geySetCount (g (Fld.PRF_STEP_GEY_COMMIT_GEY j)) 0).clearMarkers j 0 14
    (s1.setBank j { begun := 0, baseAbort := s1.geyCount (g (Fld.PRF_STEP_GEY_ABORT_GEY j)),
                    baseNay := s1.geyCount (g (Fld.PRF_STEP_GEY_NAY_GEY j)), cause := 0, phase7 := (s1.bank j).phase7 }).setFs
      [(Fld.PRF_STEP_STATUS_CFG_ERR j, 0), (Fld.PRF_STEP_CFG_ENABLE j, 1), (Fld.PRF_STEP_COUNTS_COMMITS j, 0), (Fld.PRF_STEP_COUNTS_ABORTS j, 0)]

/-- ENABLE goes from 1 to 0: an open attempt aborts with CAUSE 3. -/
def State.bankDisable (s : State) (j : Nat) : State :=
  let s1 := if s.bankState j = bkOpen then s.bankAbort j 3 else s
  s1.setF (Fld.PRF_STEP_CFG_ENABLE j) 0

/-- A write of PRF_STEP_CFG (R304): fields other than ENABLE take effect only while ENABLE is 0. -/
def State.bankCfg (s : State) (j v : Nat) : State :=
  let on := s.bankEnabled j
  let s1 := if on then s else s.setFs [(Fld.PRF_STEP_CFG_PLM_EN j, bits v 22 1), (Fld.PRF_STEP_CFG_PLM_SLOT j, bits v 16 6),
    (Fld.PRF_STEP_CFG_COMMIT_TARGET j, bits v 0 9)]
  match on, bits v 31 1 == 1 with
  | false, true => s1.bankEnable j
  | true, false => s1.bankDisable j
  | _, _ => s1

/-- A function-level reset of a partition (R324): its open attempt aborts with CAUSE 4, its bank returns to its reset values
but for the owner and TAG, and its ring is written zero. -/
def State.bankResetOf (s : State) (p : Nat) : State :=
  match s.bankOf p with
  | none => s
  | some j =>
    let s1 := if s.bankState j = bkOpen ∨ s.bankState j = bkAborting then s.bankAbort j 4 else s
    let tag := s1.reg (Reg.PRF_STEP_TAG j)
    let s2 := (s1.resetRegs (Reg.PRF_STEP_CFG j) (Reg.PRF_STEP_OWNER j + 0x100)).resetRegs (Reg.PRF_RING j 0 0) (Reg.PRF_RING j 1024 0)
    (s2.setBank j Bank.none).setReg (Reg.PRF_STEP_TAG j) tag

end Sys2Proof.Machine
end

