-- ==== Sys2Proof/Machine/TephraLog.lean ====
section
/-! DEFINITION. The tephra logger: acceptance, append rings, blocks, the mirror and durability, the end of a snapshot's drain,
upset windows and array refill (R325 to R335, R344, R354, R355, R496, R505, R506). -/
namespace Sys2Proof.Machine

/-! ## Records (Table 10.1) -/

/-- One bit of the CRC-32C shift register. -/
def crcBit (c : Nat) : Nat := if c % 2 = 1 then c / 2 ^^^ 0x82F63B78 else c / 2
/-- CRC-32C (Castagnoli) of bytes. -/
def crc32c (l : List Byte) : Nat :=
  let step (c : Nat) (b : Byte) : Nat := (List.range 8).foldl (fun c _ => crcBit c) (c ^^^ b.toNat)
  l.foldl step 0xFFFFFFFF ^^^ 0xFFFFFFFF

/-- Firmware and devices share one geyser of an acknowledgement; a record about the device as a whole. -/
def logNone : Nat := 0xFFFF

/-- Bytes of a body with its padding (R326). -/
def padBody (l : List Byte) : List Byte := l ++ List.replicate (ceilDiv l.length 16 * 16 - l.length) 0

/-- STEP and TAG of a record's header (Table 10.1). -/
def State.logStep (s : State) (p : Nat) : Nat × Nat :=
  match s.bankOf p with
  | some j => ((s.reg (Reg.PRF_STEP_NUM j)).toNat,
      if s.bankState j = bkOpen ∨ s.bankState j = bkCommitting then s.bankTag j % 2 ^ 32 else 0)
  | none => (0, 0)

/-- Bytes of the log buffer. -/
def logBufBytes : Nat := 2 ^ 27

/-- An LSN lies above the highest durable one. -/
def State.notDurable (s : State) (lsn : Nat) : Bool := match s.log.durable with
  | some n => decide (n < lsn)
  | none => true
/-- Bytes of accepted records that are not durable. -/
def State.logHeld (s : State) : Nat := ((s.log.records.filter fun r => s.notDurable r.lsn).map fun r => r.bytes.length).sum

def State.logSpace (s : State) (n : Nat) : Bool := decide (s.logHeld + n ≤ logBufBytes)

/-- Write bytes into a ring of the 256 MiB area at LOG_BUF, from an offset in the half that begins at `half`. -/
def State.logBufWrite (s : State) (half pos : Nat) (l : List Byte) : State :=
  let base := s.getF Fld.LOG_BUF_BASE * 2 ^ 28 + half
  let n := logBufBytes - pos
  (s.hbmWritePhys (base + pos) (l.take n)).hbmWritePhys base (l.drop n)

/-- The records of the open block: those after the last block's. -/
def State.openRecords (s : State) : List LogRecord :=
  match s.log.blocks.getLast? with
  | some b => s.log.records.filter fun r => decide (b.last < r.lsn)
  | none => s.log.records

/-- LOG_FORMAT of the blocks written now: that of the firmware in the ACTIVE slot, or while it is unconfirmed that of the firmware in
the other slot, which it replaced (R496). -/
def State.logFormat (s : State) : Nat :=
  let a := if s.slotState 0 = slActive then 0 else 1
  let i := if s.flag Fld.FW_STATUS_UNCONFIRMED then 1 - a else a
  Config.logFormat (fieldOf (s.reg (slotReg i)) 0 32)

/-- Bytes of a record as it is written to a cartridge: nonce and tag follow a body that was sealed. -/
def LogRecord.storedLength (r : LogRecord) : Nat := r.bytes.length + if r.key.isSome then 32 else 0

/-- A record as it is written to a cartridge: the body of one that was sealed is encrypted under its partition's storage key, and the record
carries nonce and tag (R454); LENGTH and CRC are those of what is written.  The nonce is the LSN, nothing beside the body is authenticated,
and nonce, tag and four zero bytes follow the body (DESIGN CHOICE, log entry 51). -/
def LogRecord.stored (r : LogRecord) : List Byte :=
  match r.key with
  | none => r.bytes
  | some k =>
    let nonce := toLe 12 r.lsn
    let text := (r.bytes.drop 32).zipIdx.map fun e => e.1 ^^^ Config.gcmStream k nonce e.2
    let tag := Config.gcmTag k nonce [] text
    let body := text ++ nonce ++ ((List.range 16).map fun i => tag.getD i 0) ++ toLe 4 0
    let head := r.bytes.take 24 ++ toLe 4 r.storedLength
    head ++ toLe 4 (crc32c (head ++ toLe 4 0 ++ body)) ++ body

/-- The bytes of a block: its header, its records, and zeros up to a multiple of 64 KiB (R496). -/
def State.blockBytes (s : State) (b : LogBlock) : List Byte :=
  let rs := s.log.records.filter fun r => decide (b.first ≤ r.lsn) && decide (r.lsn ≤ b.last)
  let head := toLe 4 0x50594C47 ++ toLe 2 s.logFormat ++ toLe 1 (s.getF Fld.TOP_DEVNUM_DEVNUM) ++ toLe 1 0 ++ toLe 8 b.first ++
    toLe 4 rs.length ++ List.replicate 40 0
  let raw := rs.flatMap LogRecord.stored
  let body := padTo (ceilDiv (64 + raw.length) 65536 * 65536 - 64) raw
  head ++ toLe 4 (crc32c (head ++ toLe 4 0 ++ body)) ++ body

/-- Firmware sends blocks to the mirror device: each a PUT with SOURCE_KIND 2, on MIRROR_CND, as its credits allow (R240, R332).  Where in
the mirror's ingress area a block goes the manual does not say: a free value. -/
def State.mirrorPump (s : State) : Nat → State
  | 0 => s
  | k + 1 =>
    match s.log.mirrorOut with
    | [] => s
    | (d, first) :: t =>
      match s.log.blocks.find? fun b => b.first == first with
      | none => State.mirrorPump { s with log := { s.log with mirrorOut := t } } k
      | some b =>
        let c := s.getF Fld.LOG_CTL_MIRROR_CND
        if !s.cndIs c 0 1 then s
        else
          let (x, s1) := s.draw
          let bytes := s1.blockBytes b
          let e := rmoBytes opcPut 0x10 2 0xFF bytes.length (d * 2 ^ 56 + x.toNat % 2 ^ 48) 0 0 0 0 0
          match (s1.cndCheck c).1.postRmo c e (.firmware bytes) none with
          | some s2 => State.mirrorPump { s2 with log := { s2.log with mirrorOut := t } } k
          | none => s
/-- As many blocks as wait. -/
def State.mirrorSend (s : State) : State := s.mirrorPump s.log.mirrorOut.length

/-- Close the open block; with a mirror it goes to firmware for the mirror device. -/
def State.closeBlock (s : State) : State :=
  match s.openRecords with
  | [] => s
  | r :: t =>
    let last := (t.getLast?.getD r).lsn
    let out := if s.flag Fld.LOG_CTL_MIRROR_EN then [(s.getF Fld.LOG_CTL_MIRROR_DEVICE, r.lsn)] else []
    { s with log := { s.log with
        blocks := s.log.blocks ++ [LogBlock.mk r.lsn last false false]
        mirrorAt := if s.log.blocks.all LogBlock.acked then s.time else s.log.mirrorAt
        mirrorOut := s.log.mirrorOut ++ out } }.mirrorSend

/-- Types whose bodies are encrypted under a sealed partition's storage key (R454). -/
def sealedBody (type : Nat) : Bool := type == 1 || type == 2 || type == 3 || type == 9 || type == 12
/-- The storage key of a partition that is sealed. -/
def State.sealKey (s : State) (p : Nat) : Option (List Byte) :=
  if p < 64 ∧ s.isSealed p then (s.sec.keys.find? fun k => k.part == p && k.slot == 8).map PartKey.key else none

/-- Accept a record: it receives the next LSN, enters the log buffer, and the open block closes when it is full (R325, R330,
R496).  A step-abort record carries the TAG of its own attempt (R307). -/
def State.logAccept (s : State) (type part source : Nat) (own : Option Nat) (body : List Byte) : State :=
  let lsn := (s.reg Reg.LOG_LSN).toNat
  let (step, open') := if part < 64 then s.logStep part else (0, 0)
  let tag := match own with
    | some t => t % 2 ^ 32
    | none => open'
  let b := padBody body
  let len := 32 + b.length
  let ty := type + if part < 64 ∧ s.flag (Fld.LOG_REPLAY_ENABLE part) then 128 else 0
  let head (crc : Nat) : List Byte := toLe 8 lsn ++ toLe 8 step ++ toLe 4 tag ++ toLe 1 ty ++ toLe 1 part ++ toLe 2 source ++
    toLe 4 len ++ toLe 4 crc
  let bytes := head (crc32c (head 0 ++ b)) ++ b
  let key := if sealedBody type then s.sealKey part else none
  let r := LogRecord.mk lsn part type tag step bytes key
  let held := (s.openRecords.map LogRecord.storedLength).sum
  let s := if 65536 < 64 + held + r.storedLength then s.closeBlock else s
  let s1 := (s.logBufWrite 0 s.log.bufPos bytes).setReg Reg.LOG_LSN (dw (lsn + 1))
  let s2 := { s1 with log := { s1.log with
    records := s1.log.records ++ [r]
    bufPos := (s1.log.bufPos + len) % logBufBytes } }
  if part < 64 then s2.setReg (Reg.LOG_ACCEPTED part) (s2.reg (Reg.LOG_ACCEPTED part) + 1) else s2

/-- A record may be accepted now: none of its source waits before it, and the descriptors it waits for are handled (R329). -/
def State.logReady (s : State) (before : List LogPending) (r : LogPending) : Bool :=
  !(before.any fun x => x.source == r.source && x.part == r.part) &&
  decide (r.need ≤ Sparse.get natDefault s.log.appended r.part)

/-- The first record that may be accepted: its place in the list. -/
def State.logPick (s : State) (before : List LogPending) : List LogPending → Option (Nat × LogPending)
  | [] => none
  | r :: t => if s.logReady before r then some (before.length, r) else State.logPick s (before ++ [r]) t

/-- LOG_RECORD_ACCEPT: the next record is accepted once the buffer has space; while ENABLE is 0 it is discarded and counted. -/
def execLogRecordAccept (s : State) : Host.Outcome State Fault Refusal := live s <|
  match s.logPick [] s.log.waiting with
  | none => .next s
  | some (i, r) =>
    let s1 := { s with log := { s.log with waiting := s.log.waiting.eraseIdx i } }
    if !s.flag Fld.LOG_CTL_ENABLE then .next (s1.incSat Fld.LOG_STATUS_LOST 1)
    else if s.logSpace (32 + (padBody r.body).length) then .next (s1.logAccept r.type r.part r.source r.tag r.body)
    else .next s

/-! ## Append rings (R328) -/

/-- The types that a partition may append (Table 10.2). -/
def appendable (t : Nat) : Bool := t == 2 || t == 3 || t == 9 || t == 12

/-- A descriptor has been handled: ACK_GEY rises. -/
def State.appendDone (s : State) (p n : Nat) : State :=
  ({ s with log := { s.log with appended := Sparse.set natDefault s.log.appended p (n + 1) } }).geyRelease 96
    (s.getF (Fld.LOG_APPEND_GEY_ACK_GEY p)) 1

/-- APPEND_DESCRIPTOR: the next announced descriptor of a partition is accepted or rejected; while the buffer is full it
waits. -/
def execAppendDescriptor (p : Nat) (s : State) : Host.Outcome State Fault Refusal := live s <|
  if 64 ≤ p then .fault (.noSuchUnit p)
  else
    let n := Sparse.get natDefault s.log.appended p
    let lg := s.getF (Fld.LOG_APPEND_LOG2DEPTH p)
    let count := (s.geyCount (s.getF (Fld.LOG_APPEND_GEY_ANNOUNCE_GEY p))).toNat
    if !s.flag (Fld.LOG_APPEND_GEY_EN p) || lg == 0 || decide (count ≤ n) then .next s
    else
      let d := s.hbmRead p (s.getF (Fld.LOG_APPEND_BASE p) * 4096 + n % 2 ^ lg * 16) 16
      let ty := fieldAt d 0 1
      let len := fieldAt d 4 4
      let a := fieldAt d 8 8
      let reject (why : Nat) : Host.Outcome State Fault Refusal :=
        .next ((s.raise srcLogger p clsOperation 0x7003 0 [w n, w why]).appendDone p n)
      if !appendable ty then reject 1
      else if len % 16 ≠ 0 ∨ 1048576 < 32 + len then reject 2
      else if !s.hbmRangeOk p a len then reject 3
      else if s.hbmBadTag p a len then .next (s.integrityAt p a)
      else if !s.flag Fld.LOG_CTL_ENABLE then .next ((s.incSat Fld.LOG_STATUS_LOST 1).appendDone p n)
      else if s.logSpace (32 + len) then .next ((s.logAccept ty p 0xFFFF none (s.hbmRead p a len)).appendDone p n)
      else .next s

/-! ## Durability (R332 to R334, R505) -/

/-- The cartridge takes writes of the logger (R505), which SVC_CRT_EJECT has not stopped (R507). -/
def State.crtWritable (s : State) : Bool :=
  (s.getF Fld.CRT_STATUS_STATE == 6 || s.getF Fld.CRT_STATUS_STATE == 7) && !s.crt.ejected
/-- SVC_CRT_EJECT waits for the writes in flight, and no further one is issued (R507). -/
def State.ejecting (s : State) : Bool := s.acc.calls.any fun c => c.wait == some .eject
/-- The local write of a block is waived (R505). -/
def State.localWaived (s : State) : Bool := !s.crtWritable || s.flag Fld.LOG_STATUS_FULL
/-- The mirror counts. -/
def State.mirrorCounts (s : State) : Bool := s.flag Fld.LOG_CTL_MIRROR_EN && s.flag Fld.LOG_STATUS_MIRRORED

def State.blockDurable (s : State) (b : LogBlock) : Bool :=
  (b.written || s.localWaived) && (b.acked || !s.mirrorCounts) && (b.written || b.acked)

/-- The last LSN up to which every block is durable. -/
def State.durableTo (s : State) : List LogBlock → Option Nat → Option Nat
  | [], n => n
  | b :: t, n => if s.blockDurable b then State.durableTo s t (some b.last) else n

/-- LOG_DURABLE advances; each COMMIT record that becomes durable increments its partition's DURABLE_GEY (R332). -/
def State.syncDurable (s : State) : State :=
  match s.durableTo (s.log.blocks.filter fun b => s.notDurable b.last) s.log.durable with
  | none => s
  | some new =>
    let done := s.log.records.filter fun r => r.type == 5 && s.notDurable r.lsn && decide (r.lsn ≤ new)
    done.foldl (fun s r =>
      if s.flag (Fld.LOG_APPEND_GEY_EN r.part) then s.geyRelease 96 (s.getF (Fld.LOG_APPEND_GEY_DURABLE_GEY r.part)) 1 else s)
      (({ s with log := { s.log with durable := some new } }).setReg Reg.LOG_DURABLE (dw new))

/-- The tail of the own log: the LSN of the SNAPSHOT record of the oldest retained base snapshot (R334); until that record has been
accepted, the LSN that was next when the snapshot became durable. -/
def State.logTail (s : State) : Nat :=
  match (s.log.kept.filter fun x => x.scope == 2).head? with
  | some x => ((s.log.records.find? fun r => r.type == 8 && fieldAt r.bytes 0x20 8 == x.id).map LogRecord.lsn).getD x.lsn
  | none => 0

/-- Blocks of the own-log area that lie at or above the tail. -/
def State.ownBlocks (s : State) : Nat := (s.log.blocks.filter fun b => b.written && decide (s.logTail ≤ b.last)).length
def State.ownCapacity (s : State) : Nat := s.getF Fld.LOG_AREA_OWN_GB * 10 ^ 9 / 65536

/-- FILL follows the area; LOG_FULL at 90 % of it, once. -/
def State.syncFill (s : State) : State :=
  let fill := min 100 (s.ownBlocks * 100 / max 1 s.ownCapacity)
  let s1 := s.setF Fld.LOG_STATUS_FILL fill
  if 90 ≤ fill ∧ !s1.log.warned then
    ({ s1 with log := { s1.log with warned := true } }).raise srcLogger wholeDevice clsInfo 0x7001 0 [w fill, 1]
  else if fill < 90 then { s1 with log := { s1.log with warned := false } }
  else s1

/-- Mark a block. -/
def markBlock (l : List LogBlock) (first : Nat) (f : LogBlock → LogBlock) : List LogBlock :=
  l.map fun b => if b.first = first then f b else b

/-- LOG_BLOCK_WRITTEN: the write of the oldest block that is not on the cartridge completes, the open block closing where
there is no other; a write that would pass the tail stops writing (R334). -/
def execLogBlockWritten (s : State) : Host.Outcome State Fault Refusal := live s <|
  if !s.flag Fld.LOG_CTL_ENABLE then .next s
  else
    let s1 := if (s.log.blocks.any fun b => !b.written) || s.ejecting then s else s.closeBlock
    if s1.localWaived then .next s1.syncDurable
    else match s1.log.blocks.find? fun b => !b.written with
      | none => .next s1
      | some b =>
        if s1.ownCapacity ≤ s1.ownBlocks then
          .next ((s1.setF Fld.LOG_STATUS_FULL 1).raise srcLogger wholeDevice clsInfo 0x7001 0 [w (s1.getF Fld.LOG_STATUS_FILL), 2])
        else
          let s2 := { s1 with log := { s1.log with blocks := markBlock s1.log.blocks b.first fun x => { x with written := true } } }
          .next s2.syncDurable.syncFill.mirrorSend

/-- MIRROR_BLOCK_ARRIVE: a block of another device reaches the mirror ingress area and this device's cartridge, and is
acknowledged; without a writable cartridge, or with the origin's part of 64 GB full, it is not (R332, R505, R506). -/
def execMirrorBlockArrive (origin first : Nat) (data : List (BitVec 8)) (s : State) : Host.Outcome State Fault Refusal := live s <|
  let s1 := s.logBufWrite logBufBytes s.log.ingressPos data
  let s2 := { s1 with log := { s1.log with ingressPos := (s1.log.ingressPos + data.length) % logBufBytes } }
  if !s2.crtWritable then .next s2
  else if 64 * 10 ^ 9 / 65536 ≤ (s2.log.mirrored.filter fun b => b.1 == origin).length then
    .next (s2.raise srcNvme wholeDevice clsInfo 0xC00A 0 [2, w origin])
  else .next { s2 with log := { s2.log with
    mirrored := s2.log.mirrored ++ [(origin, first, data)]
    ackOut := s2.log.ackOut ++ [(origin, first)] } }

/-- Firmware acknowledges blocks to their origins, each with a GEY.INC on MIRROR_CND as its credits allow (R332).  Which geyser of the origin
counts them the manual does not say: a free value. -/
def State.ackPump (s : State) : Nat → State
  | 0 => s
  | k + 1 =>
    match s.log.ackOut with
    | [] => s
    | (d, _) :: t =>
      let c := s.getF Fld.LOG_CTL_MIRROR_CND
      if !s.cndIs c 0 1 then s
      else
        let (x, s1) := s.draw
        let e := rmoBytes opcGinc 0 2 0xFF 0 (d * 2 ^ 56 + geySpace + x.toNat % 65536 * 32) 0 1 0 0 0
        match (s1.cndCheck c).1.postRmo c e (.firmware []) none with
        | some s2 => State.ackPump { s2 with log := { s2.log with ackOut := t } } k
        | none => s
/-- As many acknowledgements as wait. -/
def State.ackSend (s : State) : State := s.ackPump s.log.ackOut.length

/-- MIRROR_ACK: the mirror has written a block (R332); once every block is acknowledged the mirror is current again
(R333). -/
def execMirrorAck (first : Nat) (s : State) : Host.Outcome State Fault Refusal := live s <|
  let s1 := { s with log := { s.log with blocks := markBlock s.log.blocks first fun x => { x with acked := true }, mirrorAt := s.time } }
  let caught := s1.flag Fld.LOG_CTL_MIRROR_EN && s1.log.blocks.all fun b =>
    b.acked || match s1.log.unmirrored with
      | some n => decide (b.last < n)
      | none => false
  let s2 := if caught then ({ s1 with log := { s1.log with unmirrored := none } }).setF Fld.LOG_STATUS_MIRRORED 1 else s1
  .next s2.syncDurable.mirrorSend

/-- MIRROR_TIMEOUT (R333): nothing has been acknowledged for 1 s while blocks wait. -/
def execMirrorTimeout (s : State) : Host.Outcome State Fault Refusal := live s <|
  match s.log.blocks.find? fun b => !b.acked with
  | none => .next s
  | some b =>
    if !s.mirrorCounts || decide (s.time < s.log.mirrorAt + 10 ^ 9) then .next s
    else
      let s1 := ({ s with log := { s.log with unmirrored := some b.first } }).setF Fld.LOG_STATUS_MIRRORED 0
      .next ((s1.raise srcLogger wholeDevice clsInfo 0x7002 0 ([w (s.getF Fld.LOG_CTL_MIRROR_DEVICE), 0] ++ w2 (dw b.first))).syncDurable)

/-- Firmware sends the mirror every block from the first that was not mirrored (R333, R508). -/
def State.remirror (s : State) : State :=
  let from' := s.log.unmirrored.getD 0
  let bs := s.log.blocks.filter fun b => decide (from' ≤ b.last) && !b.acked
  { s with log := { s.log with mirrorOut := s.log.mirrorOut ++ bs.map fun (b : LogBlock) => (s.getF Fld.LOG_CTL_MIRROR_DEVICE, b.first) } }.mirrorSend

/-! ## Snapshots (R344) -/

/-- SNAPSHOT_FAILED. -/
def State.snapFailed (s : State) (id reason : Nat) : State :=
  s.raise srcLogger wholeDevice clsOperation 0x7006 0 (w2 (dw id) ++ [w reason])

/-- A snapshot in progress is given up (R345, R507): the previous one remains the latest. -/
def State.snapAbandon (s : State) (reason : Nat) : State :=
  match s.log.snap with
  | none => s
  | some x => (({ s with log := { s.log with snap := none, snapLost := false } }).setFs [(Fld.LOG_SNAP_STATE, 0), (Fld.LOG_SNAP_SCOPE, 0)]).snapFailed x.id reason

/-- SNAPSHOT_DRAIN_END: the snapshot and its mirror are complete; its SNAPSHOT record is appended, the older one of the scope is
discarded, and a base snapshot moves the tail so that writing resumes (R334, R344).  A device of the group that failed during the drain
ends it (R345). -/
def execSnapshotDrainEnd (s : State) : Host.Outcome State Fault Refusal := live s <|
  match s.log.snap with
  | none => .next s
  | some x =>
    if s.getF Fld.LOG_SNAP_STATE < 3 then .next s
    else if s.log.snapLost then .next (s.snapAbandon 3)
    else
      let (m, s1) := s.draw
      let y := { x with lsn := (s1.reg Reg.LOG_LSN).toNat }
      let keep := s1.log.kept.filter fun z => z.scope != x.scope
      let s2 := ({ s1 with log := { s1.log with snap := none, kept := keep ++ [y] } }).setFs
        [(Fld.LOG_SNAP_STATE, 0), (Fld.LOG_SNAP_SCOPE, 0), (Fld.LOG_SNAP_LAST_ID, x.id)]
      let s3 := s2.logRecord 8 wholeDevice srcFumarole (toLe 8 x.id ++ toLe 1 x.scope ++ toLe 7 0 ++ toLe 8 x.step ++ toLe 8 m.toNat)
      let s4 := s3.raise srcLogger wholeDevice clsInfo 0x7005 0 (w2 (dw x.id) ++ [w x.scope] ++ w2 (dw x.step) ++ [w x.stopUs])
      .next (if x.scope = 2 then (s4.setF Fld.LOG_STATUS_FULL 0).syncFill else s4)

/-! ## Upsets and refill (R354, R355) -/

/-- UPSET_WINDOW_END: the counts clear, unless the window is 0. -/
def execUpsetWindowEnd (s : State) : Host.Outcome State Fault Refusal := live s <|
  .next (if s.getF Fld.LOG_THR_WINDOW_SECONDS = 0 then s else { s with ret := { s.ret with upsets := [] } })

/-- A REFILL record (Table 10.2). -/
def State.refillRecord (s : State) (kind lost repl src step : Nat) (part : Nat) : State :=
  s.logRecord 0x0B part srcFumarole (toLe 1 kind ++ toLe 3 0 ++ toLe 4 lost ++ toLe 4 repl ++ toLe 4 src ++ toLe 8 step ++ toLe 8 0)

/-- Abort an open attempt of a partition with CAUSE 3. -/
def State.abortAttempt (s : State) (p : Nat) : State :=
  match s.bankOf p with
  | some j => if s.bankState j = bkOpen then s.bankAbort j 3 else s
  | none => s

/-- A logical array goes onto its spare, IDLE, with its reservations there; without a spare it stays unmapped. -/
def State.refillOne (s : State) (r : Refill) : State :=
  let p := r.info.id.part
  let step := match s.bankOf p with | some j => (s.reg (Reg.PRF_STEP_NUM j)).toNat | none => 0
  match r.spare with
  | none => (s.refillRecord 1 r.lost 0xFFFFFFFF 0xFFFFFFFF step p).abortAttempt p
  | some m =>
    let info := { r.info with phys := m }
    let s3 := s.mapCtx info
    let s4 := (s3.raise srcFumarole wholeDevice clsInfo 0x7007 0 ([1, w r.lost, w m] ++ w2 (dw step))).refillRecord 1 r.lost m 0xFFFFFFFF step p
    (s4.abortAttempt p).raise srcFumarole wholeDevice clsInfo 0x7008 0 [1, w r.lost, w m, w ((s.time - r.time) / 1000000)]

/-- ARRAY_REFILL: firmware maps the next logical array that a retired array held. -/
def execArrayRefill (s : State) : Host.Outcome State Fault Refusal := live s <|
  match s.ret.refill with
  | [] => .next s
  | r :: t => .next (({ s with ret := { s.ret with refill := t } }).refillOne r)

/-- A function-level reset of a partition discards its descriptors that are not accepted and resets its bank (R335, R358). -/
def State.logResetOf (s : State) (p : Nat) : State :=
  ({ s with log := { s.log with appended := Sparse.set natDefault s.log.appended p 0 } }).resetRegs (Reg.LOG_APPEND p) (Reg.LOG_APPEND p + 0x40)

end Sys2Proof.Machine
end

