-- ==== Sys2Proof/Machine/Vents.lean ====
section
/-! DEFINITION. Ethernet ports: reception and classification, transmit queues, link state, lanes, MACsec and timestamps
(R359 to R377, R381, R382). -/
namespace Sys2Proof.Machine

def ventDefault : Nat → Vent := fun _ => Vent.initial
def State.vent (s : State) (v : Nat) : Vent := Sparse.get ventDefault s.eth.vents v
def State.setVent (s : State) (v : Nat) (x : Vent) : State := { s with eth := { s.eth with vents := Sparse.set ventDefault s.eth.vents v x } }
def State.modVent (s : State) (v : Nat) (f : Vent → Vent) : State := s.setVent v (f (s.vent v))

/-- Event sources of a vent and of a lane (R382). -/
def srcVent (v : Nat) : Nat := (48 + v) * 256 + 0xFF
def srcLane (v l : Nat) : Nat := (64 + v) * 256 + l
def srcQueue (v q : Nat) : Nat := (48 + v) * 256 + q

/-- The PTP source: the lowest-numbered vent with SOURCE = 1, and its PORT (R377). -/
def State.ptpPort (s : State) : Option (Nat × Nat) :=
  ((List.range 16).find? fun v => s.flag (Fld.VNT_PTP_CFG_SOURCE v)).map fun v => (v, s.getF (Fld.VNT_PTP_CFG_PORT v))

/-- While a freeze is read out through port 0 of vent 0, that port's clock runs on (R480, R484), and in HOLD that of the PTP source port
(R377, R476). -/
def ventLive (v n : Nat) (s : State) (o : Host.Outcome State Fault Refusal) : Host.Outcome State Fault Refusal :=
  if s.alive || (s.pow.state == .frozen && s.flag Fld.FRZ_CFG_MODE && !s.flag Fld.FRZ_STATUS_PORT_FALLBACK && v == 0 && n == 0) ||
     (s.pow.state == .hold && s.ptpPort == some (v, n)) then o
  else .next s


/-- A command on a port that the device has. -/
def onPort (v n : Nat) (f : State → State) (s : State) : Host.Outcome State Fault Refusal :=
  if 16 ≤ v then .fault (.noSuchUnit v) else if 4 ≤ n then .fault (.noSuchUnit n) else .next (f s)

/-- Set or clear bit `n` of a field. -/
def State.setBit (s : State) (f : FieldRef) (n : Nat) (b : Bool) : State :=
  let v := s.getF f
  if (bits v n 1 == 1) == b then s else s.setF f (if b then v + 2 ^ n else v - 2 ^ n)

/-! ## Lanes (Tables 11.1, 11.3) -/

def State.laneOk (s : State) (v l : Nat) : Bool := bits (s.getF (Fld.VNT_STATUS_LANES v)) l 1 == 1
/-- The lanes that a port uses, under the port mode and the retired lanes; none when the port has ended. -/
def State.portLanes (s : State) (v n : Nat) : List Nat :=
  match s.getF (Fld.VNT_CTL_MODE v) with
  | 0 =>
    if n ≠ 0 then []
    else if [0, 1, 2, 3].all (s.laneOk v) then [0, 1, 2, 3]
    else if [0, 1].all (s.laneOk v) then [0, 1]
    else if [2, 3].all (s.laneOk v) then [2, 3]
    else []
  | 1 => if n < 2 then [2 * n, 2 * n + 1].filter (s.laneOk v) else []
  | 2 => if n < 4 then [n].filter (s.laneOk v) else []
  | _ => []
/-- Rate code of a number of lanes (VNT_STATUS.RATE), and the rate in Gb/s. -/
def rateCode (lanes : Nat) : Nat := if lanes = 4 then 3 else lanes
def laneMask (l : List Nat) : Nat := (l.map fun i => 2 ^ i).sum

/-- A port begins to train, where it has lanes and its vent is enabled. -/
def State.trainPort (s : State) (v n : Nat) : State :=
  if s.flag (Fld.VNT_CTL_ENABLE v) && !s.flag (Fld.VNT_STATUS_RETIRED v) && s.domainRuns (48 + v) && s.domainRuns (64 + v) &&
      !(s.portLanes v n).isEmpty then
    s.setBit (Fld.VNT_STATUS_TRAINING v) n true
  else s.setBit (Fld.VNT_STATUS_TRAINING v) n false

/-! ## Links (R370, R371) -/

/-- The frames that wait on a port: those of firmware, and the ZRT frames of paths that use it. -/
def State.waitsOn (s : State) (v n : Nat) (e : Nat × Nat × ZrtFrame) : Bool := e.1 == v && s.pathPort e.2.2.dst v == some n

/-- A port's queues are emptied, and counted in TX_FLUSHED. -/
def State.flushPort (s : State) (v n : Nat) : State :=
  let z := s.rmo.out.filter (s.waitsOn v n)
  let mine (f : FwFrame) : Bool := f.vent == v && f.port == n
  let k := z.length + (s.eth.fwOut.filter mine).length
  let s1 := { s with
    rmo := { s.rmo with out := s.rmo.out.filter fun e => !s.waitsOn v n e }
    eth := { s.eth with fwOut := s.eth.fwOut.filter fun f => !mine f } }
  (s1.modVent v fun x => { x with wire := x.wire.filter fun y => y.1 != n }).incF (Fld.VNT_TX_FLUSHED_COUNT v n) k

/-- Paths that have no usable port left on their vent go DOWN (R370). -/
def State.pathsFollow (s : State) (v : Nat) : State :=
  (List.range 256).foldl (fun s d =>
    if (s.path d v).valid && (s.path d v).state == stUp && (s.pathPort d v).isNone then s.pathStops d v stDown 3 else s) s

/-- A port leaves UP: its queues are flushed, its paths move or go DOWN, and VNT_LINK_DOWN names the cause. -/
def State.linkDown (s : State) (v n cause lane : Nat) (errs : List Nat) : State :=
  if !s.portUp v n then s
  else
    let s1 := s.flushPort v n
    let s2 := (s1.setBit (Fld.VNT_STATUS_LINK_UP v) n false).setF ⟨Reg.VNT_STATUS v, 4 * n, 4⟩ 0
    let s3 := s2.modVent v fun x => { x with loss := (x.loss.filter fun y => y.port != n) ++ [LinkLoss.mk n s.time errs] }
    (s3.raise (srcVent v) wholeDevice clsInfo 0x8002 0 [w v, w n, w cause, w lane]).pathsFollow v

/-- PORT_LINK_DOWN (R371): the port has lost signal or lock (1) or its FEC fails (2); it trains again at once. -/
def execPortLinkDown (v n cause : Nat) (errs : List Nat) (s : State) : Host.Outcome State Fault Refusal := ventLive v n s <|
  onPort v n (fun s => if s.portUp v n then (s.linkDown v n cause 0xFF errs).trainPort v n else s) s

/-- The vent has no port left: it retires (R372). -/
def State.retireVent (s : State) (v : Nat) : State :=
  if s.flag (Fld.VNT_STATUS_RETIRED v) then s
  else
    let s1 := (s.setF (Fld.VNT_STATUS_RETIRED v) 1).setF (Fld.VNT_STATUS_TRAINING v) 0
    let s2 := ((s1.raise (srcVent v) wholeDevice clsRetired 0x0004 0 [w (48 + v), 0xFF, 0xFFFFFFFF]).domainOk (48 + v) false).domainOk
      (64 + v) false
    let s3 := { s2 with ret := { s2.ret with list := s2.ret.list ++ [(48 + v, 0xFF)] } }
    (s3.fallToDegraded (if v = 0 then 5 else 0)).minimalCheck

/-- A lane is recorded as retired, and UNIT_RETIRED is raised for it (R42, R356). -/
def State.laneOut (s : State) (v l : Nat) : State :=
  let s1 := ({ s with ret := { s.ret with list := s.ret.list ++ [(64 + v, l)] } }).setF (Fld.VNT_LANE_STAT_RETIRED v l) 1
  (s1.setBit (Fld.VNT_STATUS_LANES v) l false).raise (srcLane v l) wholeDevice clsRetired 0x0004 0 [w (64 + v), w l, 0xFFFFFFFF]

/-- A lane retires (R372, Table 11.3): the port that held it goes on at the reduced width, or ends; the device is no longer as shipped
(R44). -/
def State.retireLane (s : State) (v l : Nat) : State :=
  if !s.laneOk v l then s
  else
    match (List.range (s.ventPorts v)).find? fun n => (s.portLanes v n).contains l with
    | none => (s.laneOut v l).fallToDegraded 0
    | some n =>
      let old := s.portLanes v n
      let s2 := s.laneOut v l
      let new := s2.portLanes v n
      let s3 := if new.isEmpty then s2
        else s2.raise (srcVent v) wholeDevice clsInfo 0x8004 0 [w v, w n, w (laneMask old), w (laneMask new), w (200 * new.length)]
      let s4 := (s3.linkDown v n 4 l []).trainPort v n
      if (List.range (s4.ventPorts v)).all fun m => (s4.portLanes v m).isEmpty then s4.retireVent v else s4.fallToDegraded 0

/-- The lane to which a retrain is charged (R371). -/
def chargedLane (lanes : List Nat) (failed : Option Nat) (errs : List Nat) : Option Nat :=
  match failed with
  | some l => some l
  | none =>
    let worst := (lanes.map fun l => errs.getD l 0).foldl max 0
    if worst = 0 then none else lanes.find? fun l => errs.getD l 0 == worst

/-- PORT_LINK_UP (R371, R372): a port in TRAINING completes it; a return within 1 s of the loss is a retrain, charged to a lane
(`failed` is the lane on which training failed, if on one). -/
def execPortLinkUp (v n : Nat) (failed : Option Nat) (s : State) : Host.Outcome State Fault Refusal := ventLive v n s <|
  onPort v n (fun s =>
    let lanes := s.portLanes v n
    if bits (s.getF (Fld.VNT_STATUS_TRAINING v)) n 1 = 0 ∨ lanes.isEmpty then s
    else
      let s1 := ((s.setBit (Fld.VNT_STATUS_TRAINING v) n false).setBit (Fld.VNT_STATUS_LINK_UP v) n true).setF ⟨Reg.VNT_STATUS v, 4 * n, 4⟩
        (rateCode lanes.length)
      let s2 := s1.raise (srcVent v) wholeDevice clsInfo 0x8001 0 [w v, w n, w (200 * lanes.length), w (laneMask lanes)]
      match (s.vent v).loss.find? fun y => y.port == n with
      | none => s2
      | some y =>
        let s3 := s2.modVent v fun x => { x with loss := x.loss.filter fun z => z.port != n }
        if y.time + 1000000000 < s.time then s3
        else match chargedLane lanes failed y.errs with
          | none => s3
          | some l =>
            let s4 := (s3.raise (srcLane v l) wholeDevice clsCorrected 0x8003 0 [w v, w n, w l, w ((s.time - y.time) / 1000)]).incSat
              (Fld.VNT_LANE_STAT_CHARGES v l) 1
            let s5 := s4.countUpset (keyLane (4 * v + l))
            if s5.upsetDue (keyLane (4 * v + l)) (max 1 (s5.getF Fld.LOG_THR0_LANE_RETRAIN)) then s5.retireLane v l else s5) s

/-! ## ENABLE and RESET (R362, R381) -/

/-- ENABLE of a vent goes to a value: training starts on every port, or every port goes down. -/
def State.ventEnable (s : State) (v : Nat) (on : Bool) : State :=
  let s1 := s.setF (Fld.VNT_CTL_ENABLE v) (if on then 1 else 0)
  if on then (List.range (s1.ventPorts v)).foldl (fun s n => if s.portUp v n then s else s.trainPort v n) s1
  else ((List.range 4).foldl (fun s n => s.linkDown v n 3 0xFF []) s1).setF (Fld.VNT_STATUS_TRAINING v) 0

/-- Counters and timestamps of a vent return to zero. -/
def State.clearVentCounts (s : State) (v : Nat) : State :=
  let s1 := (s.resetRegs (Reg.VNT_TXQ_UNDERRUN v 0) (Reg.VNT_TXQ_UNDERRUN v 8)).resetRegs (Reg.VNT_TX_FRAMES v 0) (Reg.VNT_TX_FRAMES v 4)
  let s2 := (List.range 4).foldl (fun s l => s.setF (Fld.VNT_LANE_STAT_SYMERR v l) 0) s1
  (s2.resetRegs (Reg.VNT_PTP_FIFO v) (Reg.VNT_PTP_TS_INFO v + 8)).modVent v fun x => { x with fifo := [] }

/-- The links of a held device (R377, R476): every vent goes down, and the PTP source port retrains on the oscillator. -/
def State.holdLinks (s : State) : State :=
  (List.range 16).foldl (fun s v => s.setFs [(Fld.VNT_STATUS_LINK_UP v, 0), (Fld.VNT_STATUS_RATE v, 0), (Fld.VNT_STATUS_TRAINING v,
    match s.ptpPort with
    | some (u, n) => if u = v ∧ s.flag (Fld.VNT_CTL_ENABLE v) then 2 ^ n else 0
    | none => 0)]) s

/-- What a vent reset, a warm firmware reset and the gating of a vent's domains have in common (Table 11.4). -/
def State.ventClear (s : State) (v : Nat) : State :=
  let s1 := (List.range 4).foldl (fun s n => (s.linkDown v n 3 0xFF []).flushPort v n) s
  let s2 := (s1.clearVentCounts v).modVent v fun x => { x with sec := [], loss := [], limit := [], wire := [] }
  let s3 := (s2.setF (Fld.VNT_SEC_STATUS_PORTS v) 0).setF (Fld.VNT_STATUS_TRAINING v) 0
  (List.range (s3.ventPorts v)).foldl (fun s n => s.trainPort v n) s3

/-- A vent reset (Table 11.4), which erases the MACsec CAK as well (Table 13.6). -/
def State.ventReset (s : State) (v : Nat) : State := (s.ventClear v).modVent v fun x => { x with cak := false, mka := false }

/-- A write of VNT_CTL: the locked fields first (by whoever may write them), then RESET, then ENABLE. -/
def State.ventCtl (s : State) (v value : Nat) : State :=
  let s1 := if s.flag (Fld.VNT_CTL_ENABLE v) || s.flag (Fld.VNT_LOCK_LOCK v) then s
    else s.setFs [(Fld.VNT_CTL_AN_EN v, bits value 5 1), (Fld.VNT_CTL_PMD v, bits value 3 2), (Fld.VNT_CTL_MODE v, bits value 0 2)]
  let on := bits value 31 1 == 1
  let s2 := if on == s1.flag (Fld.VNT_CTL_ENABLE v) then s1 else s1.ventEnable v on
  if bits value 30 1 = 1 then s2.ventReset v else s2

/-- A frame of firmware or the sinter enters queue 7 of its port, behind the ZRT frames that wait there (R366). -/
def State.fwSend (s : State) (f : FwFrame) : State :=
  let ahead := (s.rmo.out.filter fun e => e.2.1 == 7 && s.waitsOn f.vent f.port e).length
  { s with eth := { s.eth with fwOut := s.eth.fwOut ++ [{ f with ahead }] } }

/-! ## MACsec (R373 to R375) -/

def State.portSec (s : State) (v n : Nat) : PortSec := ((s.vent v).sec.find? fun e => e.1 == n).map Prod.snd |>.getD ⟨none, []⟩
def State.setPortSec (s : State) (v n : Nat) (x : PortSec) : State :=
  s.modVent v fun y => { y with sec := (y.sec.filter fun e => e.1 != n) ++ [(n, x)] }
/-- VALIDATE, where 3 acts as 2. -/
def State.secMode (s : State) (v : Nat) : Nat := min 2 (s.getF (Fld.VNT_SEC_CFG_VALIDATE v))

/-- Packet numbers at which a transmit association warns and at which it stops (R375). -/
def State.pnWarn (s : State) (v : Nat) : Nat := if s.flag (Fld.VNT_SEC_CFG_SUITE v) then 2 ^ 62 else 0xC0000000
def State.pnLast (s : State) (v : Nat) : Nat := if s.flag (Fld.VNT_SEC_CFG_SUITE v) then 2 ^ 64 - 1 else 0xFFFFFFFF

/-- The transmit association in use on a port, with the packet number that its next frame takes; none once it has used the last one
(R375).  DEDUCED: the last packet number is itself used. -/
def State.txSa (s : State) (v n : Nat) : Option (Nat × Nat) := (s.portSec v n).tx.filter fun e => decide (e.2 ≤ s.pnLast v)
/-- An association has used its last packet number, and no other is in use. -/
def State.txSpent (s : State) (v n : Nat) : Bool := (s.portSec v n).tx.isSome && (s.txSa v n).isNone

/-- VNT_SEC_STATUS of a port follows its transmit association; the threshold is passed when a packet number above it is taken (DEDUCED). -/
def State.syncSec (s : State) (v n : Nat) : State :=
  s.setF ⟨Reg.VNT_SEC_STATUS v, 4 * n, 4⟩ (match s.txSa v n with
    | some (an, pn) => 1 + (if s.pnWarn v + 1 < pn then 2 else 0) + 4 * (an % 4)
    | none => 0)

/-- A frame leaves under the transmit association and takes one packet number: VNT_MACSEC_PN as it passes the threshold, and as it is the
last. -/
def State.usePn (s : State) (v n : Nat) : State :=
  match s.txSa v n with
  | none => s
  | some (an, pn) =>
    let say (s : State) (why : Nat) : State := s.raise (srcVent v) wholeDevice clsInfo 0x8006 0 [w v, w n, w an, w why]
    let s1 := (s.setPortSec v n { s.portSec v n with tx := some (an, pn + 1) }).syncSec v n
    let s2 := if pn = s.pnWarn v + 1 then say s1 1 else s1
    if pn = s.pnLast v then say s2 2 else s2

/-- The sinter installs a SAK on a port whose MKA has agreed on an association number: it takes over on transmit at the next frame start with
packet number 1, and joins the receive channel, which holds two (R373, R375). -/
def State.installSak (s : State) (v n an : Nat) : State :=
  let old := (s.portSec v n).rx.filter fun r => r.1 != an % 4
  (s.setPortSec v n ⟨some (an % 4, 1), old.drop (old.length - 1) ++ [(an % 4, 0)]⟩).syncSec v n

/-- What MACsec says of a received frame: a reason to discard it (Table 11.5), or the receive associations after it. -/
def State.secCheck (s : State) (v n : Nat) (f : RxFrame) : Option Nat × PortSec :=
  let x := s.portSec v n
  let eapol := match f.body with
    | .eapol _ => true
    | _ => false
  if s.secMode v = 0 then (none, x)
  else match f.sec with
    | none => (if s.secMode v = 2 ∧ !eapol then some 3 else none, x)
    | some t => match x.rx.find? fun e => e.1 == t.an with
      | none => (some 4, x)
      | some (_, top) =>
        if !t.icvOk then (some 1, x)
        else if t.pn + s.getF (Fld.VNT_SEC_CFG_REPLAY_WIN v) < top then (some 2, x)
        else (none, { x with rx := x.rx.map fun e => if e.1 = t.an then (t.an, max top t.pn) else e })

/-! ## Timestamps (R376) -/

/-- INFO word of a timestamp. -/
def stampInfo (sent unsync : Bool) (port msg domain seq : Nat) : Word64 :=
  dw ((if sent then 2 ^ 33 else 0) + (if unsync then 2 ^ 32 else 0) + port * 2 ^ 30 + msg % 16 * 2 ^ 24 + domain % 256 * 2 ^ 16 + seq % 65536)

/-- COUNT and the head registers follow the FIFO. -/
def State.syncFifo (s : State) (v : Nat) : State :=
  let q := (s.vent v).fifo
  let h := q.head?.getD ⟨0, 0, 0⟩
  (((s.setF (Fld.VNT_PTP_FIFO_COUNT v) q.length).setReg (Reg.VNT_PTP_TS_TIME v) h.time).setReg (Reg.VNT_PTP_TS_AON v) h.aon).setReg
    (Reg.VNT_PTP_TS_INFO v) h.info

/-- A timestamp enters the FIFO, or is lost; the oscillator count is a free value. -/
def State.stamp (s : State) (v n : Nat) (sent : Bool) (msg domain seq : Nat) : State :=
  if !s.flag (Fld.VNT_PTP_CFG_EN v) then s
  else if 64 ≤ (s.vent v).fifo.length then
    (s.incSat (Fld.VNT_PTP_FIFO_LOST v) 1).raise (srcVent v) wholeDevice clsInfo 0x8008 0 [w v, 1]
  else
    let (aon, s1) := s.draw
    let t := if sent then s.time + s.getF (Fld.VNT_PTP_LAT_TX_LAT v) else s.time - s.getF (Fld.VNT_PTP_LAT_RX_LAT v)
    (s1.modVent v fun x => { x with
      fifo := x.fifo ++ [PtpStamp.mk (dw t) (aon &&& 0xFFFFFFFFFFFF) (stampInfo sent s.unsync n msg domain seq)] }).syncFifo v

/-- VNT_PTP_FIFO_POP: the head entry goes. -/
def State.fifoPop (s : State) (v : Nat) : State := (s.modVent v fun x => { x with fifo := x.fifo.drop 1 }).syncFifo v

/-! ## Receiving (R364, R365) -/

/-- MAX_FRAME as it acts. -/
def State.maxFrame (s : State) (v : Nat) : Nat := min 9216 (max 1518 (s.getF (Fld.VNT_MAC_CFG_MAX_FRAME v)))
/-- The VLAN tag is accepted: none, a priority tag, or VID, whatever VLAN_EN, which the transmit side alone obeys (R363; DEDUCED). -/
def State.vlanOk (s : State) (v : Nat) (tag : Option Nat) : Bool := match tag with
  | none => true
  | some i => i == 0 || i == s.getF (Fld.VNT_MAC_CFG_VID v)

/-- What firmware does with a frame of rows 7 to 10: it answers ARP requests, Neighbor Solicitations and Echo Requests, writes a next hop
that it has resolved (R363), installs a key on which MKA agrees (R373), and answers a Sync of the clock that it follows with a Delay_Req
marked for a timestamp (R377; its sequenceId is a free value, and one Delay_Req per Sync is a DESIGN CHOICE). -/
def State.fwTakes (s : State) (v n len : Nat) : FrameBody → State
  | .neighbour .arpRequest => s.fwSend (FwFrame.mk v n 9 false 64 none 0)
  | .neighbour .solicitation => s.fwSend (FwFrame.mk v n 9 true 90 none 0)
  | .neighbour .echo => s.fwSend (FwFrame.mk v n 9 true len none 0)
  | .neighbour (.answer (some m)) => s.setFs [(Fld.VNT_NEXTHOP_MAC v n, m), (Fld.VNT_NEXTHOP_VALID v n, 1)]
  | .eapol (some an) => if (s.vent v).mka then s.installSak v n an else s
  | .ptp _ 0 domain _ => match s.eth.ptp with
    | some (transport, own) =>
      if s.ptpPort == some (v, n) && own == domain then
        let (seq, s1) := s.draw
        s1.fwSend (FwFrame.mk v n 7 (transport != 0) (match transport with
          | 0 => 64
          | 1 => 90
          | _ => 110) (some (1, domain, seq.toNat % 65536)) 0)
      else s
    | none => s
  | _ => s

/-- Hand a frame to firmware or the sinter, within 10,000 in a second of device time per port (R365). -/
def State.toFirmware (s : State) (v n row : Nat) (f : RxFrame) : State :=
  let sec := s.time / 1000000000
  let k := match (s.vent v).limit.find? fun e => e.1 == n && e.2.1 == sec with
    | some e => e.2.2
    | none => 0
  if 10000 ≤ k then s.incSat (Fld.VNT_RX_DISCARD_FIRMWARE_LIMIT v n) 1
  else
    let s1 := s.modVent v fun x => { x with limit := (x.limit.filter fun e => e.1 != n) ++ [(n, sec, k + 1)] }
    let s2 := { s1 with eth := { s1.eth with toFw := s1.eth.toFw ++ [(v, n, row)] } }
    (s2.incF (Fld.VNT_RX_FRAMES_COUNT v n) 1).fwTakes v n f.len f.body

/-- FEC counts of a port and symbol errors of its lanes (R360). -/
def State.fecCount (s : State) (v n : Nat) (f : RxFrame) : State :=
  let s1 := (s.incF (Fld.VNT_FEC_CORR_COUNT v n) f.fecCorr).incF (Fld.VNT_FEC_UNCORR_COUNT v n) f.fecUncorr
  (s.portLanes v n).foldl (fun s l => s.incSat (Fld.VNT_LANE_STAT_SYMERR v l) (f.symErr.getD l 0)) s1

/-- FRAME_RECEIVE (R364): the first row of Table 11.2 that applies. -/
def execFrameReceive (v n : Nat) (f : RxFrame) (s : State) : Host.Outcome State Fault Refusal := live s <|
  onPort v n (fun s =>
    let other (s : State) : State := s.incSat (Fld.VNT_RX_DISCARD_OTHER v n) 1
    if !s.portUp v n then s
    else
    let s := s.fecCount v n f
    if !f.fcsOk || decide (0 < f.fecUncorr) || decide (f.len < 64) || decide (s.maxFrame v < f.len) then
      s.incF (Fld.VNT_RX_FCS_ERR_COUNT v n) 1
    else match s.secCheck v n f with
      | (some why, _) => (s.incSat (Fld.VNT_RX_DISCARD_SEC v n) 1).raise (srcVent v) wholeDevice clsInfo 0x8007 0 [w v, w n, w why]
      | (none, sec) =>
        let s := if sec = s.portSec v n then s else s.setPortSec v n sec
        let dstOk := match f.dst with
          | .other => false
          | _ => true
        if !dstOk then other s
        else if !s.vlanOk v f.vid then other s
        else if s.secMode v = 0 ∧ f.sec.isSome then other s
        else match f.body with
          | .macControl => s.incSat (Fld.VNT_RX_DISCARD_PAUSE v n) 1
          | .udp port mine frag z =>
            if mine && !frag && port == s.getF Fld.CND_ZRT_CFG_PORT then
              (if f.full then s.incF (Fld.VNT_RX_OVERFLOW_COUNT v n) 1 else (s.incF (Fld.VNT_RX_FRAMES_COUNT v n) 1).zrtReceive v z)
            else other s
          | .ptp event msg domain seq => (if event then s.stamp v n false msg domain seq else s).toFirmware v n 7 f
          | .eapol _ => s.toFirmware v n 8 f
          | .neighbour _ => s.toFirmware v n 9 f
          | .lldp => if s.flag (Fld.VNT_MAC_CFG_LLDP_EN v) then s.toFirmware v n 10 f else other s
          | .recovery r => if v = 0 ∧ n = 0 ∧ r.magicOk then s.toFirmware v n 11 f else other s
          | .other => other s) s

/-! ## Transmitting (R366 to R368) -/

/-- EAPOL apart, frames wait while STRICT has no transmit association (R374), and in either mode once an association has used its last
packet number (R375). -/
def State.txBarred (s : State) (v n : Nat) : Bool := s.secMode v != 0 && (s.txSa v n).isNone && (s.secMode v == 2 || s.txSpent v n)
/-- Firmware's or the sinter's frame may leave: EAPOL whatever MACsec says, and an IP frame only to a VALID next hop (R363). -/
def State.fwMay (s : State) (v n : Nat) (f : FwFrame) : Bool :=
  (f.kind == 8 || !s.txBarred v n) && (!f.ip || s.flag (Fld.VNT_NEXTHOP_VALID v n))

/-- Length of a ZRT frame from destination address to FCS. -/
def State.zrtLen (s : State) (v : Nat) (f : ZrtFrame) : Nat :=
  wireBytes (s.path f.dst v) (match f.body with
    | .data segs => segs
    | _ => []) - 20 + if s.flag (Fld.VNT_MAC_CFG_VLAN_EN v) then 4 else 0

/-- Start a frame: it is on the wire until the port starts the next.  It carries the port's own MAC address, the next hop's on an IP frame
and a VLAN tag whose PCP is the queue (R363), and, EAPOL apart, leaves under the transmit association in use (R373, R374). -/
def State.startFrame (s : State) (v n q len : Nat) (ip plain : Bool) (z : Option (ZrtFrame × ZrtPacket)) : State :=
  let safe := s.secMode v != 0 && !plain && (s.txSa v n).isSome
  let f : SentFrame := {
    vent := v, port := n, queue := q, src := s.getF (Fld.VNT_MAC_ADDR_BASE v) + n
    hop := if ip then some (s.getF (Fld.VNT_NEXTHOP_MAC v n)) else none
    vlan := if s.flag (Fld.VNT_MAC_CFG_VLAN_EN v) then some (s.getF (Fld.VNT_MAC_CFG_VID v), q) else none
    sec := if safe then s.txSa v n else none, zrt := z }
  let s1 := { s with eth := { s.eth with sent := s.eth.sent ++ [f] } }
  let s2 := (s1.modVent v fun x => { x with wire := (x.wire.filter fun y => y.1 != n) ++ [(n, q, len)] }).incF (Fld.VNT_TX_FRAMES_COUNT v n) 1
  if safe then s2.usePn v n else s2

/-- The head frame of a queue: of firmware and the sinter, or ZRT's with the vent and queue it waits in. -/
inductive QueueHead where
  | fw (f : FwFrame)
  | zrt (e : Nat × Nat × ZrtFrame)
  deriving DecidableEq, Repr

/-- The head frame of queue `q` of a port that may leave; in queue 7 the frames of firmware and of ZRT leave in the order they entered. -/
def State.queueHead (s : State) (v n q : Nat) : Option QueueHead :=
  let z := if s.txBarred v n then none else s.rmo.out.find? fun e => e.2.1 == q && s.waitsOn v n e
  match if q = 7 then s.eth.fwOut.find? fun f => f.vent == v && f.port == n && s.fwMay v n f else none with
  | some f => if f.ahead = 0 then some (.fw f) else match z with
    | some e => some (.zrt e)
    | none => some (.fw f)
  | none => z.map .zrt

/-- START of a queue's threshold, where 0 acts as 1. -/
def State.txStart (s : State) (v q : Nat) : Nat := max 1 (s.getF (Fld.VNT_TXQ_THRESH_START v q))
/-- Bytes of the head frame from destination address to FCS. -/
def State.headLen (s : State) (v : Nat) : QueueHead → Nat
  | .fw f => f.len + if s.flag (Fld.VNT_MAC_CFG_VLAN_EN v) then 4 else 0
  | .zrt e => s.zrtLen v e.2.2
/-- A head frame is eligible once the smaller of its length and the start threshold has reached the port's buffer (R367). -/
def State.eligible (s : State) (v q buffered : Nat) (h : QueueHead) : Bool := decide (min (s.headLen v h) (64 * s.txStart v q) ≤ buffered)

/-- Start a queue's head frame; a frame longer than MAX_FRAME is not sent (R363). -/
def State.startHead (s : State) (v n q : Nat) (h : QueueHead) : State := match h with
  | .fw f =>
    let s1 := ({ s with eth := { s.eth with fwOut := s.eth.fwOut.erase f } }).startFrame v n q (s.headLen v h) f.ip (f.kind == 8) none
    match f.stamp with
    | some (msg, domain, seq) => s1.stamp v n true msg domain seq
    | none => s1
  | .zrt e =>
    let fwOut := if q = 7 then s.eth.fwOut.map fun (f : FwFrame) => if f.vent = v ∧ f.port = n then { f with ahead := f.ahead - 1 } else f
      else s.eth.fwOut
    let s1 := { s with rmo := { s.rmo with out := s.rmo.out.erase e }, eth := { s.eth with fwOut } }
    if s.maxFrame v < s.headLen v h then s1 else s1.startFrame v n q (s.headLen v h) true false (some (e.2.2, s.zrtPacket v e.2.2))

/-- FRAME_TRANSMIT_START (R366, R367): the port is free and starts the eligible head frame of its highest-numbered queue that has one;
`buffered` gives for each queue the bytes of its head frame that have reached the port's buffer. -/
def execFrameTransmitStart (v n : Nat) (buffered : List Nat) (s : State) : Host.Outcome State Fault Refusal := live s <|
  onPort v n (fun s =>
    if !s.portUp v n then s
    else
      ([7, 6, 5, 4, 3, 2, 1, 0].findSome? fun q =>
        ((s.queueHead v n q).filter fun h => s.eligible v q (buffered.getD q 0) h).map fun h => s.startHead v n q h).getD s) s

/-- TRANSMIT_UNDERRUN (R368): the frame on the wire ends with a bad FCS, and its queue's START rises; it is never lowered, so where CEIL
lies below it it stays (DEDUCED). -/
def execTransmitUnderrun (v n : Nat) (s : State) : Host.Outcome State Fault Refusal := live s <|
  onPort v n (fun s =>
    match (s.vent v).wire.find? fun y => y.1 == n with
    | none => s
    | some (_, q, _) =>
      let start := max (s.getF (Fld.VNT_TXQ_THRESH_START v q)) (min (s.getF (Fld.VNT_TXQ_THRESH_CEIL v q)) (s.txStart v q + s.getF (Fld.VNT_TXQ_THRESH_STEP v q)))
      let s1 := (s.setF (Fld.VNT_TXQ_THRESH_START v q) start).incSat (Fld.VNT_TXQ_UNDERRUN_COUNT v q) 1
      (s1.modVent v fun x => { x with wire := x.wire.filter fun y => y.1 != n }).raise (srcQueue v q) wholeDevice clsInfo 0x8005 0
        [w v, w n, w q, w start]) s

end Sys2Proof.Machine
end

