-- ==== Sys2Proof/Machine/Resets.lean ====
section
/-! DEFINITION. What the resets do (R402 to R405, R412, R470 to R474), and how the die stops in a freeze or in HOLD
(R476, R479, R480). -/
namespace Sys2Proof.Machine

/-! ## Array reset (R164, R193, R203, R472) -/

/-- Issued accumulator instructions and released operations complete. -/
def State.finishArray (s : State) (n : Nat) : State :=
  let s1 := (s.arr n).xfers.foldl (fun s x => xferMove s n x []) s
  let s2 := s1.modArr n fun a => { a with xfers := [], mma := [] }
  (List.range (s2.arr n).drains.length).foldl (fun s _ => (s.drainStart n [] []).drainEnd n) s2

/-- Uncommitted groups are abandoned at once. -/
def State.abandonAll (s : State) (n : Nat) : State :=
  let s1 := s.giveBackAll n
  { s1.modArr n fun a => { a with cur := none, done := [], stopReq := none, stopBit := false, stepping := false, switchReq := none } with
    cnd := { s1.cnd with waiters := s1.cnd.waiters.filter fun x => x.arr != n } }

/-- Mark every accumulator line of an array zero. -/
def State.clearAcc (s : State) (n : Nat) : State :=
  { s with mem := { s.mem with acc := Sparse.clear s.mem.acc (n * accBytes) ((n + 1) * accBytes) } }

/-- Array reset of a physical array. -/
def State.arrayReset (s : State) (n : Nat) : State :=
  if s.arrState n = stRetired then s
  else
    let id := s.ident n
    let s1 := ((s.abandonAll n).finishArray n).dropClaims n id
    let s2 := { s1 with
      gey := { s1.gey with wake := setBool s1.gey.wake (wakeKey id.part id.larray) false }
      parked := s1.parked.filter fun k => k.phys != n }
    let a := s2.arr n
    let s3 := (s2.clearAcc n).setArr n { Arr.initial with
      released := a.released, rmoOut := a.rmoOut, rmoRanges := a.rmoRanges, hbmGets := a.hbmGets }
    let s4 := s3.resetRegs (Reg.ARR_CTL n) (Reg.ARR_CTL n + 0x10000)
    s4.raise (srcArray n) id.part clsInfo 0x2003 0 [w id.larray, 0, 0]

/-! ## Mailbox channels (R402, R405, R412) -/

def mbIdle : Nat := 0
def mbPosted : Nat := 1
def mbTaken : Nat := 2
def mbAborted : Nat := 3
def mbRefused : Nat := 4
def State.mbx (s : State) (c : Nat) : Nat := s.getF (Fld.MBX_STATUS_STATE c)

/-- The function of a channel, whether the function sends on it, and the doorbell bit at a function that receives. -/
def chanFn (c : Nat) : Nat := c % 64
def chanFromFn (c : Nat) : Bool := c / 64 % 2 == 0
def chanBit (c : Nat) : Nat := if 192 ≤ c then 1 else 0

/-- The receiver's doorbell bit of a channel (Table 12.7): a host inbox's, or the fumarole's or sinter's. -/
def State.chanBell (s : State) (c : Nat) (on : Bool) : State :=
  if chanFromFn c then { s with host := { s.host with inbox := setBool s.host.inbox c on } }
  else if on then s.ringDoorbell (chanFn c) (chanBit c) else s.clearDoorbell (chanFn c) (chanBit c)

/-- The data words of a channel read zero. -/
def State.clearData (s : State) (c : Nat) : State := s.resetRegs (Reg.MBX_DATA c 0) (Reg.MBX_DATA c 0 + 0x40)

/-- A posted message is aborted: the channel is cleared and carries the reason (R412). -/
def State.mbxAbort (s : State) (c reason : Nat) : State :=
  if s.mbx c ≠ mbPosted then s
  else
    let s1 := ((s.clearData c).chanBell c false).setFs [(Fld.MBX_STATUS_STATE c, mbAborted), (Fld.MBX_STATUS_REASON c, reason)]
    let s2 := { s1 with host := { s1.host with postedAt := Sparse.set natDefault s1.host.postedAt c 0 } }
    s2.raise (if chanFromFn c then srcPcie else srcFumarole) (chanFn c) clsInfo 0x9002 0 [w c, w reason]

/-- A reset of the sender withdraws its message: the channel returns to its reset values. -/
def State.mbxWithdraw (s : State) (c : Nat) : State :=
  let s1 := if s.mbx c = mbPosted then s.chanBell c false else s
  let s2 := s1.resetRegs (Reg.MBX_DATA c 0) (Reg.MBX_DATA c 0 + 0x80)
  { s2 with host := { s2.host with
      postedAt := Sparse.set natDefault s2.host.postedAt c 0
      inChannel := s2.host.inChannel.filter fun r => replyChannel r.sinter r.part != c } }

/-- What becomes of a reply or notice whose delivery was aborted (R416): with reason 2 or 3 it waits for the function's
next message, until three deliveries have failed; with reason 1 or 4 it is discarded. -/
def State.replyFailed (s : State) (c reason : Nat) (counted : Bool) : State :=
  let mine (r : Reply) : Bool := replyChannel r.sinter r.part == c
  match s.host.inChannel.find? mine with
  | none => s
  | some r =>
    let s1 := { s with host := { s.host with inChannel := s.host.inChannel.filter fun x => !mine x } }
    let lose : State := if counted then
        { s1 with host := { s1.host with lost := Sparse.set natDefault s1.host.lost c (Sparse.get natDefault s1.host.lost c + 1) } }
      else s1
    if (reason = 2 ∨ reason = 3) ∧ r.fails + 1 < 3 then
      { s1 with host := { s1.host with retry := s1.host.retry ++ [{ r with fails := r.fails + 1 }] } }
    else lose

/-- A message into a function is aborted, with what follows for a reply. -/
def State.abortTo (s : State) (c reason : Nat) (counted : Bool) : State :=
  if s.mbx c = mbPosted then (s.mbxAbort c reason).replyFailed c reason counted else s

/-- The four channels of a function: a sender into it reads ABORTED with reason 1, its own messages are withdrawn, its inbox
returns to its reset values. -/
def State.clearChannels (s : State) (f : Nat) (counted : Bool) : State :=
  let s1 := ((s.abortTo (64 + f) 1 counted).abortTo (192 + f) 1 counted)
  let s2 := (s1.mbxWithdraw f).mbxWithdraw (128 + f)
  s2.resetRegs (Reg.DBL_PEND f) (Reg.DBL_PEND f + 0x10)

/-! ## Service calls that end without a reply -/

/-- The calls of a partition in progress are abandoned (R402): no reply. -/
def State.dropCalls (s : State) (p : Nat) : State :=
  { s with acc := { s.acc with calls := s.acc.calls.filter fun c => c.caller.part != p, perf := s.acc.perf.filter fun c => c.part != p } }

/-! ## Interrupt state of functions -/

/-- The MSI-X table, Pending Bit Array and aperture registers of a function return to their reset values. -/
def State.resetMsix (s : State) (f : Nat) : State :=
  let s1 := s.dropHeld (fun h => h.fn == f) 1
  let s2 := { s1 with host := { s1.host with
      msixEn := s1.host.msixEn.filter fun x => x != f
      msixFnMask := s1.host.msixFnMask.filter fun x => x != f
      d3hot := s1.host.d3hot.filter fun x => x != f
      msixTable := Sparse.clear s1.host.msixTable (f * 4096) ((f + 1) * 4096)
      pba := Sparse.clear s1.host.pba (f * 2048) ((f + 1) * 2048) } }
  s2.resetRegs (Reg.PCI_APERTURE f) (Reg.PCI_APERTURE f + 0x10)

/-! ## Function-level reset (R402, R403) -/

/-- A change of a partition's state, with PART_STATE. -/
def State.setPartState (s : State) (p st cause : Nat) : State :=
  let old := s.partState p
  (s.setF (Fld.PRT_STATE_STATE p) st).raise srcFumarole p clsInfo 0x9001 0 [w p, w old, w st, w cause]

/-- The arrays on which a partition's contexts are. -/
def State.arraysOf (s : State) (p : Nat) : List Nat :=
  (List.range 144).filter fun n => decide ((s.ident n).part = p) && s.arrState n != stRetired

/-- Steps 1 and 2, and the requests of step 3: a reset, or the reset that destroys (R399). -/
def State.resetBegin (s : State) (p st cause : Nat) : State :=
  let s1 := s.setPartState p st cause
  let s2 := ((s1.clearChannels p false).dropCalls p).resetMsix p
  let s3 := { s2 with host := { s2.host with
      replies := s2.host.replies.filter fun r => r.part != p
      retry := s2.host.retry.filter fun r => r.part != p
      lost := Sparse.set natDefault (Sparse.set natDefault s2.host.lost (64 + p) 0) (192 + p) 0 } }
  (List.range 144).foldl (fun s n => s.askStop p n) s3

def State.flrBegin (s : State) (p cause : Nat) : State := s.resetBegin p psResetting cause

/-- Every array of a partition stands at a group boundary. -/
def State.arraysStopped (s : State) (p : Nat) : Bool :=
  (s.arraysOf p).all fun n => s.arrState n != stRunning && s.arrState n != stWaiting && s.arrState n != stSwitching

/-- The step bank and the plumes of a partition abort, and conduits are destroyed with their operations. -/
def State.resetWork (s : State) (p : Nat) (keep : List Nat) : State :=
  let s1 := (s.plmResetOf p).bankResetOf p
  (s1.conduitsOf p).foldl (fun s c => if keep.contains c then s else (s.abortConduit c 3).cndDestroy c) s1

/-- The geysers of a partition return to COUNT 0 with their pending firings discarded (R235). -/
def State.resetGeysers (s : State) (p : Nat) : State :=
  let lo := s.getF (Fld.PRT_GEY_BASE p)
  let hi := lo + s.getF (Fld.PRT_GEY_COUNT p)
  let s1 := s.resetRegs (Reg.GEY_COUNT lo) (Reg.GEY_COUNT hi)
  { s1 with gey := { s1.gey with pending := s1.gey.pending.filter fun f => !(decide (lo ≤ f.gey) && decide (f.gey < hi)) } }

/-- Streams into a partition's conduit: their records are discarded, they begin again at SEQ 0, and partition 0 learns of each how
many were lost (R39).  The record comes from the stream's own source, which held the records; the manual does not name its source (DESIGN
CHOICE). -/
def State.resetStreams (s : State) (p : Nat) : State :=
  let mine (x : Stream) : Bool := decide (x.dest = .part p)
  let gone := s.streams.filter mine
  let s1 := { s with streams := s.streams.filter fun x => !mine x, seqs := s.seqs.filter fun q => q.cnd != s.getF (Fld.PRT_EVT_CONDUIT p) }
  gone.foldl (fun s x =>
    let k := (x.queue.map EvtRec.count).sum + x.lost
    if k = 0 then s
    else
      let r : EvtRec := { ord := s.raised, time := s.time, source := x.source, part := p, cls := clsInfo, code := 0x0003
                          flags := if s.unsync then 1 else 0, count := k, addr := 0, detail := [w x.source, w p, 0, 0, 0, 0, 0, 0] }
      { s with streams := addRecord s.streams s.zeroDest r, raised := s.raised + 1 }) s1

/-- The operand-cache units and accumulator lines of a partition's contexts read zero, its groups are CLOSED, its program
slots unbound, and its arrays IDLE (R164, R193, R199, R203, R442). -/
def State.resetContexts (s : State) (p : Nat) : State :=
  let s1 := (s.arraysOf p).foldl (fun s n =>
    let off := s.ocFirst n
    let s0 := s.modArr n fun a => { Arr.initial with ident := a.ident, released := a.released, rmoOut := a.rmoOut, hbmGets := a.hbmGets }
    let s1 := (s0.dropClaims n (s.ident n)).zeroLines n (s.getF (Fld.ARR_ACC_CFG_RES_FIRST n)) (s.getF (Fld.ARR_ACC_CFG_RES_COUNT n))
    let s2 := s1.ocWrite n off (List.replicate (s.ocSize n) 0)
    let s3 := (s2.accSync n).setFs [(Fld.ARR_VEC_STATUS_BOUND n, 0), (Fld.ARR_OC_POISON_VALID n, 0), (Fld.ARR_OC_POISON_LINE n, 0), (Fld.ARR_WAKE_LATCH n, 0)]
    s3.setArrState n stIdle) s
  let s1 := (s1.contexts.filter fun i => i.id.part == p).foldl (fun (s : State) i => s.clearOc i.phys (i.ocFirst * 65536) (i.ocUnits * 65536)) s1
  let s1 := (s1.parked.filter fun k => k.id.part == p).foldl (fun (s : State) k =>
    k.acc.foldl (fun (s : State) g => s.zeroLines k.phys g.span.1 g.span.2) s) s1
  { s1 with
    parked := s1.parked.filter fun k => k.id.part != p
    contexts := s1.contexts.map fun (c : CtxInfo) => if c.id.part = p then { c with saved := false } else c
    claims := s1.claims.filter fun c => c.part != p
    gey := { s1.gey with wake := Sparse.clear s1.gey.wake (p * 256) (p * 256 + 256) } }

/-- A fresh memory key set, and zeros with fresh tags over every segment of a partition. -/
def State.newMemKey (s : State) (p : Nat) : State :=
  { s with sec := { s.sec with keyGen := Sparse.set natDefault s.sec.keyGen p (Sparse.get natDefault s.sec.keyGen p + 1) } }
def State.physSegs (s : State) (p : Nat) : List Nat := (List.range 768).filterMap fun r => s.segPhys p r
def State.zeroSegs (s : State) (l : List Nat) : State :=
  l.foldl (fun s t => { s with mem := { s.mem with
    hbm := Sparse.clear s.mem.hbm (t * gib) ((t + 1) * gib)
    poison := Sparse.clear s.mem.poison (t * gib / 64) ((t + 1) * gib / 64)
    badTag := Sparse.clear s.mem.badTag (t * gib / 64) ((t + 1) * gib / 64) } }) s

/-- A reset ends every session bound to a partition, erases its keys, and leaves it UNSEALED without consent. -/
def State.endSessions (s : State) (p : Nat → Bool) : State :=
  let gone := s.sec.sessions.filter fun x => p x.part
  let s1 := { s with sec := { s.sec with sessions := s.sec.sessions.filter fun x => !p x.part } }
  (gone.foldl (fun s x => s.raise srcSinter x.part clsInfo 0xA002 0 [w x.part, 2, w s.sec.sessions.length]) s1).setF
    Fld.SEC_SESSIONS_OPEN s1.sec.sessions.length

def State.unseal (s : State) (p : Nat) : State :=
  let was := s.isSealed p
  let s1 := { s with sec := { s.sec with
      policies := s.sec.policies.filter fun x => x.part != p
      keys := s.sec.keys.filter fun x => x.part != p
      seals := s.sec.seals.filter fun x => x.part != p } }
  let off (s : State) (f : FieldRef) : State := s.setBit f p false
  let s2 := off (off (off (off s1 Fld.SEC_SEAL0_SEALED) Fld.SEC_SEAL1_SEALED) Fld.SEC_CONSENT0_CONSENT) Fld.SEC_CONSENT1_EXPLICIT
  let s3 := s2.endSessions fun q => q == p
  if was then s3.raise srcSinter p clsInfo 0xA003 0 [w p, 2] else s3

/-- Create a conduit at a number (Table 6.2): its ring is zeroed and its descriptor written with VALID. -/
def State.cndMake (s : State) (c p kind log2 ring cls : Nat) (notify : Option Nat) : State :=
  let x : Cnd := { ring, valid := true, kind, home := c % 4, log2depth := log2, owner := p, cls, notifyEn := notify.isSome,
                   notify := notify.getD 0, prod := 0, cons := 0, granted := 0, dropped := 0, posted := 0, taken := 0 }
  let s1 := (s.cndUncache c).hbmWrite p ring (List.replicate (2 ^ log2 * 64) 0)
  let s2 := s1.cndWriteTable c x
  { s2 with cnd := { s2.cnd with owned := (s2.cnd.owned.filter fun e => e.1 != c) ++ [(c, p)] } }

/-- The three conduits of R396 of a partition. -/
def State.makeThree (s : State) (i : PartInfo) : State :=
  let s1 := s.cndMake i.evt i.part 3 i.evtDepth i.evtRing 0 none
  let s2 := s1.cndMake i.gey i.part 1 10 i.geyRing 0 none
  let s3 := s2.cndMake i.rmo i.part 1 10 i.rmoRing 0 none
  s3.setFs [(Fld.PRT_EVT_VALID i.part, 1), (Fld.PRT_EVT_CONDUIT i.part, i.evt), (Fld.CND_GEY_RMO_VALID i.part, 1),
    (Fld.CND_GEY_RMO_CONDUIT i.part, i.gey)]

/-- Usage counters of a partition restart at 0 (R409). -/
def State.resetUse (s : State) (p : Nat) : State := s.resetRegs (Reg.PRT_USE_ARRAY p) (Reg.PRT_USE_LENT p + 8)

/-- Steps 3 to 5, once the arrays stand. -/
def State.resetContents (s : State) (p : Nat) : State :=
  let s1 := ((s.resetWork p []).resetGeysers p).resetStreams p
  let s2 := (s1.resetRegs (Reg.NUM_FLAGS p) (Reg.NUM_FLAGS p + 0x40)).logResetOf p
  let s3 := s2.resetRegs (Reg.CND_POST_DATA p 0) (Reg.CND_POST_DATA p 0 + 0x100)
  let s4 := ((s3.resetContexts p).resetUse p).resetRegs (Reg.PRT_IRQ p) (Reg.PRT_IRQ p + 4)
  let s5 := ((s4.unseal p).newMemKey p).zeroSegs (s4.physSegs p)
  { s5 with stopped := s5.stopped.filter fun q => q != p }

/-- The reset ends: the conduits exist again, the partition is ACTIVE, and PARTITION_READY follows. -/
def State.flrEnd (s : State) (p : Nat) : State :=
  let s1 := s.resetContents p
  let s2 := match s1.parts.find? fun i => i.part == p with
    | some i => s1.makeThree i
    | none => s1
  (s2.setPartState p psActive 2).notice p 3 []

/-- Resets whose arrays have stopped end. -/
def State.settleResets (s : State) : State :=
  (List.range 64).foldl (fun s p => if p ≠ 0 ∧ s.partState p = psResetting ∧ s.arraysStopped p then s.flrEnd p else s) s

/-- The partial reset with which partition 0 recovers (R404): steps 3 and 4, but for the conduits and geysers of device-wide
services; a conduit among those that the error destroyed exists again under its number. -/
def State.keptConduits (s : State) : List Nat :=
  (if s.flag Fld.TOP_EVT_DEST_ENABLE then [s.getF Fld.TOP_EVT_DEST_CONDUIT] else []) ++
  (if s.flag Fld.LOG_CTL_MIRROR_EN then [s.getF Fld.LOG_CTL_MIRROR_CND] else []) ++
  (if s.flag (Fld.CND_GEY_RMO_VALID 0) then [s.getF (Fld.CND_GEY_RMO_CONDUIT 0)] else []) ++
  (s.parts.filter fun i => i.part == 0).flatMap fun i => [i.evt, i.gey, i.rmo]

/-- A kept conduit that was destroyed is valid and empty again; streams into a re-created event conduit begin at SEQ 0, as its destruction
has left them, behind one EVENTS_LOST each. -/
def State.reviveConduit (s : State) (c : Nat) : State :=
  let x := s.cndGet c
  if x.valid then s
  else
    let s1 := s.cndMake c 0 x.kind x.log2depth x.ring x.cls (if x.notifyEn then some x.notify else none)
    if c = s.getF Fld.TOP_EVT_DEST_CONDUIT ∧ s.flag Fld.TOP_EVT_DEST_ENABLE then
      let again (t : Stream) : Stream := match t.dest with
        | .part q => if q = 0 then { t with lost := max 1 t.lost } else t
        | _ => { t with lost := max 1 t.lost }
      { s1 with streams := s1.streams.map again }
    else s1

/-- The geysers that firmware uses for device-wide services: those that the service conduits increment (DEDUCED: R404 does not list
them). -/
def State.keptGeysers (s : State) (keep : List Nat) : List Nat :=
  (keep.filterMap fun c => let x := s.cndGet c; if x.notifyEn then some x.notify else none)
/-- Partition 0's geysers, but for those, return to COUNT 0 with their pending firings discarded (R235, R404). -/
def State.resetGeysersZero (s : State) (keep : List Nat) : State :=
  let mine (g : Nat) : Bool := s.geyOwner g == 0 && !(s.keptGeysers keep).contains g
  let gone (off : Nat) : Bool := decide (Reg.GEY_COUNT 0 ≤ off) && decide (off < Reg.GEY_COUNT 65536) && mine ((off - Reg.GEY_COUNT 0) / 32)
  { s with
    regs := s.regs.filter fun e => !gone e.1
    acc := { s.acc with halves := s.acc.halves.filter fun l => !gone l.reg }
    gey := { s.gey with pending := s.gey.pending.filter fun f => !mine f.gey } }

def State.resetZero (s : State) : State :=
  let keep := s.keptConduits
  let s0 := (s.arraysOf 0).foldl (fun s n => s.abandonAll n) s
  let s1 := (s0.resetWork 0 keep).resetGeysersZero keep
  let s2 := (s1.resetRegs (Reg.NUM_FLAGS 0) (Reg.NUM_FLAGS 0 + 0x40)).logResetOf 0
  let s3 := (s2.resetContexts 0).resetUse 0
  let s4 := { s3 with stopped := s3.stopped.filter fun q => q != 0 }
  (keep.foldl (fun s c => s.reviveConduit c) s4).notice 0 3 []

/-! ## Endpoint resets (Table 12.6) -/

/-- PERST_N, hot reset and a link that goes down: host-side channels are cleared with reason 1, MSI-X tables, PBA and aperture
registers reset, PRT settings kept; the link is down and IDE keys are erased at PERST_N. -/
def State.endpointReset (s : State) : State :=
  let s1 := partNumbers.foldl (fun s f => ((s.abortTo (64 + f) 1 true).abortTo (192 + f) 1 true)) s
  let s2 := partNumbers.foldl (fun s f => (s.mbxWithdraw f).mbxWithdraw (128 + f)) s1
  let s3 := s2.dropHeld (fun _ => true) 3
  let s4 := partNumbers.foldl (fun s f => (s.resetMsix f).resetRegs (Reg.DBL_PEND f) (Reg.DBL_PEND f + 0x10)) s3
  { s4 with host := { s4.host with vfEnable := false } }

/-- The link's registers follow it (PCI_LINK), with PCIE_LINK. -/
def State.linkLost (s : State) : State :=
  if s.flag Fld.PCI_LINK_UP then
    let gen := s.getF Fld.PCI_LINK_GEN
    let wd := s.getF Fld.PCI_LINK_WIDTH
    (s.setFs [(Fld.PCI_LINK_UP, 0), (Fld.PCI_LINK_GEN, 0), (Fld.PCI_LINK_WIDTH, 0)]).raise srcPcie wholeDevice clsInfo 0x9007 0 [0, w gen, w wd]
  else s

/-! ## Warm firmware reset (R473) -/

/-- A slot is being written. -/
def State.slotWriting (s : State) : Bool := s.getF Fld.FW_SLOT0_STATE == 1 || s.getF Fld.FW_SLOT1_STATE == 1

/-- Outstanding operations to other devices complete with DEST_RESET. -/
def State.restartOps (s : State) : State :=
  let own := s.ownDev
  let stop (o : RmoOp) : RmoOp := if o.dev ≠ own ∧ o.status.isNone then { o with status := some 0x0A } else o
  { s with rmo := { s.rmo with ops := s.rmo.ops.map stop, inbound := [], closing := [], stranded := [], late := [] } }

/-- What a PARTITION-class error of partition 0 stops beside its arrays (R404): its plumes and its step bank abort, and a conduit whose
ledger failed is destroyed. -/
def State.settleStops (s : State) : State :=
  let s1 := s.cnd.doomed.foldl (fun s c => (s.abortConduit c 2).cndDestroy c) s
  if !s1.stopped.contains 0 then s1
  else
    let s2 := (s1.slotsOf 0).foldl (fun s k => s.plmAbort k (s.plume k).desc.mypos) s1
    let s3 := match s2.bankOf 0 with
      | some j => if s2.bankState j = bkOpen ∨ s2.bankState j = bkAborting then s2.bankAbort j 4 else s2
      | none => s2
    { s3 with stopped := s3.stopped.filter fun q => q != 0 }

/-- Arrays that a STOP waits at go on to it. -/
def State.pokeStops (s : State) : State :=
  (List.range 144).foldl (fun s n => if (s.arr n).stopBit then s.poke n else s) s

/-- The part of a warm firmware reset that precedes the choice of a slot. -/
def State.warmBegin (s : State) : State :=
  let s1 := partNumbers.foldl (fun s p => ((s.mbxAbort p 2).mbxWithdraw (64 + p))) s
  let s2 := s1.endSessions fun _ => true
  let s3 := (List.range 16).foldl (fun s v => s.ventClear v) s2
  let (b, s4) := s3.draw
  let s5 := (s4.setReg Reg.CND_ZRT_BOOT (b &&& 0xFFFFFFFF)).restartOps
  let s6 := s5.incSat Fld.RST_CAUSE_WARM 1
  let s7 := { s6 with
    acc := { s6.acc with calls := [], perf := [] }
    sec := { s6.sec with nonces := [], assembling := [] }
    host := { s6.host with replies := s6.host.replies.filter fun r => r.sinter, retry := [], lost := [] }
    pow := { s6.pow with warm := true, warmHeld := false } }
  s7

/-! ## Freeze and HOLD (R476, R479, R480, R484) -/

/-- The frozen device's use of port 0 of vent 0 (R484). -/
def State.portFallback (s : State) : Bool :=
  s.flag (Fld.VNT_STATUS_RETIRED 0) || bits (s.getF (Fld.CLK_GATE_STAT_RUN 1)) 16 1 == 0 || (s.portLanes 0 0).isEmpty

/-- The die stops. -/
def State.freezeNow (s : State) (cause : Nat) : State :=
  let port := s.flag Fld.FRZ_CFG_MODE
  let fall := port && s.portFallback
  let s1 := s.setFs [(Fld.FRZ_STATUS_FROZEN, 1), (Fld.FRZ_STATUS_HELD, 0), (Fld.FRZ_STATUS_CAUSE, cause), (Fld.FRZ_STATUS_PASS, 0),
    (Fld.FRZ_STATUS_PORT_FALLBACK, if fall then 1 else 0), (Fld.FRZ_STATUS_PORT_WAIT, if port && !fall && !s.portUp 0 0 then 1 else 0)]
  { s1 with
    pow := { s1.pow with state := .frozen, drives := s1.flag Fld.FRZ_CFG_DRIVE && (cause == 2 || cause == 3) }
    dbg := { s1.dbg with captureId := s1.dbg.captureId + 1, offset := 0, tapCounted := false, bit := 0 } }

/-- A freeze trigger (R479): ignored while FROZEN, HOLD or DORMANT; discarded while REFCLK is absent in a start-up that has
locked a PLL (R477). -/
def State.freezeTrigger (s : State) (cause : Nat) : State :=
  match s.pow.state with
  | .running => s.freezeNow cause
  | .starting => if s.pow.locked && !s.pow.refclk then s else if s.pow.resetLow then s else s.freezeNow cause
  | _ => s

/-! ## Whole-device resets (R470, R471, Table 14.6) -/

/-- Registers that come out of a whole-device reset from fuses, flash records or the always-on island. -/
def fuseRegs : List Nat :=
  [Reg.SEC_LIFECYCLE, Reg.SEC_OWNER, Reg.FW_SLOT0, Reg.FW_SLOT1, Reg.FW_SVN_MIN, Reg.FW_POLICY, Reg.FW_STATUS, Reg.CRT_BIND]
/-- Registers that RESET_N keeps as well. -/
def islandRegs : List Nat :=
  [Reg.VNT_WAKE_CFG, Reg.VNT_WAKE_TIMES, Reg.VNT_WAKE_STATUS, Reg.PWR_WAKE, Reg.CLK_AON_TRIM]

def State.copyRegs (s old : State) (l : List Nat) : State := l.foldl (fun s r => s.setReg r (old.reg r)) s

/-- The device after a whole-device reset with a cause: everything at its reset values but what flash, fuses, the cartridge
and the island keep.  The log survives as far as it is durable. -/
def State.wholeReset (s : State) (cause : Nat) (keepIsland : Bool) : State :=
  let wasFrozen := s.flag Fld.FRZ_STATUS_FROZEN
  let s1 := { State.reset with
    pending := s.pending
    fresh := s.fresh
    mem := { State.reset.mem with lostSeg := s.mem.lostSeg }
    ret := { State.reset.ret with list := s.ret.list }
    log := { Log.initial with
      records := s.log.records.filter fun r => !s.notDurable r.lsn
      blocks := s.log.blocks.filter fun b => !s.notDurable b.last
      durable := s.log.durable
      mirrored := s.log.mirrored, kept := s.log.kept, nextSnap := s.log.nextSnap }
    sec := { Sec.initial with
      owner := s.sec.owner, groupKey := s.sec.groupKey, erase := s.sec.erase
      keyGen := Sparse.set natDefault [] 255 (Sparse.get natDefault s.sec.keyGen 255 + 1)
      capturesMade := if keepIsland then s.sec.capturesMade else 0 }
    host := { HostSide.initial with perst := s.host.perst }
    fw := { Fw.initial with
      slots := s.fw.slots, group := s.fw.group, retained := s.fw.retained, recoveryOut := s.fw.recoveryOut }
    crt := { s.crt with ejected := false }
    i3c := if keepIsland then s.i3c else I3c.initial
    dbg := { Debug.initial with captureId := s.dbg.captureId }
    pow := { Power.initial with
      resetLow := s.pow.resetLow, freezeLow := s.pow.freezeLow, tripped := s.pow.tripped && keepIsland,
      refclk := s.pow.refclk && keepIsland, heldUs := s.pow.heldUs } }
  let s2 := (s1.copyRegs s fuseRegs).setFs [(Fld.RST_CAUSE_CAUSE, cause), (Fld.RST_CAUSE_AFTER_FREEZE, if wasFrozen then 1 else 0),
    (Fld.FW_STATUS_RECOVERY, 0), (Fld.FW_STATUS_BUSY, 0)]
  let s3 := if keepIsland then (s2.copyRegs s islandRegs).setFs [(Fld.SEC_DEBUG_EVER, s.getF Fld.SEC_DEBUG_EVER),
      (Fld.SEC_DEBUG_CAPTURES, s.getF Fld.SEC_DEBUG_CAPTURES), (Fld.CLK_SRC_REFCLK_OK, if s.pow.refclk then 1 else 0)]
    else s2
  let unwrite (s : State) (f : FieldRef) : State := if s.getF f = 1 then s.setF f 0 else s
  let s4 := unwrite (unwrite s3 Fld.FW_SLOT0_STATE) Fld.FW_SLOT1_STATE
  s4.setF Fld.CRT_STATUS_PRESENT (if s.crt.drive.isSome then 1 else 0)

end Sys2Proof.Machine
end

