-- ==== Sys2Proof/Machine/Events.lean ====
section
/-! DEFINITION. Posting, waiting and discarding of event records (R34 to R38, R479, R509). -/
namespace Sys2Proof.Machine

/-- The 64 bytes of an event record (Table 1.8). -/
def EvtRec.toBytes (r : EvtRec) (seq : Nat) : List Byte :=
  toLe 8 r.time ++ toLe 4 seq ++ toLe 2 r.source ++ toLe 1 r.part ++ toLe 1 r.cls ++ toLe 2 r.code ++ toLe 1 r.flags ++
  toLe 1 1 ++ toLe 4 r.count ++ toLe 8 r.addr.toNat ++ r.detail.flatMap fun x => toLe 4 x.toNat

/-- The conduit that a record of a stream goes to now (R35): named, VALID, of the event kind, and owned by the partition
concerned; partition 0 is concerned by device-wide records and by its copies. -/
def State.evtConduit (s : State) (dest : EvtDest) (r : EvtRec) : Option Nat :=
  let own (p : Nat) (named : Bool) (c : Nat) : Option Nat := if named && s.cndIs c p 3 then some c else none
  match dest with
  | .device =>
    if r.part = wholeDevice then own 0 (s.flag Fld.TOP_EVT_DEST_ENABLE) (s.getF Fld.TOP_EVT_DEST_CONDUIT)
    else own 0 (s.flag (Fld.PRT_EVT_VALID 0)) (s.getF (Fld.PRT_EVT_CONDUIT 0))
  | .part p => own p (s.flag (Fld.PRT_EVT_VALID p)) (s.getF (Fld.PRT_EVT_CONDUIT p))

/-- A device-wide record of firmware and cartridge, and VNT_WAKE, wait for the device-wide conduit to exist (R380, R509). -/
def State.evtWaits (s : State) (r : EvtRec) : Bool :=
  r.part == wholeDevice && (r.code / 4096 == 0xC || r.code == 0x8009) && !s.flag Fld.TOP_EVT_DEST_ENABLE

/-- Put a record where it belongs in the order in which the source raised its events. -/
def insertByOrd (r : EvtRec) : List EvtRec → List EvtRec
  | [] => [r]
  | h :: t => if r.ord < h.ord then r :: h :: t else h :: insertByOrd r t
/-- Two lists of records in the order of their events. -/
def mergeByOrd (a b : List EvtRec) : List EvtRec := b.foldl (fun l r => insertByOrd r l) a

/-- Partition 0's own stream becomes one with the device-wide stream of the same source where both go to one conduit (R36). -/
def mergeStreams (l : List Stream) : List Stream :=
  (l.filter fun t => !decide (t.dest = .part 0)).map (fun t =>
    match l.find? (Stream.sameKey t.source (.part 0)) with
    | some z => if t.dest = .device then { t with queue := mergeByOrd t.queue z.queue, lost := t.lost + z.lost } else t
    | none => t) ++
  (l.filter fun t => decide (t.dest = .part 0) && !l.any (Stream.sameKey t.source .device)).map fun t => { t with dest := .device }

def State.alignStreams (s : State) : State :=
  if s.zeroDest = .device ∧ s.streams.any (fun t => decide (t.dest = .part 0)) then { s with streams := mergeStreams s.streams } else s

def State.modStream (s : State) (source : Nat) (dest : EvtDest) (f : Stream → Stream) : State :=
  { s with streams := s.streams.map fun t => if Stream.sameKey source dest t then f t else t }

/-- The conduit number that the register names for a record, whether or not there is such a conduit. -/
def State.evtNamed (s : State) (dest : EvtDest) (r : EvtRec) : Nat :=
  match dest with
  | .device => if r.part = wholeDevice then s.getF Fld.TOP_EVT_DEST_CONDUIT else s.getF (Fld.PRT_EVT_CONDUIT 0)
  | .part p => s.getF (Fld.PRT_EVT_CONDUIT p)

/-- SEQ of the next record of a source to a conduit: each such stream begins at 0 (R36). -/
def State.seqOf (s : State) (source c : Nat) : Nat :=
  ((s.seqs.find? fun q => q.source == source && q.cnd == c).map SeqNo.next).getD 0
/-- The next SEQ of a stream. -/
def State.seqAdvance (s : State) (source c : Nat) : State :=
  { s with seqs := (s.seqs.filter fun q => !(q.source == source && q.cnd == c)) ++ [⟨source, c, (s.seqOf source c + 1) % 2 ^ 32⟩] }

/-- The head record is discarded (R35, R38): SEQ advances past it in the stream to the conduit that the register names (DESIGN CHOICE
where there is none), and TOP_EVT_LOST counts it where the register says so. -/
def State.evtDiscard (s : State) (source : Nat) (dest : EvtDest) (r : EvtRec) (counted : Bool) : State :=
  let s1 := (s.modStream source dest fun t => { t with queue := t.queue.tail, lost := t.lost + 1 }).seqAdvance source (s.evtNamed dest r)
  if counted then s1.incSat Fld.TOP_EVT_LOST_COUNT 1 else s1

/-- The EVENTS_LOST record of a stream (R38).  Of a stream of device-wide records its destination partition is 0, whose conduit it is
(DESIGN CHOICE: the manual gives that word no value there). -/
def State.lostRecord (s : State) (t : Stream) : EvtRec :=
  let p := match t.dest with
    | .device => 0
    | .part p => p
  { ord := s.raised, time := s.time, source := t.source, part := if t.dest = .device then wholeDevice else p, cls := clsInfo, code := 0x0003
    flags := if s.unsync then 1 else 0, count := t.lost, addr := 0, detail := [w t.source, w p, 0, 0, 0, 0, 0, 0] }

/-- What follows the posting of a record: waiting takers, and doorbell bit 2 of the partition whose event conduit it is. -/
def State.evtPosted (s : State) (c : Nat) : State :=
  let s1 := s.serveConduit c
  let p := (s1.cndGet c).owner
  if s1.flag (Fld.PRT_EVT_VALID p) && s1.getF (Fld.PRT_EVT_CONDUIT p) == c && s1.flag (Fld.PRT_EVT_NOTIFY p) then s1.ringDoorbell p 2 else s1

/-- Post the head record of a stream with a credit of its conduit; DEVICE_ERROR then triggers the freeze that TOP_DEVERR_CFG
asks for. -/
def State.evtPostHead (s : State) (t : Stream) (c : Nat) (r : EvtRec) : State :=
  match s.cndTryPost c (r.toBytes (s.seqOf t.source c)) with
  | none => s
  | some s1 =>
    let s2 := ((s1.modStream t.source t.dest fun x => { x with queue := x.queue.tail }).seqAdvance t.source c).evtPosted c
    if r.code = 0x0006 ∧ s2.flag Fld.TOP_DEVERR_CFG_FREEZE then s2.freezeTrigger 3 else s2

/-- Partition 0 receives a copy of a record that another partition receives, an EVENTS_LOST among them (R35). -/
def State.copyLost (s : State) (dest : EvtDest) (r : EvtRec) : State :=
  match dest with
  | .device => s
  | .part p => if p = 0 then s else { s with streams := addRecord s.streams s.zeroDest (s.zeroCopy r), raised := s.raised + 1 }

/-- Post a stream's head; after a discard an EVENTS_LOST record goes first. -/
def State.evtPost (s : State) (t : Stream) (c : Nat) (r : EvtRec) : State :=
  if t.lost = 0 then s.evtPostHead t c r
  else match s.cndTryPost c ((s.lostRecord t).toBytes (s.seqOf t.source c)) with
    | none => s
    | some s1 =>
      let s2 := (s1.modStream t.source t.dest fun x => { x with lost := 0 }).seqAdvance t.source c
      ((s2.copyLost t.dest (s.lostRecord t)).evtPosted c).evtPostHead { t with lost := 0 } c r

/-- EVENT_RECORD_POST: a source posts its waiting record once it holds a credit, or finds that the record has no destination. -/
def execEventRecordPost (source : Nat) (dest : EvtDest) (s0 : State) : Host.Outcome State Fault Refusal := live s0 <|
  let s := s0.alignStreams
  match s.stream source dest with
  | none => .next s0
  | some t => match t.queue.head? with
    | none => .next s0
    | some r =>
      if s.evtWaits r then .next s
      else match s.evtConduit dest r with
        | none => .next (s.evtDiscard source dest r true)
        | some c =>
          let (s1, ok) := s.cndCheck c
          .next (if ok then s1.evtPost t c r else s1)

/-- EVENT_CREDIT_TIMEOUT: a record has waited more than 100 us for a credit (R38), counted from when it was raised (DEDUCED). -/
def execEventCreditTimeout (source : Nat) (dest : EvtDest) (s0 : State) : Host.Outcome State Fault Refusal := live s0 <|
  let s := s0.alignStreams
  match s.stream source dest with
  | none => .next s0
  | some t => match t.queue.head? with
    | none => .next s0
    | some r => match s.evtConduit dest r with
      | none => .next s
      | some c =>
        if decide (r.time + 100000 < s.time) && (s.cndHeld c || (s.cndGet c).free == 0) then .next (s.evtDiscard source dest r (r.part == wholeDevice)) else .next s

end Sys2Proof.Machine
end

