-- ==== Sys2Proof/Machine/Cartridge.lean ====
section
/-! DEFINITION. The cinder cartridge: insertion, authentication, the label, life, loss and reseeding (R501 to R508). -/
namespace Sys2Proof.Machine

/-! ## CRT_STATUS -/

/-- States of Table 15.5. -/
def crAbsent : Nat := 0
def crAuth : Nat := 1
def crRejected : Nat := 2
def crBlank : Nat := 3
def crForeign : Nat := 4
def crOrigin : Nat := 5
def crBound : Nat := 6
def crReseeding : Nat := 7
def crWorn : Nat := 8
def crFaulty : Nat := 9
def crErasing : Nat := 10
def State.crtState (s : State) : Nat := s.getF Fld.CRT_STATUS_STATE
/-- The root port's clocks run (Table 14.2). -/
def State.portRuns (s : State) : Bool := s.domainRuns 82 && s.domainRuns 83

/-- LIFE in units of 0.01 % (R504): the lower of the two figures, rounded down. -/
def driveLife (d : Drive) : Nat :=
  min (10000 - d.used * 100) (10000 - ceilDiv (d.units * 512000) (10 ^ 12))
/-- The refusal point that a drive has reached: 0 for none. -/
def driveLevel (d : Drive) : Nat :=
  if driveLife d = 0 ∨ d.readOnly then 4 else if driveLife d ≤ 100 then 3 else if driveLife d ≤ 500 then 2 else if driveLife d ≤ 2000 then 1 else 0

/-- WRITABLE, SNAP_OK, PRESENT and LINK_UP follow the state. -/
def State.crtSync (s : State) : State :=
  let on (b : Bool) : Nat := if b then 1 else 0
  s.setFs [(Fld.CRT_STATUS_PRESENT, on s.crt.drive.isSome), (Fld.CRT_STATUS_LINK_UP, on (s.crt.drive.isSome && s.portRuns)),
    (Fld.CRT_STATUS_WRITABLE, on s.crtWritable),
    (Fld.CRT_STATUS_SNAP_OK, on (s.crtWritable && s.crt.drive.any fun d => decide (100 < driveLife d)))]

/-- LIFE is read (R504): each point that it has fallen through since the last reading raises its event; at the last one a
bound cartridge is WORN. -/
def State.readLife (s : State) : State :=
  match s.crt.drive with
  | none => s
  | some d =>
    let s1 := s.setFs [(Fld.CRT_STATUS_LIFE, driveLife d), (Fld.CRT_WRITTEN_MB, d.units * 512 / 1000)]
    let s2 := (List.range 5).foldl (fun s l =>
      if s1.crt.level < l ∧ l ≤ driveLevel d then s.raise srcNvme wholeDevice clsInfo 0xC009 0 [w l, w (driveLife d)] else s) s1
    let s3 := { s2 with crt := { s2.crt with level := max s2.crt.level (driveLevel d) } }
    (if driveLevel d = 4 ∧ (s3.crtState = crBound ∨ s3.crtState = crReseeding) then s3.setF Fld.CRT_STATUS_STATE crWorn else s3).crtSync

/-! ## Leaving BOUND or RESEEDING (R505, R507) -/

/-- The cartridge takes a new state; when it leaves BOUND or RESEEDING the drain and the recovery download end, and
CRT_REMOVED names the previous state. -/
def State.crtLeave (s : State) (new how : Nat) : State :=
  let old := s.crtState
  let s1 := (s.setF Fld.CRT_STATUS_STATE new).crtSync
  if old = crBound ∨ old = crReseeding then
    let s2 := s1.snapAbandon 2
    let s3 := { s2 with fw := { s2.fw with download := s2.fw.download.filter fun d => d.path != 3 } }
    (s3.raise srcNvme wholeDevice clsInfo 0xC007 0 [w old, w how]).syncDurable
  else s1

/-! ## Label and binding (R503, R508) -/

/-- The group tag of the device's group record. -/
def State.groupTag (s : State) : Nat := (s.fw.group.map GroupRecord.tag).getD 0

/-- The state that an authenticated cartridge's label gives it (Table 15.5). -/
def State.labelState (s : State) (d : Drive) : Nat :=
  match d.label with
  | none => crBlank
  | some l =>
    if s.sec.groupKey = some l.key then
      if l.origin ≠ s.ownDev then crOrigin else if driveLevel d = 4 then crWorn else crBound
    else crForeign

/-- Sanitize and bind: a new label is written, and the cartridge is RESEEDING (R503, R508). -/
def State.crtBind (s : State) (d : Drive) (key : Nat) : State :=
  let l : CrtLabel := { key, owner := s.sec.owner.getD 0, group := s.groupTag, origin := s.ownDev
                        binds := (d.label.map CrtLabel.binds).getD 0 + 1 }
  let s1 := { s with
    crt := { s.crt with drive := some { d with label := some l, images := [] }, lastBound := d.id, ejected := false, reseedAt := s.time }
    log := { s.log with
      blocks := s.log.blocks.map fun (b : LogBlock) => LogBlock.mk b.first b.last false b.acked
      mirrored := []
      kept := s.log.kept.filter fun x => x.scope == 2 } }
  ((s1.setFs [(Fld.CRT_STATUS_STATE, crReseeding), (Fld.CRT_BIND_ORIGIN, l.origin), (Fld.CRT_BIND_BINDS, l.binds)]).crtSync).remirror

/-- The label decides the state; in OWNED a BLANK cartridge is bound where CRT_CFG asks for it. -/
def State.crtDecide (s : State) (d : Drive) : State :=
  let st := s.labelState d
  let s1 := (s.setFs [(Fld.CRT_STATUS_STATE, st), (Fld.CRT_BIND_ORIGIN, if crOrigin ≤ st then (d.label.map CrtLabel.origin).getD 0 else 0),
    (Fld.CRT_BIND_BINDS, if crOrigin ≤ st then (d.label.map CrtLabel.binds).getD 0 else 0)]).crtSync
  let s2 := if st = crBound then { s1 with crt := { s1.crt with lastBound := d.id } } else s1
  match s2.sec.groupKey with
  | some k => if st = crBlank ∧ s2.isOwned ∧ s2.flag Fld.CRT_CFG_AUTO_BIND then s2.crtBind d k else s2
  | none => s2

/-- The group storage key or the device number has changed: a cartridge whose state rests on its label is judged again. -/
def State.crtRelabel (s : State) : State :=
  match s.crt.drive with
  | some d => if crBlank ≤ s.crtState ∧ s.crtState ≤ crOrigin then s.crtDecide d else s
  | none => s

/-- Authentication begins: at insertion, at a whole-device start, and when the root port is ungated (R502). -/
def State.crtStart (s : State) : State :=
  if s.crt.drive.isSome && s.portRuns then
    (({ s with crt := { s.crt with ejected := false } }).setFs [(Fld.CRT_STATUS_STATE, crAuth), (Fld.CRT_ID_ID, 0)]).crtSync
  else s.crtSync

/-! ## The commands -/

/-- CARTRIDGE_INSERT: a drive enters the empty bay. -/
def execCartridgeInsert (d : Drive) (s : State) : Host.Outcome State Fault Refusal := live s <|
  match s.crt.drive with
  | some _ => .next s
  | none => .next ({ s with crt := { s.crt with drive := some d, level := 0 } }).crtStart

/-- The checks of R502 end; the label decides the state, and life is read. -/
def State.crtAuthEnd (s : State) (d : Drive) : State :=
  if d.fails ≠ 0 then
    let s1 := ((s.setFs [(Fld.CRT_STATUS_STATE, crRejected), (Fld.CRT_ID_ID, 0)]).crtSync).raise srcNvme wholeDevice clsOperation 0xC008 0 [w d.fails]
    s1.raise srcNvme wholeDevice clsInfo 0xC006 0 [w crRejected, 0, 0]
  else
    let s1 := ((s.setReg Reg.CRT_ID d.id).crtDecide d).readLife
    s1.raise srcNvme wholeDevice clsInfo 0xC006 0 (w s1.crtState :: w2 d.id)

/-- CARTRIDGE_REMOVE (R507): after an eject, or by surprise. -/
def execCartridgeRemove (s : State) : Host.Outcome State Fault Refusal := live s <|
  match s.crt.drive with
  | none => .next s
  | some _ =>
    let how := if s.crt.ejected then 2 else 1
    let s1 := { s with crt := { s.crt with drive := none, level := 0 } }
    let s2 := (s1.setFs [(Fld.CRT_ID_ID, 0), (Fld.CRT_STATUS_LIFE, 0), (Fld.CRT_BIND_ORIGIN, 0), (Fld.CRT_BIND_BINDS, 0)]).crtLeave crAbsent how
    .next { s2 with crt := { s2.crt with ejected := false } }

/-- CARTRIDGE_COMMAND_FAIL: a command has failed, was retried once, and has failed again. -/
def execCartridgeCommandFail (status : Nat) (lba : Word64) (s : State) : Host.Outcome State Fault Refusal := live s <|
  if s.crt.drive.isNone || s.crtState == crAbsent || s.crtState == crFaulty then .next s
  else
    let s1 := ((s.incSat Fld.CRT_ERR_RETRIED 1).incSat Fld.CRT_ERR_IO 1).raise srcNvme wholeDevice clsOperation 0xC00B 0 ([w status, 0] ++ w2 lba)
    .next (s1.crtLeave crFaulty 1)

/-- LIFE_POLL (R504): firmware reads the drive's Percentage Used, its Data Units Written and whether it is read-only. -/
def execLifePoll (used units : Nat) (readOnly : Bool) (s : State) : Host.Outcome State Fault Refusal := live s <|
  match s.crt.drive with
  | none => .next s
  | some d =>
    if s.crtState < crBlank ∨ s.crtState = crFaulty then .next s
    else .next ({ s with crt := { s.crt with drive := some { d with used, units, readOnly } } }).readLife

/-- RESEED_END (R508): every copied range is written. -/
def execReseedEnd (s : State) : Host.Outcome State Fault Refusal := live s <|
  if s.crtState ≠ crReseeding then .next s
  else
    let s1 := { s with log := { s.log with blocks := s.log.blocks.map fun (b : LogBlock) => LogBlock.mk b.first b.last (b.written || b.acked) b.acked } }
    let s2 := (s1.setF Fld.CRT_STATUS_STATE crBound).crtSync
    .next ((s2.raise srcNvme wholeDevice clsInfo 0xC00C 0 [w ((s.time - s.crt.reseedAt) / 1000000000)]).syncDurable)

end Sys2Proof.Machine
end

