-- ==== Sys2Proof/Machine/Clocks.lean ====
section
/-! DEFINITION. Island frequencies, automatic idling and clock gating (R460 to R462), and array resets that wait for a
gated island (R474). -/
namespace Sys2Proof.Machine

/-! ## Frequencies (R460) -/

/-- REQ as it acts: rounded down to 25 MHz and clamped. -/
def reqFreq (x : Nat) : Nat := min 1300 (max 400 (x / 25 * 25))

/-- EFF and LIMIT of an island follow REQ and the ceilings; EFF is 0 while the island is gated.  F_FUSE is at least
1,300 MHz on every device, so it never limits. -/
def State.syncFreq (s : State) (i : Nat) : State :=
  let q := reqFreq (s.getF (Fld.CLK_ISL_FREQ_REQ i))
  let cap := s.getF Fld.PWR_CEIL_F_CAP
  let th := s.getF Fld.PWR_CEIL_F_THERM
  let f := max 400 (min q (min cap th))
  let limit := if f = q then 0 else if f = cap then 1 else 2
  s.setFs [(Fld.CLK_ISL_FREQ_EFF i, if s.domainRuns i then f else 0), (Fld.CLK_ISL_FREQ_LIMIT i, limit)]

def State.syncFreqs (s : State) : State := (List.range 36).foldl (fun s i => s.syncFreq i) s

/-! ## Idle islands (R461) -/

/-- An array stands with nothing in flight. -/
def State.arrayQuiet (s : State) (n : Nat) : Bool :=
  let st := s.arrState n
  let a := s.arr n
  (st == stIdle || st == stStopped || st == stFaulted || st == stRetired) &&
  a.xfers.isEmpty && a.mma.isEmpty && a.drains.isEmpty && a.released.isEmpty && a.rmoOut.isEmpty
def State.islandQuiet (s : State) (i : Nat) : Bool := (List.range 4).all fun j => s.arrayQuiet (4 * i + j)

/-- The clocks of an island that stopped by itself run again. -/
def State.wakeIsland (s : State) (i : Nat) : State := { s with pow := { s.pow with autoIdle := s.pow.autoIdle.filter fun x => x != i } }

/-- AUTO_IDLE_TIMEOUT: an island has been quiet for 100 us. -/
def execAutoIdleTimeout (isl : Nat) (s : State) : Host.Outcome State Fault Refusal := live s <|
  if 36 ≤ isl then .fault (.noSuchUnit isl)
  else if s.flag Fld.PWR_CFG_AUTO_IDLE && s.islandQuiet isl && s.domainRuns isl && !s.pow.autoIdle.contains isl then
    .next { s with pow := { s.pow with autoIdle := s.pow.autoIdle ++ [isl] } }
  else .next s

/-! ## Array reset through a register or a call (R472, R474) -/

/-- An array reset; on a gated island it waits, and BUSY shows it. -/
def State.arrayResetReq (s : State) (n : Nat) : State :=
  if s.domainRuns (n / 4) then (s.wakeIsland (n / 4)).arrayReset n
  else if s.pow.resetWait.contains n then s
  else ({ s with pow := { s.pow with resetWait := s.pow.resetWait ++ [n] } }).setF Fld.RST_ARRAY_BUSY 1

/-- Resets that waited for an island. -/
def State.resumeResets (s : State) (i : Nat) : State :=
  let mine := s.pow.resetWait.filter fun n => n / 4 == i
  let s1 := mine.foldl (fun s n => s.arrayReset n) { s with pow := { s.pow with resetWait := s.pow.resetWait.filter fun n => n / 4 != i } }
  s1.setF Fld.RST_ARRAY_BUSY (if s1.pow.resetWait.isEmpty then 0 else 1)

/-! ## Gating (R462, Table 14.2) -/

/-- Domains that Table 14.1 lets be gated. -/
def gateable (d : Nat) : Bool := decide (d < 36) || (decide (48 ≤ d) && decide (d < 80)) || d == 82 || d == 83 || (decide (88 ≤ d) && decide (d < 92))
/-- Bits of CLK_GATE k that can be written. -/
def gateMask (k : Nat) : Nat := ((List.range 32).map fun b => if gateable (32 * k + b) then 2 ^ b else 0).sum

def State.gateEn (s : State) (d : Nat) : Bool := bits (s.getF (Fld.CLK_GATE_EN (d / 32))) (d % 32) 1 == 1
def State.setRun (s : State) (d : Nat) (b : Bool) : State := s.setBit (Fld.CLK_GATE_STAT_RUN (d / 32)) (d % 32) b
def State.setGateEn (s : State) (d : Nat) (b : Bool) : State := s.setBit (Fld.CLK_GATE_EN (d / 32)) (d % 32) b

/-- A logical array of a partition other than 0 is mapped to an array of the island. -/
def State.islandMapped (s : State) (i : Nat) : Bool :=
  s.contexts.any fun c => c.id.part != 0 && c.phys / 4 == i

/-- The sources of a domain hold no undelivered record (R40). -/
def State.domainSilent (s : State) (d : Nat) : Bool := s.streams.all fun t => t.source / 256 != d || t.queue.isEmpty

/-- The condition of Table 14.2. -/
def State.gateReady (s : State) (d : Nat) : Bool :=
  s.domainSilent d &&
  (if d < 36 then !s.islandMapped d && s.islandQuiet d
   else if d = 82 ∨ d = 83 then (s.log.blocks.all fun b => b.written || !s.crtWritable) && s.log.snap.isNone
   else if 88 ≤ d ∧ d < 92 then (List.range 16).all fun k =>
     s.plmState (16 * (d - 88) + k) != plRunning && s.plmState (16 * (d - 88) + k) != plWaiting
   else true)

def State.gatedEvent (s : State) (d how : Nat) : State := s.raise srcPower wholeDevice clsInfo 0xB006 0 [w d, w how]

/-- A domain's clock stops. -/
def State.gateStop (s : State) (d : Nat) : State :=
  let s1 := (s.setRun d false).gatedEvent d 1
  if d < 36 then s1.syncFreq d
  else if 48 ≤ d ∧ d < 64 then s1.ventClear (d - 48)
  else if 64 ≤ d ∧ d < 80 then s1.ventClear (d - 64)
  else if d = 82 ∨ d = 83 then (s1.setF Fld.CRT_ID_ID 0).crtLeave crAbsent 1
  else s1

/-- A domain's clock runs again. -/
def State.gateStart (s : State) (d : Nat) : State :=
  let s1 := (s.setRun d true).gatedEvent d 2
  let train (v : Nat) : State := (List.range (s1.ventPorts v)).foldl (fun s n => if s.portUp v n then s else s.trainPort v n) s1
  if d < 36 then (s1.syncFreq d).resumeResets d
  else if 48 ≤ d ∧ d < 64 then train (d - 48)
  else if 64 ≤ d ∧ d < 80 then train (d - 64)
  else if d = 82 ∨ d = 83 then s1.crtStart
  else s1

/-- Ask for a domain's clock to stop or to run: a stop waits for its condition. -/
def State.gateAsk (s : State) (d : Nat) (on : Bool) : State :=
  if !gateable d then s
  else
    let s1 := s.setGateEn d on
    if on && !s1.domainRuns d then s1.gateStart d else s1

/-- A write of CLK_GATE k. -/
def State.gateWrite (s : State) (k v : Nat) : State :=
  (List.range 32).foldl (fun s b => s.gateAsk (32 * k + b) (bits v b 1 == 1)) s

/-- GATE_TAKE_EFFECT: a pending request stops its domain once the condition holds. -/
def execGateTakeEffect (d : Nat) (s : State) : Host.Outcome State Fault Refusal := live s <|
  if 100 ≤ d then .fault (.noSuchUnit d)
  else if !s.gateEn d && s.domainRuns d && s.gateReady d then .next (s.gateStop d)
  else .next s

end Sys2Proof.Machine
end

