-- ==== Sys2Proof/Machine/Boot.lean ====
section
/-! DEFINITION. The choice of a firmware slot, failed boots, recovery mode, and the warm firmware reset (R473, R488, R489, R491,
R497, R500). -/
namespace Sys2Proof.Machine

/-! ## Slots -/

/-- Store an image in a slot: SVN and VERSION show it. -/
def State.putImage (s : State) (i : Nat) (im : Option FwImage) : State :=
  ({ s with fw := { s.fw with slots := s.fw.slots.set i im } }).setFs
    [(⟨slotReg i, 48, 7⟩, (im.map FwImage.svn).getD 0), (⟨slotReg i, 0, 32⟩, (im.map FwImage.version).getD 0)]
def State.svnMin (s : State) : Nat := s.getF Fld.FW_SVN_MIN_MIN
/-- The stepping, in the form of TOP_ID bits [15:0]. -/
def State.stepping (s : State) : Nat := fieldOf (s.reg Reg.TOP_ID) 0 16


/-- The first of checks 1 to 4 of R488 that an image fails. -/
def State.bootCheck (s : State) (im : FwImage) : Option Nat :=
  if im.badCheck ≠ 0 then some im.badCheck
  else if s.stepping < im.minStepping then some 3
  else if im.svn < s.svnMin then some 4
  else none

/-- The first of all the checks of R488 that an image fails. -/
def State.imageCheck (s : State) (im : FwImage) (approval : Option Approval) : Option Nat :=
  match s.bootCheck im with
  | some c => some c
  | none =>
    let ok := match approval with
      | some a => a.owner && decide (a.digest = im.digest)
      | none => false
    if s.isOwned && (decide (im.version < s.getF Fld.FW_POLICY_MIN_VERSION) || (s.flag Fld.FW_POLICY_REQUIRE_APPROVAL && !ok)) then some 5
    else if s.lifecycle = lcDecommissioned then some 6
    else none

/-- The choice of R491. -/
def State.bootSlot (s : State) : Option Nat :=
  let pick (st : Nat) : Option Nat := [0, 1].find? fun i =>
    decide (s.slotState i = st) && (s.slotImage i).any fun im => decide (s.svnMin ≤ im.svn)
  pick slPending <|> pick slActive <|> pick slValid

/-! ## Recovery mode (R497) -/

/-- The slot that a recovery image goes to. -/
def State.recoverySlot (s : State) : Nat := if s.slotState 0 ≠ slActive then 0 else if s.slotState 1 ≠ slActive then 1 else 0

/-- The ROM enters recovery mode; a decommissioned device never does, and offers no more than MINIMAL. -/
def State.enterRecovery (s : State) : State :=
  let s1 := { s with fw := { s.fw with boot := none, download := none }, pow := { s.pow with warm := false, state := .running } }
  (if s.lifecycle = lcDecommissioned then s1 else s1.setF Fld.FW_STATUS_RECOVERY 1).setLevel lvMinimal 0

def State.inRecovery (s : State) : Bool := s.flag Fld.FW_STATUS_RECOVERY

/-! ## Boots -/

/-- A boot of a slot begins; an image that does not verify is a failed boot, and the choice runs again (at most `k` times, more
than three tries of each of two slots). -/
def State.bootChoose (s : State) (warm : Bool) (fallback : Option (Nat × Nat)) : Nat → State
  | 0 => s
  | k + 1 =>
    match s.bootSlot with
    | none => s.enterRecovery
    | some i =>
      let t := s.slotTries i + 1
      let s1 := s.setFwSlot i (s.slotState i) t
      if (s.slotImage i).all fun im => (s.bootCheck im).isSome then
        if t < 3 then State.bootChoose s1 warm fallback k
        else State.bootChoose (s1.setFwSlot i slFailed t) warm (some (i, 3)) k
      else { s1 with fw := { s1.fw with boot := some ⟨i, warm, fallback⟩ } }

def State.bootStart (s : State) (warm : Bool) (fallback : Option (Nat × Nat)) : State := s.bootChoose warm fallback 8

/-- Start-up goes on: with REFCLK present the PLLs lock, the sinter authenticates the cartridge and a slot is chosen (R475, R491,
R502). -/
def State.startBoot (s : State) (fallback : Option (Nat × Nat)) : State :=
  if s.pow.refclk && !s.pow.resetLow then
    (({ s with pow := { s.pow with locked := true, startedAt := s.time } }).crtStart).bootStart false fallback
  else s

/-- Start-up goes on, and a FREEZE_N that is low takes effect once the lifecycle fuses are sensed (R479). -/
def State.startUp (s : State) (fallback : Option (Nat × Nat)) : State :=
  let s1 := s.startBoot fallback
  if s1.pow.freezeLow then s1.freezeTrigger 1 else s1

/-- RESET_N, as the device itself performs it. -/
def State.selfReset (s : State) (cause : Nat) : State := (s.wholeReset cause true).startUp none

/-! ## Warm firmware reset (R473, R474, R490) -/

/-- A warm firmware reset is asked for: ignored while one is in progress, held while a slot is WRITING. -/
def State.warmRequest (s : State) : State :=
  if s.pow.warm then s
  else if s.slotWriting then { s with pow := { s.pow with warmHeld := true } }
  else s.warmBegin.bootStart true none

/-- A boot has failed: the same kind of reset begins again, and after the third the slot is FAILED and another is chosen. -/
def State.bootFailed (s : State) (cause : Nat) : State :=
  match s.fw.boot with
  | none => s
  | some b =>
    let last := decide (3 ≤ s.slotTries b.slot)
    let s1 := if last then s.setFwSlot b.slot slFailed (s.slotTries b.slot) else s
    let fb := if last then some (b.slot, cause) else b.fallback
    if b.warm then ((({ s1 with pow := { s1.pow with warm := false } }).warmBegin).bootStart true fb)
    else (s1.wholeReset (s1.getF Fld.RST_CAUSE_CAUSE) true).startUp fb

end Sys2Proof.Machine
end

