-- ==== Sys2Proof/Machine/Access.lean ====
section
/-! DEFINITION. Register access: decoding an offset, permission, gating, width and halves, the field types, and what a write
of a particular register does (R4 to R12, R30, R132, R227, R324, R358, R383, R385, R387, R411, R414, R421, Table 13.2). -/
namespace Sys2Proof.Machine

/-! ## Who accesses -/

/-- The partition for which a requester accesses registers: firmware and the sinter act for partition 0. -/
def rqPart : Requester → Nat
  | .fn f => f % 64
  | .core _ => 0
  | .sinter => 0
/-- The source that reports a requester's errors. -/
def rqSource : Requester → Nat
  | .fn _ => srcPcie
  | .core c => 92 * 256 + c % 4
  | .sinter => srcSinter

/-- A host request to a function reaches the device: the endpoint is out of fundamental reset, its link is up (R405), and a
virtual function is enabled. -/
def State.hostReach (s : State) (f : Nat) : Bool :=
  !s.host.perst && !s.pow.noService && s.flag Fld.PCI_LINK_UP && decide (f < 64) && (f == 0 || s.host.vfEnable)

/-! ## Decoding an offset -/

/-- The part of a register that an access names. -/
inductive Part where
  | whole | low | high
  deriving DecidableEq, Repr

/-- The register whose bytes an offset lies in. -/
def regCover (off : Nat) : Option (RegDesc × Nat) :=
  let o := off / 4 * 4
  match regFind o with
  | some d => some (d, o)
  | none =>
    if o < 4 then none
    else match regFind (o - 4) with
      | some d => if d.width = 64 then some (d, o - 4) else none
      | none => none

/-- The part that an access of a width names; none where the width is wrong (R8). -/
def partOf (d : RegDesc) (reg off width : Nat) : Option Part :=
  if off = reg ∧ 8 * width = d.width then some .whole
  else if d.width = 64 ∧ width = 4 then (if off = reg then some .low else if off = reg + 4 then some .high else none)
  else none

/-- The number of a block in Table 1.6, and its first offset. -/
def blockOf (off : Nat) : Option (Nat × Nat) :=
  (regBlocks.zipIdx.find? fun e => decide (e.2 < 21) && decide (e.1.1 ≤ off) && decide (off < e.1.2.1)).map fun e => (e.2, e.1.1)

/-- The LOCK register of a block (R7): one per vent in VNT, at its own place in HBM, and at 0xFC elsewhere. -/
def lockReg (off : Nat) : Nat :=
  if 0x5000000 ≤ off ∧ off < 0x5100000 then off / 0x10000 * 0x10000 + 0xFC
  else if 0x6000000 ≤ off ∧ off < 0x7000000 then Reg.HBM_LOCK
  else match blockOf off with
    | some b => b.2 + 0xFC
    | none => 0
def State.locked (s : State) (off : Nat) : Bool := (s.reg (lockReg off)).getLsbD 0

/-- Physical arrays on which a partition's contexts run in the guaranteed class (R132, R397). -/
def State.ownsArray (s : State) (p n : Nat) : Bool :=
  bits (s.getF (Fld.PRT_BLOCKS_BLOCKS p)) 14 1 == 1 && s.getF (Fld.PRT_STATE_ACLASS p) == 0 &&
  (List.range (s.getF (Fld.PRT_STATE_LARRAYS p))).any fun l => s.flag (Fld.PRT_LMAP_VALID p l) && s.getF (Fld.PRT_LMAP_PHYS p l) == n

/-- Whether a requester may access an offset (R11 and the rules of each block). -/
def State.mayAccess (s : State) (rq : Requester) (off : Nat) : Bool :=
  match rq with
  | .core _ => true
  | .sinter => true
  | .fn f =>
    let inside (lo hi : Nat) : Bool := decide (lo ≤ off) && decide (off < hi)
    if inside 0x51000 0x59000 then (off - 0x51000) / 0x80 % 64 == f
    else if f = 0 then true
    else if inside 0x61000 0x61400 then (off - 0x61000) / 0x10 == f
    else if inside 0x110000 0x120000 then (off - 0x110000) / 0x400 == f
    else if inside 0x701000 0x702000 then (off - 0x701000) / 0x40 == f
    else if inside 0x501000 0x502000 then (off - 0x501000) / 0x40 == f
    else if inside 0x2010000 0x2014000 then (off - 0x2010000) / 0x100 == f
    else if inside 0x3000000 0x3200000 then s.geyOwner ((off - 0x3000000) / 0x20) == f
    else if inside 0x4010000 0x4014000 then
      let k := (off - 0x4010000) / 0x100
      s.flag (Fld.PLM_OWNER_VALID k) && s.getF (Fld.PLM_OWNER_PART k) == f
    else if inside 0x601000 0x601400 then
      let j := (off - 0x601000) / 0x100
      s.flag (Fld.PRF_STEP_OWNER_VALID j) && s.getF (Fld.PRF_STEP_OWNER_PART j) == f
    else if inside 0x680000 0x700000 then
      let j := (off - 0x680000) / 0x20000
      s.flag (Fld.PRF_STEP_OWNER_VALID j) && s.getF (Fld.PRF_STEP_OWNER_PART j) == f
    else if inside 0x1000000 0x1900000 then s.ownsArray f ((off - 0x1000000) / 0x10000)
    else false

/-- The block instance that an offset names is gated (R10). -/
def State.accessGated (s : State) (off : Nat) : Bool :=
  if 0x1000000 ≤ off ∧ off < 0x1900000 then !s.domainRuns ((off - 0x1000000) / 0x40000)
  else if 0x5000000 ≤ off ∧ off < 0x5100000 then
    let v := (off - 0x5000000) / 0x10000
    !s.domainRuns (48 + v) || !s.domainRuns (64 + v)
  else if 0x4010000 ≤ off ∧ off < 0x4014000 then !s.domainRuns (88 + (off - 0x4010000) / 0x1000)
  else false

/-- What becomes of an access to register space. -/
inductive Verdict where
  | ok (d : RegDesc) (reg : Nat) (part : Part)
  /-- Reads zero and drops writes, and nothing is recorded (R10). -/
  | silent
  /-- ACCESS_ERROR of a kind (R9, R30). -/
  | error (kind : Nat)
  /-- Denied under R11. -/
  | denied

/-- The check of an access.  Where several checks fail, the first in this order decides: misaligned, in no block, denied, gated or an
undefined offset, the wrong width; an access both misaligned and in no block is recorded as misaligned (DESIGN CHOICE, log entry 40: R9, R10,
R11 and R30 give no order). -/
def State.verdict (s : State) (rq : Requester) (off width : Nat) : Verdict :=
  if width = 0 ∨ off % width ≠ 0 then .error 1
  else if (blockOf off).isNone then .error 3
  else if !s.mayAccess rq off then .denied
  else if s.accessGated off then .silent
  else match regCover off with
    | none => .silent
    | some (d, reg) => match partOf d reg off width with
      | some p => .ok d reg p
      | none => .error 2

/-! ## Errors -/

/-- TOP_ACC_ERR holds the first error since VALID was cleared. -/
def State.accErr (s : State) (kind part off : Nat) : State :=
  if s.flag Fld.TOP_ACC_ERR_VALID then s
  else s.setFs [(Fld.TOP_ACC_ERR_VALID, 1), (Fld.TOP_ACC_ERR_KIND, kind), (Fld.TOP_ACC_ERR_PARTITION, part), (Fld.TOP_ACC_ERR_OFFSET, off)]

def State.accessError (s : State) (rq : Requester) (kind off width : Nat) : State :=
  (s.raise (rqSource rq) (rqPart rq) clsOperation 0x0001 (s.fabOf (rqPart rq) (regBase + off)) [w kind, w width]).accErr kind (rqPart rq) off
/-- ACCESS_DENIED goes to partition 0 only (R11). -/
def State.accessDenied (s : State) (rq : Requester) (off : Nat) : State :=
  (s.raise (rqSource rq) 0 clsOperation 0x0002 (s.fabOf (rqPart rq) (regBase + off)) [w (rqPart rq), w off]).accErr 4 (rqPart rq) off

/-- HOST_ACCESS_ERROR (R387, R420). -/
def State.hostError (s : State) (p kind : Nat) (addr : Nat) : State :=
  s.raise srcPcie p clsOperation 0x9004 (if kind = 5 ∨ kind = 4 ∧ addr = 0 then 0 else s.fabOf p addr) ([w kind, 0] ++ w2 (dw addr))

/-! ## Field types (R4) -/

/-- The bits that a field covers. -/
def FieldDesc.mask (f : FieldDesc) : Word64 := BitVec.ofNat 64 ((2 ^ f.width - 1) * 2 ^ f.lo)

/-- What a register holds after a write, field by field. -/
def merge (fs : List FieldDesc) (locked : Bool) (old new : Word64) : Word64 :=
  fs.foldl (fun v f =>
    let m := f.mask
    match f.ty with
    | .rw => (v &&& ~~~ m) ||| (new &&& m)
    | .rwl => if locked then v else (v &&& ~~~ m) ||| (new &&& m)
    | .w1c => v &&& ~~~ (new &&& m)
    | .w1s => v ||| (new &&& m)
    | .wo => v
    | .ro => v
    | .rc => v
    | .rz => v) old

/-- A write by field type alone. -/
def State.plainWrite (s : State) (d : RegDesc) (reg : Nat) (v : Word64) : State := s.setReg reg (merge d.fields (s.locked reg) (s.reg reg) v)

/-- What a register reads as: every field but WO. -/
def readMask (fs : List FieldDesc) : Word64 :=
  fs.foldl (fun v f => match f.ty with
    | .wo => v
    | _ => v ||| f.mask) 0
/-- A read clears the RC fields that begin at bit `lo` or above. -/
def clearRc (fs : List FieldDesc) (lo : Nat) (old : Word64) : Word64 :=
  fs.foldl (fun v f => if f.ty = .rc ∧ lo ≤ f.lo then v &&& ~~~ f.mask else v) old

/-! ## Mailboxes (R410 to R413) -/

/-- The sender, and the receiver, of a channel (Table 12.7). -/
def chanSender (c : Nat) : Requester → Bool
  | .fn f => chanFromFn c && f == chanFn c
  | .core _ => decide (64 ≤ c) && decide (c < 128)
  | .sinter => decide (192 ≤ c)
def chanReceiver (c : Nat) : Requester → Bool
  | .fn f => !chanFromFn c && f == chanFn c
  | .core _ => decide (c < 64)
  | .sinter => decide (128 ≤ c) && decide (c < 192)

/-- Why a message cannot be delivered at all (R411, R412). -/
def State.mbxBar (s : State) (c : Nat) : Option Nat :=
  let p := chanFn c
  if chanFromFn c then (if s.partActive p then none else some 4)
  else if s.host.perst then some 1
  else if s.host.d3hot.contains p || (p != 0 && !s.host.vfEnable) then some 3
  else if !s.partActive p then some 4
  else none

/-- A function sends a message: replies whose delivery failed wait again, ahead of the others (R416). -/
def State.bringBack (s : State) (p : Nat) : State :=
  { s with host := { s.host with
      replies := (s.host.retry.filter fun r => r.part == p) ++ s.host.replies
      retry := s.host.retry.filter fun r => r.part != p } }

/-- GO (R411). -/
def State.mbxGo (s : State) (c : Nat) : State :=
  if s.mbx c = mbPosted then s
  else
    let len := s.getF (Fld.MBX_CTL_LEN c)
    let refuse (r : Nat) : State := s.setFs [(Fld.MBX_STATUS_STATE c, mbRefused), (Fld.MBX_STATUS_REASON c, r)]
    if len < 8 ∨ 16 < len then refuse 5
    else match s.mbxBar c with
      | some r => refuse r
      | none =>
        let s1 := s.setFs [(Fld.MBX_STATUS_STATE c, mbPosted), (Fld.MBX_STATUS_REASON c, 0)]
        let s2 := { s1 with host := { s1.host with postedAt := Sparse.set natDefault s1.host.postedAt c s1.time } }
        (if chanFromFn c then s2.bringBack (chanFn c) else s2).chanBell c true

/-- TAKE (R411, R413). -/
def State.mbxTake (s : State) (c : Nat) : State :=
  if s.mbx c ≠ mbPosted then s
  else
    let s1 := s.setFs [(Fld.MBX_STATUS_STATE c, mbTaken), (Fld.MBX_STATUS_REASON c, 0), (Fld.MBX_STATUS_SEQ c, s.getF (Fld.MBX_STATUS_SEQ c) + 1)]
    let s2 := { s1 with host := { s1.host with
        postedAt := Sparse.set natDefault s1.host.postedAt c 0
        inChannel := s1.host.inChannel.filter fun r => replyChannel r.sinter r.part != c } }
    if chanFromFn c then s2.chanBell c false else s2

/-- A write to a channel's register at an offset in the channel. -/
def State.mbxWrite (s : State) (rq : Requester) (d : RegDesc) (reg : Nat) (v : Word64) : State :=
  let c := (reg - 0x51000) / 0x80
  let o := (reg - 0x51000) % 0x80
  if o < 0x40 then (if chanSender c rq && s.mbx c != mbPosted then s.plainWrite d reg v else s)
  else if o = 0x40 then
    if chanSender c rq && s.mbx c != mbPosted then
      let s1 := s.setF (Fld.MBX_CTL_LEN c) (bits v.toNat 0 5)
      if v.getLsbD 8 then s1.mbxGo c else s1
    else s
  else if o = 0x48 then (if chanReceiver c rq && v.getLsbD 0 then s.mbxTake c else s)
  else s

/-! ## Doorbells (R414) -/

/-- A write of DBL_MASK: every pending bit whose mask bit is cleared signals. -/
def State.maskWrite (s : State) (f : Nat) (v : Word64) : State :=
  let old := s.getF (Fld.DBL_MASK_MASK f)
  let s1 := s.setF (Fld.DBL_MASK_MASK f) (bits v.toNat 0 32)
  (List.range 32).foldl (fun s b =>
    if bits old b 1 = 1 ∧ v.getLsbD b = false ∧ bits (s.getF (Fld.DBL_PEND_PEND f)) b 1 = 1 then
      s.signalIrq f (s.getF (Fld.DBL_CFG_VECTOR f)) else s) s1
/-- A ring of the user doorbells 16 to 31. -/
def State.ringUser (s : State) (f : Nat) (v : Word64) : State :=
  (List.range 16).foldl (fun s b => if v.getLsbD (16 + b) then s.ringDoorbell f (16 + b) else s) s

def State.dblWrite (s : State) (d : RegDesc) (reg : Nat) (v : Word64) : State :=
  let f := (reg - 0x61000) / 0x10
  match (reg - 0x61000) % 0x10 with
  | 4 => s.maskWrite f v
  | 8 => s.ringUser f v
  | _ => s.plainWrite d reg v

/-! ## Arrays (R130 to R132, Table 13.2) -/

/-- Partition 0 writes a register of an array that runs a context of a sealed partition. -/
def State.sealBars (s : State) (rq : Requester) (n : Nat) : Bool :=
  let p := (s.ident n).part
  rqPart rq == 0 && p != 0 && s.isSealed p

/-- RES_FIRST of the context on an array has been written: its open groups are on the lines that their context-relative lines now name
(R139), and nothing moves their contents; a group that the new reservation does not hold keeps its lines (DESIGN CHOICE: the manual gives
no lines for it). -/
def State.accMoved (s : State) (n : Nat) : State :=
  let first := s.getF (Fld.ARR_ACC_CFG_RES_FIRST n)
  let count := s.getF (Fld.ARR_ACC_CFG_RES_COUNT n)
  (s.modArr n fun a => { a with acc := a.acc.map fun g => if (g.first + g.count) * g.lines ≤ count then g.moved first else g }).accSync n

def State.arrWrite (s : State) (rq : Requester) (d : RegDesc) (reg : Nat) (v : Word64) : State :=
  let n := (reg - 0x1000000) / 0x10000
  let s := s.wakeIsland (n / 4)
  let bar := s.sealBars rq n
  let zero := rqPart rq == 0
  let rest := s.arrAtRest n
  let doIf (ok : Bool) : State := if ok then s.plainWrite d reg v else s
  let x := v.toNat
  match (reg - 0x1000000) % 0x10000 with
  | 0x00 => if bar && x % 64 / 2 != 4 then s else s.arrCtl n x
  | 0x08 => doIf (rest && !bar)
  | 0x30 => doIf (zero && !bar)
  | 0x38 => doIf rest
  | 0x40 => if zero && rest && !bar && decide (bits x 0 13 + bits x 16 13 ≤ 6144) then (s.plainWrite d reg v).accMoved n else s
  | 0x48 => doIf (zero && !bar)
  | 0x90 => doIf (zero && rest && !bar && decide (bits x 0 7 + bits x 16 7 ≤ 96))
  | _ => s.plainWrite d reg v

/-! ## The other blocks -/

/-- ENABLE of an amax table fixes BASE and COUNT_M1 until it is written 0 and then 1 again. -/
def State.amaxWrite (s : State) (d : RegDesc) (reg : Nat) (v : Word64) : State :=
  let p := (reg - 0x701000) / 0x40
  let was := s.flag (Fld.NUM_AMAX_CFG_ENABLE p)
  let s1 := s.plainWrite d reg v
  if s1.flag (Fld.NUM_AMAX_CFG_ENABLE p) && !was then
    { s1 with amax := (s1.amax.filter fun e => e.1 != p) ++ [(p, s1.getF (Fld.NUM_AMAX_BASE_BASE p), s1.getF (Fld.NUM_AMAX_CFG_COUNT_M1 p))] }
  else s1

/-- LOG_APPEND and LOG_APPEND_GEY of a bank (R328). -/
def State.logBankWrite (s : State) (d : RegDesc) (reg : Nat) (v : Word64) : State :=
  let p := (reg - 0x501000) / 0x40
  match (reg - 0x501000) % 0x40 with
  | 0x00 => if s.flag (Fld.LOG_APPEND_GEY_EN p) then s else s.plainWrite d reg v
  | 0x08 =>
    let was := s.flag (Fld.LOG_APPEND_GEY_EN p)
    let s1 := s.plainWrite d reg v
    let granted := [Fld.LOG_APPEND_GEY_ANNOUNCE_GEY p, Fld.LOG_APPEND_GEY_ACK_GEY p, Fld.LOG_APPEND_GEY_DURABLE_GEY p].all fun f =>
      s1.geyOwner (s1.getF f) == p
    let s2 := if granted then s1 else s1.setF (Fld.LOG_APPEND_GEY_EN p) 0
    if s2.flag (Fld.LOG_APPEND_GEY_EN p) && !was then
      { s2 with log := { s2.log with
          appended := Sparse.set natDefault s2.log.appended p (s2.geyCount (s2.getF (Fld.LOG_APPEND_GEY_ANNOUNCE_GEY p))).toNat } }
    else s2
  | _ => s.plainWrite d reg v

/-- A step bank's registers (PRF_STEP_OWNER to PRF_STEP_NUM). -/
def State.bankWrite (s : State) (rq : Requester) (d : RegDesc) (reg : Nat) (v : Word64) : State :=
  let j := (reg - 0x601000) / 0x100
  let off := !s.bankEnabled j
  let doIf (ok : Bool) : State := if ok then s.plainWrite d reg v else s
  match (reg - 0x601000) % 0x100 with
  | 0x00 => doIf (rqPart rq == 0 && off)
  | 0x04 => s.bankCfg j v.toNat
  | 0x08 => doIf off
  | 0x10 => doIf off
  | 0x18 => doIf off
  | 0x20 => doIf off
  | 0x30 => doIf (s.bankState j == bkIdle)
  | _ => s.plainWrite d reg v

/-- A plume slot's registers. -/
def State.slotWrite (s : State) (rq : Requester) (d : RegDesc) (reg : Nat) (v : Word64) : State :=
  let k := (reg - 0x4010000) / 0x100
  let st := s.plmState k
  let rest := st == plIdle || st == plDone || st == plAborted || st == plBroken
  let doIf (ok : Bool) : State := if ok then s.plainWrite d reg v else s
  match (reg - 0x4010000) % 0x100 with
  | 0x00 => doIf rest
  | 0x08 => s.plmCtl k v.toNat
  | 0x10 => doIf rest
  | 0x28 => doIf (rqPart rq == 0 && st == plIdle)
  | _ => s.plainWrite d reg v

/-- A geyser's registers: a write takes effect at once and firing is evaluated (R234). -/
def State.geyWrite (s : State) (d : RegDesc) (reg : Nat) (v : Word64) : State :=
  let g := (reg - 0x3000000) / 0x20
  if (reg - 0x3000000) % 0x20 = 0 then s.geySetCount g v
  else (s.plainWrite d reg v).geyChanged g (s.reg (Reg.GEY_COUNT g))

/-- A vent's registers. -/
def State.ventWrite (s : State) (d : RegDesc) (reg : Nat) (v : Word64) : State :=
  let n := (reg - 0x5000000) / 0x10000
  match (reg - 0x5000000) % 0x10000 with
  | 0x00 => s.ventCtl n v.toNat
  | 0xC0 => if s.flag (Fld.VNT_CTL_ENABLE n) then s else s.plainWrite d reg v
  | 0x308 => if v.getLsbD 31 then s.fifoPop n else s
  | _ => s.plainWrite d reg v

/-- The RST block. -/
def State.rstWrite (s : State) (reg : Nat) (v : Word64) : State :=
  let x := v.toNat
  if reg = Reg.RST_ARRAY then
    if v.getLsbD 31 && !s.flag Fld.RST_ARRAY_BUSY && decide (bits x 0 8 < 144) then s.arrayResetReq (bits x 0 8) else s
  else if reg = Reg.RST_VENT then (if v.getLsbD 31 then s.ventReset (bits x 0 4) else s)
  else if reg = Reg.RST_WARM then (if bits x 0 32 = 0x5741524D then s.warmRequest else s)
  else s

/-- The CLK and PWR blocks: gate requests, and frequencies that follow at once. -/
def State.clkWrite (s : State) (d : RegDesc) (reg : Nat) (v : Word64) : State :=
  if Reg.CLK_GATE 0 ≤ reg ∧ reg < Reg.CLK_GATE 4 then s.gateWrite ((reg - Reg.CLK_GATE 0) / 4) v.toNat
  else if Reg.CLK_ISL_FREQ 0 ≤ reg ∧ reg < Reg.CLK_ISL_FREQ 36 then (s.plainWrite d reg v).syncFreq ((reg - Reg.CLK_ISL_FREQ 0) / 4)
  else s.plainWrite d reg v

/-- PCI_GEY_INC (R388). -/
def State.geyIncWrite (s : State) (p : Nat) (v : Word64) : State :=
  let g := bits v.toNat 0 16
  if s.geyOwner g = p then s.geyRelease 81 g (v >>> 32) else s.hostError p 5 0

/-- A write of a whole register by a requester that may make it. -/
def State.regEffect (s : State) (rq : Requester) (d : RegDesc) (reg : Nat) (v : Word64) : State :=
  let inside (lo hi : Nat) : Bool := decide (lo ≤ reg) && decide (reg < hi)
  if inside 0x51000 0x59000 then s.mbxWrite rq d reg v
  else if inside 0x61000 0x61400 then s.dblWrite d reg v
  else if inside 0x10000 0x20000 then s.clkWrite d reg v
  else if inside 0x30000 0x40000 then s.rstWrite reg v
  else if reg = Reg.FRZ_CTL then (if v.getLsbD 31 then s.freezeTrigger 2 else s)
  else if inside 0x110000 0x120000 && (reg - 0x110000) % 0x400 == 0x28 then (if rqPart rq = 0 then s.plainWrite d reg v else s)
  else if inside 0x501000 0x502000 then s.logBankWrite d reg v
  else if inside 0x601000 0x601400 then s.bankWrite rq d reg v
  else if inside 0x701000 0x702000 && (reg - 0x701000) % 0x40 == 0x20 then s.amaxWrite d reg v
  else if inside 0x1000000 0x1900000 then s.arrWrite rq d reg v
  else if reg = Reg.CND_FLUSH then s.cndFlush v.toNat
  else if inside 0x2010000 0x2014000 && (reg - 0x2010000) % 0x100 == 0x40 then s.cndCmd ((reg - 0x2010000) / 0x100) v.toNat
  else if inside 0x3000000 0x3200000 then s.geyWrite d reg v
  else if inside 0x4010000 0x4014000 then s.slotWrite rq d reg v
  else if inside 0x5000000 0x5100000 then s.ventWrite d reg v
  else if 0x100000000 ≤ reg ∧ (reg - 0x100000000) % 0x10000 = 0x2008 then s.geyIncWrite ((reg - 0x100000000) / 0x10000) v
  else s.plainWrite d reg v

/-! ## Values that are computed at a read -/

/-- Registers that show nothing to partition 0 while their partition is sealed (Table 13.2). -/
def State.sealHides (s : State) (rq : Requester) (reg : Nat) : Bool :=
  let inside (lo hi : Nat) : Bool := decide (lo ≤ reg) && decide (reg < hi)
  let hid (p : Nat) : Bool := rqPart rq == 0 && p != 0 && s.isSealed p
  if inside 0x1000000 0x1900000 then
    let o := (reg - 0x1000000) % 0x10000
    (o == 0x08 || o == 0x10 || o == 0x18 || o == 0x30 || (decide (0x50 ≤ o) && decide (o < 0x70)) || o == 0x78 || o == 0xC4 || o == 0xD8) &&
      hid (s.ident ((reg - 0x1000000) / 0x10000)).part
  else if inside 0x701000 0x702000 then hid ((reg - 0x701000) / 0x40)
  else if inside 0x601000 0x601400 then s.flag (Fld.PRF_STEP_OWNER_VALID ((reg - 0x601000) / 0x100)) && hid (s.bankOwner ((reg - 0x601000) / 0x100))
  else if inside 0x680000 0x700000 then s.flag (Fld.PRF_STEP_OWNER_VALID ((reg - 0x680000) / 0x20000)) && hid (s.bankOwner ((reg - 0x680000) / 0x20000))
  else false

/-- Segments that partition 0 holds: those neither granted nor withheld. -/
def State.freeSegs (s : State) : Nat :=
  ((List.range 768).filter fun t => s.getF (Fld.PRT_SEG_OWNER_GRANTED t) == 0 && s.getF (Fld.PRT_SEG_OWNER_WITHHELD t) == 0).length

/-- What a whole register shows a requester. -/
def State.regShow (s : State) (rq : Requester) (d : RegDesc) (reg : Nat) : Word64 :=
  let v := s.reg reg &&& readMask d.fields
  if s.sealHides rq reg then 0
  else if 0x51000 ≤ reg ∧ reg < 0x59000 ∧ (reg - 0x51000) % 0x80 < 0x40 then (if chanReceiver ((reg - 0x51000) / 0x80) rq then v else 0)
  else if reg = Reg.PRT_STATE 0 then putField v 0 16 s.freeSegs
  else if 0x1000000 ≤ reg ∧ reg < 0x1900000 ∧ (reg - 0x1000000) % 0x10000 = 0x48 then
    putField v 1 1 (if s.accWindowOpen ((reg - 0x1000000) / 0x10000) then 1 else 0)
  else if reg = Reg.SEC_CONSENT0 then
    BitVec.ofNat 64 ((partNumbers.map fun p => if s.isOwned && s.consents p then 2 ^ p else 0).sum)
  else if 0x100000000 ≤ reg ∧ (reg - 0x100000000) % 0x10000 = 0x2010 then
    BitVec.ofNat 64 (s.partState ((reg - 0x100000000) / 0x10000) * 2 ^ 29 + s.level * 2 ^ 24 + s.getF Fld.TOP_DEVNUM_DEVNUM * 2 ^ 16 +
      s.getF Fld.PCI_CFG_HEAD)
  else v

/-! ## Halves of 64-bit registers (R8) -/

def Latch.is (rq : Requester) (reg : Nat) (l : Latch) : Bool := decide (l.rq = rq) && l.reg == reg

/-- A write of a register, or of a half; `spaced` says that a high half with no low half held is an error. -/
def State.writePart (s : State) (rq : Requester) (d : RegDesc) (reg : Nat) (part : Part) (v : Word64) (spaced : Bool) : State :=
  let held := s.acc.halves.find? (Latch.is rq reg)
  let dropped : State := { s with acc := { s.acc with halves := s.acc.halves.filter fun l => !l.is rq reg } }
  match part with
  | .whole => dropped.regEffect rq d reg v
  | .low => { dropped with acc := { dropped.acc with halves := dropped.acc.halves ++ [⟨rq, reg, v.setWidth 32⟩] } }
  | .high => match held with
    | some l => dropped.regEffect rq d reg ((v <<< 32) ||| l.high.setWidth 64)
    | none => if spaced then s.accessError rq 2 (reg + 4) 4 else s

/-- A read of a register, or of a half. -/
def State.readPart (s : State) (rq : Requester) (d : RegDesc) (reg : Nat) (part : Part) : State × Word64 :=
  let v := s.regShow rq d reg
  let clear (s : State) (lo : Nat) : State := if s.sealHides rq reg then s else s.setReg reg (clearRc d.fields lo (s.reg reg))
  let others := s.acc.latches.filter fun l => !l.is rq reg
  match part with
  | .whole => (clear s 0, v)
  | .low =>
    let s1 := clear s 0
    ({ s1 with acc := { s1.acc with latches := others ++ [⟨rq, reg, (v >>> 32).setWidth 32⟩] } }, v &&& 0xFFFFFFFF)
  | .high => match s.acc.latches.find? (Latch.is rq reg) with
    | some l => ({ s with acc := { s.acc with latches := others } }, l.high.setWidth 64)
    | none => (clear s 32, v >>> 32)

/-! ## Register space -/

/-- A service call in progress owns the block of an offset (R12). -/
def State.blockOwned (s : State) (off : Nat) : Bool := match blockOf off with
  | some b => s.acc.calls.any fun c => c.blocks.contains b.1
  | none => false

/-- A write to register space. -/
def State.spaceWrite (s : State) (rq : Requester) (off width : Nat) (v : Word64) : State :=
  match s.verdict rq off width with
  | .ok d reg part => s.writePart rq d reg part v true
  | .silent => s
  | .error k => s.accessError rq k off width
  | .denied => s.accessDenied rq off

/-- A read of register space. -/
def State.spaceRead (s : State) (rq : Requester) (off width : Nat) : State × Word64 :=
  match s.verdict rq off width with
  | .ok d reg part =>
    let s1 := if 0x1000000 ≤ reg ∧ reg < 0x1900000 then s.wakeIsland ((reg - 0x1000000) / 0x40000) else s
    s1.readPart rq d reg part
  | .silent => (s, 0)
  | .error k => (s.accessError rq k off width, 0)
  | .denied => (s.accessDenied rq off, 0)

/-! ## BAR0 (Table 12.3) -/

/-- The register that a BAR0 offset of a function stands for. -/
def bar0Reg (f off : Nat) : Option Nat :=
  if off < 0x200 then some (0x51000 + ([f, 128 + f, 64 + f, 192 + f].getD (off / 0x80) 0) * 0x80 + off % 0x80)
  else if 0x1000 ≤ off ∧ off < 0x1010 then some (0x61000 + f * 0x10 + (off - 0x1000))
  else if 0x2000 ≤ off ∧ off < 0x2014 then some (0x100000000 + f * 0x10000 + off)
  else none

def bar0Part (f off width : Nat) : Option (RegDesc × Nat × Part) :=
  if width = 0 ∨ off % width ≠ 0 then none
  else match bar0Reg f off with
    | none => none
    | some o => match regCover o with
      | none => none
      | some (d, reg) => (partOf d reg o width).map fun p => (d, reg, p)

/-- The unmasking of a pending vector sends its one message (R401). -/
def State.msixRelease (s : State) (f v : Nat) : State :=
  if getBool s.host.pba (f * 2048 + v) && !s.vecMasked f v then
    let s1 := { s with host := { s.host with pba := setBool s.host.pba (f * 2048 + v) false } }
    match s1.irqBar f with
    | some c => s1.irqLost f v c 1
    | none => s1.msixSend f v
  else s

/-- A write to the MSI-X table: aligned words of 4 or 8 bytes; of Vector Control only the Mask bit is kept. -/
def State.msixWrite (s : State) (f off width : Nat) (v : Word64) : State :=
  if (width ≠ 4 ∧ width ≠ 8) ∨ off % width ≠ 0 then s
  else
    let k := (off - 0x10000) / 8
    let old := Sparse.get msixDefault s.host.msixTable (f * 4096 + k)
    let x := if width = 8 then v else if off % 8 = 0 then putField old 0 32 (v.toNat % 2 ^ 32) else putField old 32 32 (v.toNat % 2 ^ 32)
    let y := if k % 2 = 1 then x &&& 0x1FFFFFFFF else x
    let s1 := { s with host := { s.host with msixTable := Sparse.set msixDefault s.host.msixTable (f * 4096 + k) y } }
    s1.msixRelease f (k / 2)

def State.msixRead (s : State) (f off width : Nat) : Word64 :=
  if (width ≠ 4 ∧ width ≠ 8) ∨ off % width ≠ 0 then 0
  else
    let x : Word64 := if off < 0x18000 then Sparse.get msixDefault s.host.msixTable (f * 4096 + (off - 0x10000) / 8)
      else BitVec.ofNat 64 (((List.range 64).map fun i => if getBool s.host.pba (f * 2048 + (off - 0x18000) / 8 * 64 + i) then 2 ^ i else 0).sum)
    if width = 8 then x else if off % 8 = 0 then x &&& 0xFFFFFFFF else x >>> 32

def isMsix (off : Nat) : Bool := (decide (0x10000 ≤ off) && decide (off < 0x18000)) || (decide (0x18000 ≤ off) && decide (off < 0x18100))

/-- A function whose partition is not ACTIVE serves only its mailbox channels in BAR0 (R387). -/
def State.fnBarred (s : State) (f : Nat) (bar0 : Bool) (off : Nat) : Bool := !s.partActive f && !(bar0 && decide (off < 0x200))

def State.inactiveAccess (s : State) (f : Nat) (bar0 : Bool) (off : Nat) : State :=
  (s.hostError f 4 (if bar0 then 0 else regBase + off)).incSat Fld.PCI_ERR_UR 1

/-! ## The accesses of a requester -/

/-- Perform a write that nothing holds back. -/
def State.regWriteNow (s : State) (x : RegWrite) : State :=
  match x.rq with
  | .fn f =>
    if !s.hostReach f then s
    else if s.fnBarred f x.bar0 x.off then s.inactiveAccess f x.bar0 x.off
    else if x.bar0 then
      if isMsix x.off then (if x.off < 0x18000 then s.msixWrite f x.off x.width x.value else s)
      else match bar0Part f x.off x.width with
        | some (d, reg, part) => s.writePart x.rq d reg part x.value false
        | none => s
    else s.spaceWrite x.rq x.off x.width x.value
  | _ => s.spaceWrite x.rq x.off x.width x.value

/-- A register write: an expert write to a block that a call owns is held back (R12). -/
def State.regWrite (s : State) (x : RegWrite) : State :=
  match x.rq with
  | .fn f =>
    if s.hostReach f && !x.bar0 && s.blockOwned x.off then { s with acc := { s.acc with held := s.acc.held ++ [x] } }
    else s.regWriteNow x
  | _ => s.regWriteNow x

/-- A register read: what it answers, and how the request completes. -/
def State.regRead (s : State) (rq : Requester) (bar0 : Bool) (off width : Nat) : State :=
  let reply (r : State × Word64) (st : Nat) : State :=
    { r.1 with host := { r.1.host with answer := some ⟨toLe width r.2.toNat, st⟩ } }
  match rq with
  | .fn f =>
    if !s.hostReach f then s
    else if s.fnBarred f bar0 off then reply (s.inactiveAccess f bar0 off, 0) 1
    else if bar0 then
      if isMsix off then reply (s, s.msixRead f off width) 0
      else match bar0Part f off width with
        | some (d, reg, part) => reply (s.readPart rq d reg part) 0
        | none => reply (s, 0) 0
    else reply (s.spaceRead rq off width) 0
  | _ => reply (s.spaceRead rq off width) 0

/-- A whole register written by a function through register space. -/
def State.fnWrite (s : State) (f off width : Nat) (v : Word64) : State := s.regWrite ⟨.fn f, false, off, width, v⟩

/-- Expert writes that were held back are performed once no call owns their block (R12). -/
def State.releaseHeld (s : State) : State :=
  let free := s.acc.held.filter fun x => !s.blockOwned x.off
  free.foldl (fun s x => s.regWriteNow x) { s with acc := { s.acc with held := s.acc.held.filter fun x => s.blockOwned x.off } }

end Sys2Proof.Machine
end

