-- ==== Sys2Proof/Machine/AccessRows.lean ====
section
/-! DEFINITION. Commands that are the write or the read of a register: the generic ones, and those whose effect the table of
commands names separately. -/
namespace Sys2Proof.Machine

/-- A write of a whole register in register space by a requester. -/
def spaceWriteCmd (rq : Requester) (reg width : Nat) (v : Word64) (s : State) : Host.Outcome State Fault Refusal :=
  live s <| .next (s.regWrite ⟨rq, false, reg, width, v⟩)
/-- The same, of a unit that the device may not have. -/
def unitWriteCmd (ok : Bool) (n : Nat) (rq : Requester) (reg width : Nat) (v : Word64) (s : State) : Host.Outcome State Fault Refusal :=
  if ok then spaceWriteCmd rq reg width v s else live s <| .fault (.noSuchUnit n)

/-- REGISTER_WRITE: by field type, lock, grant and width (R4 to R12). -/
def execRegisterWrite (rq : Requester) (bar0 : Bool) (off width : Nat) (value : BitVec 64) (s : State) : Host.Outcome State Fault Refusal :=
  live s <| .next (s.regWrite ⟨rq, bar0, off, width, value⟩)
/-- REGISTER_READ_CLEARING: the value, and what the read clears or latches (R4, R6, R8). -/
def execRegisterReadClearing (rq : Requester) (bar0 : Bool) (off width : Nat) (s : State) : Host.Outcome State Fault Refusal :=
  live s <| .next (s.regRead rq bar0 off width)

/-! ## ARR_CTL -/

def execArrCtlStart (rq : Requester) (n : Nat) (s : State) : Host.Outcome State Fault Refusal :=
  unitWriteCmd (decide (n < 144)) n rq (Reg.ARR_CTL n) 4 0x02 s
def execArrCtlResume (rq : Requester) (n : Nat) (s : State) : Host.Outcome State Fault Refusal :=
  unitWriteCmd (decide (n < 144)) n rq (Reg.ARR_CTL n) 4 0x04 s
def execArrCtlStop (rq : Requester) (n : Nat) (s : State) : Host.Outcome State Fault Refusal :=
  unitWriteCmd (decide (n < 144)) n rq (Reg.ARR_CTL n) 4 0x08 s
def execArrCtlStep (rq : Requester) (n : Nat) (s : State) : Host.Outcome State Fault Refusal :=
  unitWriteCmd (decide (n < 144)) n rq (Reg.ARR_CTL n) 4 0x10 s
def execArrCtlSave (rq : Requester) (n : Nat) (s : State) : Host.Outcome State Fault Refusal :=
  unitWriteCmd (decide (n < 144)) n rq (Reg.ARR_CTL n) 4 0x20 s

/-! ## Geysers and conduits -/

/-- GEY_REGISTER_WRITE: register `which` of geyser `g`: COUNT, TARGET, ACT0, ACT1 (R234). -/
def execGeyRegisterWrite (rq : Requester) (g which : Nat) (value : BitVec 64) (s : State) : Host.Outcome State Fault Refusal :=
  unitWriteCmd (decide (g < 65536) && decide (which < 4)) g rq (Reg.GEY_COUNT g + 8 * which) 8 value s

/-- CND_CMD_POST: a bank posts its CND_POST_DATA (R220). -/
def execCndCmdPost (rq : Requester) (p c : Nat) (s : State) : Host.Outcome State Fault Refusal :=
  unitWriteCmd (decide (p < 64)) p rq (Reg.CND_CMD p) 4 (dw (0x100000 + c % 1048576)) s
/-- CND_CMD_TAKE: a bank takes an entry into its CND_TAKE_DATA (R220). -/
def execCndCmdTake (rq : Requester) (p c : Nat) (s : State) : Host.Outcome State Fault Refusal :=
  unitWriteCmd (decide (p < 64)) p rq (Reg.CND_CMD p) 4 (dw (0x200000 + c % 1048576)) s

/-- The value of CND_FLUSH. -/
def flushValue (all hold : Bool) (c : Nat) : Word64 :=
  dw ((if all then 2 ^ 30 else 0) + (if hold then 2 ^ 29 else 0) + c % 1048576)
/-- CND_FLUSH_WRITEBACK: one or every cached context goes back to the table (R224). -/
def execCndFlushWriteback (rq : Requester) (all : Bool) (c : Nat) (s : State) : Host.Outcome State Fault Refusal :=
  spaceWriteCmd rq Reg.CND_FLUSH 4 (flushValue all false c) s
/-- CND_FLUSH_HOLD: written back and held uncached (R225). -/
def execCndFlushHold (rq : Requester) (all : Bool) (c : Nat) (s : State) : Host.Outcome State Fault Refusal :=
  spaceWriteCmd rq Reg.CND_FLUSH 4 (flushValue all true c) s
/-- CND_FLUSH_RELEASE: a hold ends (R225). -/
def execCndFlushRelease (rq : Requester) (all : Bool) (c : Nat) (s : State) : Host.Outcome State Fault Refusal :=
  spaceWriteCmd rq Reg.CND_FLUSH 4 (flushValue all false c) s

/-! ## Plumes and step banks -/

/-- PLM_CTL_START (R274). -/
def execPlmCtlStart (rq : Requester) (k : Nat) (s : State) : Host.Outcome State Fault Refusal :=
  unitWriteCmd (decide (k < 64)) k rq (Reg.PLM_CTL k) 4 1 s
/-- PLM_CTL_ABORT (R298). -/
def execPlmCtlAbort (rq : Requester) (k : Nat) (s : State) : Host.Outcome State Fault Refusal :=
  unitWriteCmd (decide (k < 64)) k rq (Reg.PLM_CTL k) 4 2 s
/-- PRF_STEP_ENABLE: a write of PRF_STEP_CFG (R304). -/
def execPrfStepEnable (rq : Requester) (j : Nat) (value : BitVec 32) (s : State) : Host.Outcome State Fault Refusal :=
  unitWriteCmd (decide (j < 4)) j rq (Reg.PRF_STEP_CFG j) 4 (value.setWidth 64) s

/-! ## Vents -/

/-- VNT_ENABLE: VNT_CTL is written with ENABLE set or clear and the rest as it stands (R362). -/
def execVntEnable (rq : Requester) (v : Nat) (on : Bool) (s : State) : Host.Outcome State Fault Refusal :=
  unitWriteCmd (decide (v < 16)) v rq (Reg.VNT_CTL v) 4 (putField (s.reg (Reg.VNT_CTL v)) 31 1 (if on then 1 else 0)) s
/-- VNT_CTL_RESET: VNT_CTL is written with RESET set and the rest as it stands (R381). -/
def execVntCtlReset (rq : Requester) (v : Nat) (s : State) : Host.Outcome State Fault Refusal :=
  unitWriteCmd (decide (v < 16)) v rq (Reg.VNT_CTL v) 4 (putField (s.reg (Reg.VNT_CTL v)) 30 1 1) s
/-- VNT_PTP_FIFO_POP (R376). -/
def execVntPtpFifoPop (rq : Requester) (v : Nat) (s : State) : Host.Outcome State Fault Refusal :=
  unitWriteCmd (decide (v < 16)) v rq (Reg.VNT_PTP_FIFO v) 4 0x80000000 s

/-! ## Resets, freeze and gating -/

/-- RST_ARRAY_GO (R472). -/
def execRstArrayGo (rq : Requester) (n : Nat) (s : State) : Host.Outcome State Fault Refusal :=
  unitWriteCmd (decide (n < 144)) n rq Reg.RST_ARRAY 4 (dw (2 ^ 31 + n)) s
/-- RST_VENT_GO (R381). -/
def execRstVentGo (rq : Requester) (v : Nat) (s : State) : Host.Outcome State Fault Refusal :=
  unitWriteCmd (decide (v < 16)) v rq Reg.RST_VENT 4 (dw (2 ^ 31 + v)) s
/-- RST_WARM_KEY: a key is written to RST_WARM (R473). -/
def execRstWarmKey (rq : Requester) (key : BitVec 32) (s : State) : Host.Outcome State Fault Refusal :=
  spaceWriteCmd rq Reg.RST_WARM 4 (key.setWidth 64) s
/-- FRZ_CTL_TRIGGER (R479). -/
def execFrzCtlTrigger (rq : Requester) (s : State) : Host.Outcome State Fault Refusal :=
  spaceWriteCmd rq Reg.FRZ_CTL 4 0x80000000 s
/-- CLK_GATE_WRITE: CLK_GATE k is written (R462). -/
def execClkGateWrite (rq : Requester) (k : Nat) (value : BitVec 32) (s : State) : Host.Outcome State Fault Refusal :=
  unitWriteCmd (decide (k < 4)) k rq (Reg.CLK_GATE k) 4 (value.setWidth 64) s

/-! ## Function registers -/

/-- PCI_GEY_INC (R388). -/
def execPciGeyInc (f g amount : Nat) (s : State) : Host.Outcome State Fault Refusal := live s <|
  if 64 ≤ f then .fault (.noSuchUnit f) else .next (s.regWrite ⟨.fn f, true, 0x2008, 8, dw (amount % 2 ^ 32 * 2 ^ 32 + g % 65536)⟩)

/-- DBL_RING: user doorbells of an inbox, by partition 0 or by the inbox's own partition (R414, Table 12.8). -/
def execDblRing (rq : Requester) (f : Nat) (bells : BitVec 16) (s : State) : Host.Outcome State Fault Refusal :=
  unitWriteCmd (decide (f < 64)) f rq (Reg.DBL_RING f) 4 (bells.setWidth 64 <<< 16) s

/-- The requester that sends on a channel, and the one that receives (Table 12.7). -/
def senderOf (c : Nat) : Requester := if chanFromFn c then .fn (chanFn c) else if 192 ≤ c then .sinter else .core 0
/-- A write to a channel's register: a function through BAR0, the fumarole and the sinter through register space. -/
def State.chanWrite (s : State) (rq : Requester) (c off : Nat) (v : Word64) : State :=
  match rq with
  | .fn f => s.regWrite ⟨.fn f, true, c / 64 % 2 * 0x100 + c / 128 * 0x80 + off, 4, v⟩
  | _ => s.regWrite ⟨rq, false, Reg.MBX_DATA c 0 + off, 4, v⟩

/-- MBX_GO: the sender writes its words, LEN and GO (R411). -/
def execMbxGo (c len : Nat) (words : List (BitVec 32)) (s : State) : Host.Outcome State Fault Refusal := live s <|
  if 256 ≤ c then .fault (.noSuchUnit c)
  else
    let rq := senderOf c
    let s1 := ((words.take 16).zipIdx).foldl (fun s e => s.chanWrite rq c (4 * e.2) (e.1.setWidth 64)) s
    .next (s1.chanWrite rq c 0x40 (dw (256 + len % 32)))

end Sys2Proof.Machine
end

