-- ==== Sys2Proof/Machine/Host.lean ====
section
/-! DEFINITION. Requests and events of the PCIe side: the aperture, configuration requests, link and function resets, and
coalesced interrupts (R384 to R390, R400 to R405, R443, R475, R532). -/
namespace Sys2Proof.Machine

/-! ## The aperture (R386, R387, Table 13.2) -/

/-- The aperture of a function is open to a request that travels on a selective stream, or on none (R443, Table 13.2). -/
def State.apertureOpen (s : State) (p : Nat) (ide : Option Nat) : Bool :=
  if s.isSealed p then match s.policy p with
    | some x => x.aperture == 2 || (x.aperture == 1 && s.sec.ide.any fun k => ide == some k.1 && k.2.1 == p && k.2.2)
    | none => false
  else true

/-- The partition-relative local address of an offset in BAR4. -/
def State.apertureAddr (s : State) (p off : Nat) : Nat := s.getF (Fld.PCI_APERTURE_BASE p) * gib + off % 2 ^ 36

/-- A register or debug window is not reached through the aperture, and neither is anything unmapped. -/
def State.apertureMapped (s : State) (p a len : Nat) (ide : Option Nat) : Bool :=
  s.apertureOpen p ide && decide (a + len ≤ 2 ^ 48) && s.localRangeOk p a len

/-- A window access restarts the clock of an idle island (R461). -/
def State.wakeWindows (s : State) (p a len : Nat) : State :=
  (pieces 8 a len).foldl (fun s x => match s.placeOf p x.1 x.2 with
    | .oc n _ => s.wakeIsland (n / 4)
    | .hbm => s.hbmUse p x.2
    | _ => s) s

def State.hostAnswer (s : State) (data : List Byte) (status : Nat) : State := { s with host := { s.host with answer := some ⟨data, status⟩ } }

/-- A request that is answered as one to an unmapped address: kind 1, or 4 while the partition is not ACTIVE. -/
def State.apertureBad (s : State) (p kind a : Nat) : State := (s.hostError p kind a).incSat Fld.PCI_ERR_UR 1

/-- APERTURE_READ: function `f` reads bytes of BAR4. -/
def execApertureRead (f off len : Nat) (ide : Option Nat) (s : State) : Host.Outcome State Fault Refusal := live s <|
  if 64 ≤ f then .fault (.noSuchUnit f)
  else if !s.hostReach f then .next s
  else
    let a := s.apertureAddr f off
    if !s.partActive f then .next ((s.apertureBad f 4 a).hostAnswer [] 1)
    else if !s.apertureMapped f a len ide then .next ((s.apertureBad f 1 a).hostAnswer [] 1)
    else
      let s1 := s.wakeWindows f a len
      match s1.localBadTag f a len with
      | some o => .next ((((s1.integrityAt f (a + o)).hostError f 3 (a + o)).incSat Fld.PCI_ERR_CA 1).hostAnswer [] 2)
      | none => match s1.localPoison f a len with
        | some o => .next (((s1.hostError f 2 (a + o)).incSat Fld.PCI_ERR_POISONED 1).hostAnswer (s1.localRead f a len) 3)
        | none => .next (s1.hostAnswer (s1.localRead f a len) 0)

/-- The parts of a range that lie in one 64-byte line each: offset and length. -/
def lineParts (a len : Nat) : List (Nat × Nat) :=
  (touchedLines a len).map fun l => (max (l * 64) a - a, min (l * 64 + 64) (a + len) - max (l * 64) a)

/-- Write one line's part: a part of a line whose tag fails is dropped (R532). -/
def State.apertureLine (s : State) (p a : Nat) (data : List Byte) : State :=
  if data.length < 64 && (s.localBadTag p a data.length).isSome then
    ((s.integrityAt p a).hostError p 3 a).incSat Fld.PCI_ERR_CA 1
  else s.localWrite p a data

/-- APERTURE_WRITE: function `f` writes bytes of BAR4, in the order in which the endpoint receives the writes. -/
def execApertureWrite (f off : Nat) (data : List Byte) (ide : Option Nat) (s : State) : Host.Outcome State Fault Refusal := live s <|
  if 64 ≤ f then .fault (.noSuchUnit f)
  else if !s.hostReach f then .next s
  else
    let a := s.apertureAddr f off
    if !s.partActive f then .next (s.apertureBad f 4 a)
    else if !s.apertureMapped f a data.length ide || s.textHit f a data.length then .next (s.apertureBad f 1 a)
    else
      .next ((lineParts a data.length).foldl (fun s x => s.apertureLine f (a + x.1) ((data.drop x.1).take x.2)) (s.wakeWindows f a data.length))

/-! ## Configuration requests (R405, R475) -/

/-- A configuration request reaches the endpoint. -/
def State.cfgReach (s : State) : Bool := !s.host.perst && s.flag Fld.PCI_LINK_UP
/-- Start-up, or a warm firmware reset, has not ended: Request Retry Status. -/
def State.cfgRetry (s : State) : Bool := s.level == lvStarting || s.pow.warm

def setMember (l : List Nat) (x : Nat) (on : Bool) : List Nat := if on then l.filter (fun y => y != x) ++ [x] else l.filter fun y => y != x

/-- What a configuration write does (R401, R412). -/
def State.cfgApply (s : State) (f : Nat) : ConfigReq → State
  | .read => s
  | .msixEnable on =>
    let s1 := if on then s else s.dropHeld (fun h => h.fn == f) 1
    { s1 with host := { s1.host with msixEn := setMember s1.host.msixEn f on } }
  | .functionMask on =>
    let s1 := { s with host := { s.host with msixFnMask := setMember s.host.msixFnMask f on } }
    if on then s1 else (List.range 2048).foldl (fun s v => s.msixRelease f v) s1
  | .power d3 =>
    let s1 := { s with host := { s.host with d3hot := setMember s.host.d3hot f d3 } }
    if d3 then (((s1.dropHeld (fun h => h.fn == f) 2).abortTo (64 + f) 3 true).abortTo (192 + f) 3 true) else s1
  | .vfEnable => if f = 0 then { s with host := { s.host with vfEnable := true } } else s

/-- PCIE_CONFIG_REQUEST: answered with Request Retry Status until start-up ends. -/
def execPcieConfigRequest (f : Nat) (r : ConfigReq) (s : State) : Host.Outcome State Fault Refusal := live s <|
  if 64 ≤ f then .fault (.noSuchUnit f)
  else if !s.cfgReach then .next s
  else if s.cfgRetry then .next (s.hostAnswer [] 4)
  else if f ≠ 0 ∧ !s.host.vfEnable then .next (s.hostAnswer [] 1)
  else .next ((s.cfgApply f r).hostAnswer [] 0)

/-! ## Link and resets (R390, R402, R405, R470, Table 12.6) -/

/-- The highest generation that the link trains (PCI_CFG.MAX_GEN). -/
def State.maxGen (s : State) : Nat := let g := s.getF Fld.PCI_CFG_MAX_GEN; if g = 5 ∨ g = 6 then g else 7

/-- PCIE_LINK_UP: the link trains to L0 at a generation and width of Table 12.1, and the device becomes the head. -/
def execPcieLinkUp (gen width : Nat) (s : State) : Host.Outcome State Fault Refusal := live s <|
  if s.host.perst || !s.pow.locked || s.flag Fld.PCI_LINK_UP || !(decide (5 ≤ gen) && decide (gen ≤ s.maxGen)) ||
     !(width == 16 || width == 8 || width == 4) then .next s
  else
    let s1 := s.setFs [(Fld.PCI_LINK_UP, 1), (Fld.PCI_LINK_GEN, gen), (Fld.PCI_LINK_WIDTH, width), (Fld.PCI_CFG_HEAD, 1)]
    .next (s1.raise srcPcie wholeDevice clsInfo 0x9007 0 [1, w gen, w width])

/-- The link is down, and the host side with it. -/
def State.pcieDown (s : State) : State := s.endpointReset.linkLost
/-- The same, with the IDE keys erased (Table 13.6). -/
def State.fundamental (s : State) : State := let s1 := s.pcieDown; { s1 with sec := { s1.sec with ide := [] } }

/-- PCIE_LINK_DOWN. -/
def execPcieLinkDown (s : State) : Host.Outcome State Fault Refusal := live s <|
  if s.flag Fld.PCI_LINK_UP then .next s.pcieDown else .next s

/-- PERST_N: its assertion holds the endpoint in fundamental reset; a stopped device records the pin alone. -/
def execPerstN (s : State) : Host.Outcome State Fault Refusal :=
  if s.host.perst then .next s
  else
    let s1 := { s with host := { s.host with perst := true } }
    .next (if s1.alive then s1.fundamental else s1)

/-- PERST_N_DEASSERT: fundamental reset ends and the link trains; the device is a member until it has (R390, R519). -/
def execPerstNDeassert (s : State) : Host.Outcome State Fault Refusal :=
  if s.host.perst then
    let s1 := { s with host := { s.host with perst := false } }
    .next (if s1.alive then s1.setF Fld.PCI_CFG_HEAD 0 else s1)
  else .next s

/-- HOT_RESET: as PERST_N. -/
def execHotReset (s : State) : Host.Outcome State Fault Refusal := live s <|
  if s.cfgReach then .next s.fundamental else .next s

/-- The reset of the physical function: function 0's channels, inbox and interrupt state, and the calls of partition 0. -/
def State.flrZero (s : State) : State :=
  let s1 := ((s.clearChannels 0 false).dropCalls 0).resetMsix 0
  { s1 with host := { s1.host with
      replies := s1.host.replies.filter fun r => r.part != 0
      retry := s1.host.retry.filter fun r => r.part != 0
      lost := Sparse.set natDefault (Sparse.set natDefault s1.host.lost 64 0) 192 0 } }

/-- FLR: Initiate Function Level Reset of a function; of a partition that is not ACTIVE it has no effect (R403). -/
def execFlr (f : Nat) (s : State) : Host.Outcome State Fault Refusal := live s <|
  if 64 ≤ f then .fault (.noSuchUnit f)
  else if !s.cfgReach then .next s
  else if s.cfgRetry then .next (s.hostAnswer [] 4)
  else if f = 0 then .next s.flrZero.releaseHeld
  else if s.host.vfEnable && s.partActive f then .next (s.flrBegin f 2).releaseHeld
  else .next s

/-- VF_ENABLE_CLEAR: messages into the virtual functions are aborted with reason 3, and their MSI-X tables, Pending Bit Arrays
and aperture registers reset. -/
def execVfEnableClear (s : State) : Host.Outcome State Fault Refusal := live s <|
  if !s.cfgReach then .next s
  else if s.cfgRetry then .next (s.hostAnswer [] 4)
  else
    let vfs := (List.range 64).filter fun f => f != 0
    let s1 := vfs.foldl (fun s f => ((s.abortTo (64 + f) 3 true).abortTo (192 + f) 3 true).resetMsix f) s
    .next { s1 with host := { s1.host with vfEnable := false } }

/-! ## Coalescing (R401) -/

/-- IRQ_COALESCE_EXPIRY: MAX_DELAY has passed since the first signal that a vector holds. -/
def execIrqCoalesceExpiry (f v : Nat) (s : State) : Host.Outcome State Fault Refusal := live s <|
  if 64 ≤ f then .fault (.noSuchUnit f)
  else
    let mine (h : HeldIrq) : Bool := h.fn == f && h.vec == v
    let due (h : HeldIrq) : Bool := mine h && decide (h.since + s.getF (Fld.PRT_IRQ_MAX_DELAY f) * 1000 ≤ s.time)
    if s.getF (Fld.PRT_IRQ_MAX_DELAY f) = 0 ∨ !s.host.held.any due then .next s
    else .next (({ s with host := { s.host with held := s.host.held.filter fun h => !mine h } }).msixSend f v)

end Sys2Proof.Machine
end

