-- ==== Sys2Proof/Machine/Power.lean ====
section
/-! DEFINITION. Power states, resets from contacts, REFCLK, trimming, the power cap, temperatures, and the wake detector (R378 to
R380, R456 to R458, R463 to R470, R474 to R479, R521, R522). -/
namespace Sys2Proof.Machine

def srcIsland : Nat := srcDomain 94

/-! ## Whole-device resets from outside (R470, R521) -/

/-- A power-on reset: the cause that the island knows, or POWER_ON. -/
def State.powerOn (s : State) : State :=
  let s1 := s.wholeReset (s.pow.nextCause.getD 1) false
  ({ s1 with pow := { s1.pow with tripped := false } }).startUp none

/-- POWER_ON_RESET: 54 V enters its operating range.  After a thermal trip the start waits for Tj below 85 degrees. -/
def execPowerOnReset (tj : Nat) (s : State) : Host.Outcome State Fault Refusal :=
  if s.pow.tripped && decide (85 ≤ tj) then .next s else .next s.powerOn

/-- A wake from DORMANT (R469): a power-on reset that keeps the island and the wake registers. -/
def State.wakeUp (s : State) (cause : Nat) : State :=
  let s1 := ((s.wholeReset cause false).copyRegs s islandRegs).setFs [(Fld.VNT_WAKE_STATUS_ARMED, 0), (Fld.CLK_SRC_REFCLK_OK, if s.pow.refclk then 1 else 0)]
  ({ s1 with i3c := s.i3c, pow := { s1.pow with refclk := s.pow.refclk } }).startUp none

/-- RESET_N: a low of 200 ns or longer; start-up goes on at its release.  After a thermal trip it begins the start, once Tj is
below 85 degrees; in DORMANT it wakes. -/
def execResetN (ns tj : Nat) (s : State) : Host.Outcome State Fault Refusal :=
  if ns < 200 then .next s
  else
    let s1 := { s with pow := { s.pow with resetLow := true } }
    match s.pow.state with
    | .off =>
      if s.pow.tripped && decide (tj < 85) then .next s1.powerOn
      else .next s1
    | .dormant => .next (s1.wakeUp 2)
    | _ => .next (s1.wholeReset 2 true)

/-- RESET_N_RELEASE: RESET_N returns high, and start-up goes on from where it stopped. -/
def execResetNRelease (s : State) : Host.Outcome State Fault Refusal :=
  let s1 := { s with pow := { s.pow with resetLow := false } }
  if s.pow.resetLow && s.pow.state == .starting then .next (s1.startUp none) else .next s1

/-- V54_FAIL: 54 V has been outside its operating range for `us`; from 50 us on the device stops with all die and HBM state lost. -/
def execV54Fail (us : Nat) (s : State) : Host.Outcome State Fault Refusal :=
  if us < 50 ∨ s.pow.state = .off ∧ !s.pow.tripped then .next s
  else .next { s with pow := { s.pow with state := .off, nextCause := some (if s.pow.tripped then 4 else 7) } }

/-- THERMAL_TRIP: at 115 degrees the island removes power from every rail except its own. -/
def execThermalTrip (tj : Nat) (s : State) : Host.Outcome State Fault Refusal :=
  if tj < 115 ∨ s.pow.state = .off then .next s
  else .next { s with pow := { s.pow with state := .off, tripped := true, nextCause := some 4 } }

/-! ## FREEZE_N and WAKE_N (R479, R469, R521) -/

/-- FREEZE_N: low for `ns`, and whether it stays low; a low shorter than 40 ns is ignored, and with RESET_N low it is not taken. -/
def execFreezeN (ns : Nat) (stays : Bool) (s : State) : Host.Outcome State Fault Refusal :=
  if ns < 40 then .next s
  else .next (({ s with pow := { s.pow with freezeLow := stays } }).freezeTrigger 1)

/-- WAKE_N: low for `us` in DORMANT. -/
def execWakeN (us : Nat) (s : State) : Host.Outcome State Fault Refusal :=
  if s.pow.state = .dormant ∧ 1000 ≤ us ∧ s.flag Fld.PWR_WAKE_WAKE_N then .next (s.wakeUp 6) else .next s

/-! ## The wake-pattern detector (R378 to R380) -/

/-- VNT_WAKE_CFG.MODE as it acts. -/
def State.wakeMode (s : State) : Nat := let m := s.getF Fld.VNT_WAKE_CFG_MODE; if m = 3 then 0 else m

/-- WAKE_DETECTOR_ARM: in the dormant state the signal has been absent for QUIET ms without a break. -/
def execWakeDetectorArm (s : State) : Host.Outcome State Fault Refusal :=
  if s.pow.state = .dormant ∧ s.flag Fld.PWR_WAKE_DETECTOR ∧ s.wakeMode ≠ 0 ∧ !s.pow.armed then
    .next (({ s with pow := { s.pow with armed := true } }).setF Fld.VNT_WAKE_STATUS_ARMED 1)
  else .next s

/-- Bursts matched after one more, given the gap before it and its length in ms; a faulty gap or burst restarts the match, and the
burst that ends a faulty gap is not counted. -/
def burstStep (onMin onMax offMin offMax count : Nat) (k : Nat) (e : Nat × Nat) : Nat :=
  if k = count then k
  else if 0 < k ∧ ¬(offMin ≤ e.1 ∧ e.1 ≤ offMax) then 0
  else if onMin ≤ e.2 ∧ e.2 ≤ onMax then k + 1 else 0

/-- The signal since arming completes a match: each burst as the gap before it and its length. -/
def State.wakeMatches (s : State) (bursts : List (Nat × Nat)) : Bool :=
  let on := s.getF Fld.VNT_WAKE_TIMES_ON_MIN
  if s.wakeMode = 1 then bursts.any fun e => decide (on ≤ e.2)
  else
    let count := min 8 (max 2 (s.getF Fld.VNT_WAKE_CFG_COUNT))
    bursts.foldl (burstStep on (s.getF Fld.VNT_WAKE_TIMES_ON_MAX) (s.getF Fld.VNT_WAKE_TIMES_OFF_MIN) (s.getF Fld.VNT_WAKE_TIMES_OFF_MAX) count) 0 == count

/-- WAKE_PATTERN_MATCH: what the armed detector has received; a completed match wakes the device, disarms the detector and
records its cause. -/
def execWakePatternMatch (bursts : List (Nat × Nat)) (s : State) : Host.Outcome State Fault Refusal :=
  if s.pow.state = .dormant ∧ s.pow.armed ∧ s.wakeMatches bursts then
    let s1 := (s.wakeUp 5).setFs [(Fld.VNT_WAKE_STATUS_VALID, 1), (Fld.VNT_WAKE_STATUS_CAUSE, s.wakeMode)]
    .next (s1.raise (srcVent 0) wholeDevice clsInfo 0x8009 0 [w s.wakeMode])
  else .next s

/-! ## REFCLK (R456, R476, R477) -/

/-- REFCLK_PRESENT: REFCLK is judged present.  A start-up that waits for it goes on; a held device waits for REFCLK_RETURN. -/
def execRefclkPresent (s : State) : Host.Outcome State Fault Refusal :=
  if s.pow.refclk then .next s
  else
    let s1 := s.setF Fld.CLK_SRC_REFCLK_OK 1
    let s2 := { s1 with pow := { s1.pow with refclk := true } }
    match s.pow.state with
    | .off => .next s
    | .hold => .next s1
    | .starting => if s.pow.locked then .next s1 else .next (s2.startUp none)
    | _ => .next s2

/-- A PTP source vent exists. -/
def State.ptpSource (s : State) : Bool := (List.range 16).any fun v => s.flag (Fld.VNT_PTP_CFG_SOURCE v)

/-- The source from which the island can trim its oscillator (R457). -/
def State.trimSource (s : State) : Nat :=
  if s.pow.refclk then 1 else if s.ptpSource && s.flag Fld.CLK_TIME_STATUS_SYNC then 2 else 0

/-- The trim source changes; a frozen or held device raises nothing (R485). -/
def State.trimFrom (s : State) (src err : Nat) : State :=
  if s.getF Fld.CLK_SRC_TRIM_SRC = src then s
  else
    let s1 := s.setF Fld.CLK_SRC_TRIM_SRC src
    if s1.alive then s1.raise srcIsland wholeDevice clsInfo 0xB002 0 [w src, w err] else s1

/-- REFCLK_LOSS: RUNNING and FROZEN enter HOLD; a start-up that has locked a PLL stops where it stands. -/
def execRefclkLoss (s : State) : Host.Outcome State Fault Refusal :=
  if !s.pow.refclk then .next s
  else
    let s1 := (s.setF Fld.CLK_SRC_REFCLK_OK 0).incSat Fld.CLK_SRC_LOSSES 1
    let s2 := { s1 with pow := { s1.pow with refclk := false } }
    let hold : State :=
      let s3 := { s2 with pow := { s2.pow with state := .hold, drives := false }, dbg := { s2.dbg with offset := 0, bit := 0 } }
      ((s3.setF Fld.FRZ_STATUS_HELD 1).trimFrom s3.trimSource 0).holdLinks
    match s.pow.state with
    | .off => .next s
    | .running => .next hold
    | .frozen => .next hold
    | _ => .next s2

/-- REFCLK_RETURN: REFCLK has been present again for 10 ms; HOLD, which lasted `heldUs`, becomes a freeze, in which port 0 of vent 0 trains
again for the read-out, or a reset, and a stopped start-up begins again. -/
def execRefclkReturn (heldUs : Nat) (s : State) : Host.Outcome State Fault Refusal :=
  let s1 := (s.setF Fld.CLK_SRC_REFCLK_OK 1)
  match s.pow.state with
  | .hold =>
    let s2 := { s1 with pow := { s1.pow with refclk := true, heldUs := some heldUs } }
    if s2.flag Fld.FRZ_CFG_ON_REFCLK then
      let s3 := s2.freezeNow 4
      .next (if s3.flag Fld.FRZ_CFG_MODE && !s3.flag Fld.FRZ_STATUS_PORT_FALLBACK then s3.trainPort 0 0 else s3)
    else .next (s2.selfReset 3)
  | .starting =>
    if s.pow.locked && !s.pow.refclk then .next (({ s1 with pow := { s1.pow with refclk := true } }).selfReset 3) else .next s
  | _ => .next s

/-! ## Trimming and device time (R457, R458) -/

/-- TRIM_MEASUREMENT: a count against the present source gives a trim word and an error bound in 0.1 ppm. -/
def execTrimMeasurement (trim err : Nat) (s : State) : Host.Outcome State Fault Refusal :=
  if s.pow.state = .off then .next s
  else if s.trimSource = 0 then .next (s.trimFrom 0 (s.getF Fld.CLK_AON_TRIM_ERROR))
  else
    let s1 := s.setFs [(Fld.CLK_AON_TRIM_TRIM, trim), (Fld.CLK_AON_TRIM_ERROR, min err 65535), (Fld.CLK_SRC_TRIMMED, if err ≤ 20 then 1 else 0)]
    .next (s1.trimFrom s1.trimSource (min err 65535))

/-- PTP_LOCK: at its first lock the clock of a source vent sets device time to PTP time in one step (R377, R458). -/
def execPtpLock (ns : Nat) (s : State) : Host.Outcome State Fault Refusal := live s <|
  if s.ptpSource && s.unsync then .next (({ s with time := ns }).setF Fld.CLK_TIME_STATUS_SYNC 1) else .next s

/-! ## Power cap (R464 to R467) -/

/-- CAP as it acts. -/
def State.capWatts (s : State) : Nat := max 300 (min (s.getF Fld.PWR_CFG_CAP) (if s.flag Fld.PWR_CFG_COOLING then 2000 else 1200))

def State.pwrLimit (s : State) (reason : Nat) : State :=
  s.raise srcPower wholeDevice clsInfo 0xB003 0 [w reason, w (s.getF Fld.PWR_CEIL_F_CAP), w (s.getF Fld.PWR_CEIL_F_THERM), w (s.getF Fld.PWR_CEIL_DUTY)]

/-- F_CAP moves: PWR_LIMIT where it crosses a multiple of 100 MHz. -/
def State.moveCap (s : State) (f : Nat) : State :=
  let old := s.getF Fld.PWR_CEIL_F_CAP
  let s1 := (({ s with pow := { s.pow with capAt := s.time } }).setF Fld.PWR_CEIL_F_CAP f).syncFreqs
  if old / 100 = f / 100 then s1 else s1.pwrLimit 1
def State.moveDuty (s : State) (d reason : Nat) : State :=
  (({ s with pow := { s.pow with capAt := s.time } }).setF Fld.PWR_CEIL_DUTY d).pwrLimit reason

/-- The controller's next move for a 1 ms average. -/
def State.capStep (s : State) (p1 : Nat) : State :=
  let cap := s.capWatts
  let f := s.getF Fld.PWR_CEIL_F_CAP
  let d := s.getF Fld.PWR_CEIL_DUTY
  let since := s.time - s.pow.capAt
  if cap < p1 then
    if since < 100000 then s
    else if 400 < f then s.moveCap (max 400 (f - 25))
    else if d < 3 then s.moveDuty (d + 1) 1
    else ({ s with pow := { s.pow with capAt := s.time } }).pwrLimit 3
  else if p1 * 100 < cap * 95 then
    if since < 1000000 then s
    else if 0 < d then (if s.pow.critical then s else s.moveDuty (d - 1) 1)
    else if f < 1300 then s.moveCap (min 1300 (f + 25))
    else s
  else s

/-- POWER_SAMPLE: the averages over 1 ms and 100 ms in W, and the energy in mJ since the last sample. -/
def execPowerSample (p1 p100 energy : Nat) (s : State) : Host.Outcome State Fault Refusal := live s <|
  let s1 := (s.setFs [(Fld.PWR_STATUS_P_1MS, min p1 8191), (Fld.PWR_STATUS_P_100MS, min p100 8191)]).incF Fld.PWR_ENERGY_MJ energy
  if s1.pow.state = .running then .next (s1.capStep p1) else .next s1

/-! ## Temperatures (R468) -/

def State.tCrit (s : State) : Nat := min 110 (s.getF Fld.PWR_THERM_CFG_T_CRIT)
def State.tThrottle (s : State) : Nat := min s.tCrit (s.getF Fld.PWR_THERM_CFG_T_THROTTLE)

def State.thermEvent (s : State) (sensor tj kind : Nat) : State := s.raise srcPower wholeDevice clsInfo 0xB004 0 [w sensor, w tj, w kind]

/-- F_THERM moves no faster than every `ns`. -/
def State.moveTherm (s : State) (f ns : Nat) : State :=
  if s.time - s.pow.thermAt < ns then s
  else (({ s with pow := { s.pow with thermAt := s.time } }).setF Fld.PWR_CEIL_F_THERM f).syncFreqs

/-- At T_WARN, kind 1. -/
def State.thermWarn (s : State) (sensor tj : Nat) : State :=
  let warn := decide (s.getF Fld.PWR_THERM_CFG_T_WARN ≤ tj)
  let s1 := if warn && !s.pow.warned then s.thermEvent sensor tj 1 else s
  { s1 with pow := { s1.pow with warned := warn } }

/-- Above T_THROTTLE, kind 2 once and F_THERM falls; below T_THROTTLE - 2, it rises. -/
def State.thermThrottle (s : State) (sensor tj : Nat) : State :=
  let f := s.getF Fld.PWR_CEIL_F_THERM
  if s.tThrottle < tj then
    let s1 := if s.pow.throttled then s else s.thermEvent sensor tj 2
    let s2 := { s1 with pow := { s1.pow with throttled := true } }
    s2.moveTherm (max 400 (f - 25)) 100000
  else if tj + 2 < s.tThrottle then
    let s1 := { s with pow := { s.pow with throttled := false } }
    s1.moveTherm (min 1300 (f + 25)) 1000000
  else s

/-- At T_CRIT, F_THERM is 400 MHz and DUTY 3 at once, and kind 3. -/
def State.thermCritical (s : State) (sensor tj : Nat) : State :=
  let crit := decide (s.tCrit ≤ tj)
  let s1 := { s with pow := { s.pow with critical := crit } }
  if crit && !s.pow.critical then
    let s2 := (s1.setF Fld.PWR_CEIL_F_THERM 400).syncFreqs
    let s3 := if s2.getF Fld.PWR_CEIL_DUTY = 3 then s2 else s2.moveDuty 3 2
    s3.thermEvent sensor tj 3
  else s1

/-- THERMAL_SAMPLE: the hottest die sensor with its reading, and the hottest stack, in degrees. -/
def execThermalSample (sensor tj hbm : Nat) (s : State) : Host.Outcome State Fault Refusal := live s <|
  let s1 := s.setFs [(Fld.PWR_TEMP_SENSOR, sensor), (Fld.PWR_TEMP_TJ, min tj 255), (Fld.PWR_TEMP_HBM, min hbm 255)]
  .next (((s1.thermWarn sensor tj).thermThrottle sensor tj).thermCritical sensor tj)

end Sys2Proof.Machine
end

