-- ==== Sys2Proof/Machine/Capture.lean ====
section
/-! DEFINITION. Freeze captures and their read-out, the TAP, and the I3C target (R446 to R451, R481 to R484, R523 to R525). -/
namespace Sys2Proof.Machine

/-! ## Who may read a capture (R448, R451, Table 13.10) -/

/-- The read-out yields the whole capture. -/
def State.fullReadout (s : State) : Bool :=
  if s.lifecycle = lcOwned then s.sec.token.any fun t => bits t.scope 0 1 == 1 && decide (0 < s.getF Fld.SEC_DEBUG_USES)
  else s.lifecycle != lcDecommissioned
/-- The state of a partition is replaced by zeros (R449). -/
def State.scrubs (s : State) (p : Nat) : Bool := s.lifecycle == lcOwned && s.partState p != psFree && !s.consents p

/-! ## The stream (R481, Table 14.7) -/

/-- A segment: KIND, DOMAIN, SUBUNIT, PARTITION and LENGTH. -/
structure CapSeg where
  kind : Nat
  dom : Nat
  sub : Nat
  part : Nat
  len : Nat
  deriving DecidableEq, Repr

/-- The segments, in the order of Table 14.7; a TAP read-out has kinds 1 to 4.  The sinter's chains exist in MANUFACTURING only. -/
def State.capSegs (s : State) (port : Bool) : List CapSeg :=
  let doms := Config.chainDomains ++ if s.lifecycle = lcManufacturing then [93] else []
  let part (n : Nat) : Nat := match (s.arr n).ident with
    | some i => i.part
    | none => 0xFF
  doms.map (fun d => ⟨1, d, 0, 0xFF, Config.chainBytes d⟩) ++ (List.range 4).map (fun q => ⟨2, 84 + q, 0, 0xFF, 262144⟩) ++
  [⟨3, 95, 0, 0xFF, 2097152⟩, ⟨4, 97, 0, 0xFF, 65536⟩] ++
  if port then (List.range 144).map (fun n => ⟨5, n / 4, n % 4, part n, 6291456⟩) ++ (List.range 144).map fun n => ⟨6, n / 4, n % 4, part n, 786432⟩
  else []

/-- The partition whose context reserves an operand-cache unit, or an accumulator line, of an array. -/
def State.ocOwner (s : State) (n unit : Nat) : Option Nat :=
  (s.contexts.find? fun c => c.phys == n && decide (c.ocFirst ≤ unit) && decide (unit < c.ocFirst + c.ocUnits)).map fun c => c.id.part
def State.accOwner (s : State) (n line : Nat) : Option Nat :=
  (s.contexts.find? fun c => c.phys == n && decide (c.accFirst ≤ line) && decide (line < c.accFirst + c.accCount)).map fun c => c.id.part

/-- Something in a segment is scrubbed. -/
def State.segScrubbed (s : State) (g : CapSeg) : Bool :=
  let onArray (n : Nat) : Bool := s.contexts.any fun c => c.phys == n && s.scrubs c.id.part
  match g.kind with
  | 1 => decide (g.dom < 36) && (List.range 4).any fun j => onArray (4 * g.dom + j)
  | 2 => s.cnd.cache.any fun e => e.2.home == g.dom - 84 && s.scrubs e.2.owner
  | 3 => partNumbers.any fun p => s.scrubs p && s.getF (Fld.PRT_GEY_COUNT p) != 0
  | 5 => onArray (4 * g.dom + g.sub)
  | 6 => onArray (4 * g.dom + g.sub)
  | _ => false

/-- The 32-byte segment header. -/
def State.segHeader (s : State) (g : CapSeg) : List Byte :=
  [BitVec.ofNat 8 g.dom, BitVec.ofNat 8 g.sub, BitVec.ofNat 8 g.kind, if s.segScrubbed g then 1 else 0, BitVec.ofNat 8 g.part, 0, 0, 0] ++
  toLe 8 g.len ++ List.replicate 16 0

/-- The context cache of a conduit engine, 64 bytes a context in the order in which the engine lists them (DESIGN CHOICE), with those of
scrubbed partitions zero. -/
def State.cacheByte (s : State) (q j : Nat) : Byte :=
  match (s.cnd.cache.filter fun e => e.2.home == q)[j / 64]? with
  | some e => if s.scrubs e.2.owner then 0 else e.2.toBytes.getD (j % 64) 0
  | none => 0

/-- Byte `j` of a segment that begins at offset `off` of the stream. -/
def State.segByte (s : State) (g : CapSeg) (off j : Nat) : Byte :=
  let n := 4 * g.dom + g.sub
  match g.kind with
  | 2 => s.cacheByte (g.dom - 84) j
  | 3 =>
    if s.scrubs (s.geyOwner (j / 32)) then 0
    else (toLe 8 (s.reg (Reg.GEY_COUNT (j / 32) + j % 32 / 8 * 8)).toNat).getD (j % 8) 0
  | 5 => if (s.ocOwner n (j / 65536)).any s.scrubs then 0 else Sparse.get zeroByte s.mem.oc (n * ocBytes + j)
  | 6 => if (s.accOwner n (j / 128)).any s.scrubs then 0 else Sparse.get zeroByte s.mem.acc (n * accBytes + j)
  | _ => Config.captureByte s.dbg.captureId (off + j)

/-- Byte `i` of the segments that begin at offset `off`. -/
def State.segsByte (s : State) (off i : Nat) : List CapSeg → Byte
  | [] => 0
  | g :: t =>
    if i < 32 then (s.segHeader g).getD i 0
    else if i < 32 + g.len then s.segByte g (off + 32) (i - 32)
    else s.segsByte (off + 32 + g.len) (i - 32 - g.len) t

/-- Bytes of the whole stream: with no token in OWNED the header alone (R451). -/
def State.capTotal (s : State) (port : Bool) : Nat :=
  256 + if s.fullReadout then ((s.capSegs port).map fun g => 32 + g.len).sum else 0

/-- The partitions that a capture scrubs, as a bitmap; every partition where no chunk follows (R451). -/
def State.scrubMap (s : State) : Nat := if s.fullReadout then (partNumbers.map fun p => if s.scrubs p then 2 ^ p else 0).sum else 2 ^ 64 - 1
/-- The 256-byte header (R450): token digest, ephemeral public key, DEVICE_ID, lifecycle state and the bitmap of scrubbed partitions; it is
plain, and outside OWNED the token and key fields are zero (R481).  The order and sizes of the fields are not given (DESIGN CHOICE: as
listed, SHA-384 and an uncompressed P-384 point). -/
def State.capHeader (s : State) : List Byte :=
  let owned := s.lifecycle == lcOwned
  ((if owned then toLe 48 ((s.sec.token.map Token.digest).getD 0) ++ (List.range 97).map fun i => Config.captureByte s.dbg.captureId i
    else List.replicate 145 0) ++
   toLe 16 (Config.deviceId (if owned then lcProvisioned else s.lifecycle)) ++ toLe 1 s.lifecycle ++ toLe 8 s.scrubMap ++ List.replicate 256 0).take 256

/-- Byte `o` of the stream; after the header an OWNED capture is encrypted (R450). -/
def State.capByte (s : State) (port : Bool) (o : Nat) : Byte :=
  if o < 256 then s.capHeader.getD o 0
  else
    let x := s.segsByte 256 (o - 256) (s.capSegs port)
    if s.lifecycle = lcOwned then x ^^^ Config.captureKeystream s.dbg.captureId (o - 256) else x

/-! ## The debug token (R446) -/

/-- No token is armed, and every consent is void. -/
def State.disarm (s : State) : State :=
  ({ s with sec := { s.sec with token := none } }).setFs [(Fld.SEC_DEBUG_ARMED, 0), (Fld.SEC_DEBUG_KIND, 0), (Fld.SEC_DEBUG_SCOPE, 0),
    (Fld.SEC_DEBUG_USES, 0), (Fld.SEC_CONSENT1_EXPLICIT, 0)]

/-- A read-out of the whole capture has ended (R450, R483). -/
def State.readoutDone (s : State) : State :=
  let s1 := ({ s with sec := { s.sec with capturesMade := s.sec.capturesMade + 1 } }).incSat Fld.SEC_DEBUG_CAPTURES 1
  if s1.sec.token.isSome then
    let u := s1.getF Fld.SEC_DEBUG_USES - 1
    if u = 0 then s1.disarm else s1.setF Fld.SEC_DEBUG_USES u
  else s1

/-! ## Read-out through port 0 of vent 0 (R483, R484) -/

def State.datagramBytes (s : State) : Nat := if 8294 ≤ s.getF (Fld.VNT_MAC_CFG_MAX_FRAME 0) then 8192 else 1024
def State.passes (s : State) : Nat := max 1 (s.getF Fld.FRZ_CFG_PASSES)

/-- The payload of a datagram: the 32-byte read-out header in network byte order, then the capture bytes. -/
def Readout.payload (r : Readout) : List Byte :=
  toBe 1 1 ++ toBe 1 r.type ++ toBe 1 r.pass ++ toBe 1 0 ++ toBe 4 r.captureId ++ toBe 8 r.offset ++ toBe 8 r.total ++ toBe 4 r.data.length ++ toBe 4 0 ++
  r.data
/-- The read-out's destination is an IPv4 address: only bits [31:0] of FRZ_DEST_IP_LO are set. -/
def State.readoutV4 (s : State) : Bool := s.reg Reg.FRZ_DEST_IP_HI == 0 && (s.reg Reg.FRZ_DEST_IP_LO >>> 32) == 0
/-- A datagram leaves from vent 0's address of the destination's family, on port 0 in queue 7. -/
def State.sendDatagram (s : State) (r : Readout) (next : Nat) : State :=
  let d : Datagram := {
    mac := s.getF Fld.FRZ_DEST_MAC_MAC, ipHi := (s.reg Reg.FRZ_DEST_IP_HI).toNat, ipLo := (s.reg Reg.FRZ_DEST_IP_LO).toNat
    srcHi := if s.readoutV4 then 0 else (s.reg (Reg.VNT_IP6_HI 0)).toNat
    srcLo := if s.readoutV4 then (s.reg (Reg.VNT_IP4 0)).toNat else (s.reg (Reg.VNT_IP6_LO 0)).toNat
    port := s.getF Fld.FRZ_CFG_DEST_PORT, payload := r.payload }
  let s1 := { s with dbg := { s.dbg with sent := s.dbg.sent ++ [d], offset := next } }
  s1.startFrame 0 0 7 (if s.readoutV4 then 78 + r.data.length else 98 + r.data.length) true false none

/-- The next datagram of the present pass, or the end datagram of the pass. -/
def State.readoutNext (s : State) : State :=
  let total := s.capTotal true
  let pass := s.getF Fld.FRZ_STATUS_PASS
  let off := s.dbg.offset
  if off < total then
    let k := min s.datagramBytes (total - off)
    s.sendDatagram ⟨1, pass, s.dbg.captureId, off, total, (List.range k).map fun i => s.capByte true (off + i)⟩ (off + k)
  else
    let s1 := (s.sendDatagram ⟨2, pass, s.dbg.captureId, off, total, []⟩ 0).setF Fld.FRZ_STATUS_PASS (pass + 1)
    if pass + 1 = s1.passes ∧ s1.fullReadout then s1.readoutDone else s1

/-- READOUT_DATAGRAM: the controller sends the next datagram; a port that is not UP makes the pass wait, and start again. -/
def execReadoutDatagram (s : State) : Host.Outcome State Fault Refusal :=
  if s.pow.state ≠ .frozen ∨ !s.flag Fld.FRZ_CFG_MODE ∨ s.flag Fld.FRZ_STATUS_PORT_FALLBACK ∨ s.lifecycle = lcDecommissioned ∨
     s.passes ≤ s.getF Fld.FRZ_STATUS_PASS then .next s
  else if s.portFallback then .next (s.setFs [(Fld.FRZ_STATUS_PORT_FALLBACK, 1), (Fld.FRZ_STATUS_PORT_WAIT, 0)])
  else if !s.portUp 0 0 then
    .next (({ s with dbg := { s.dbg with offset := 0 } }).setF Fld.FRZ_STATUS_PORT_WAIT 1)
  else if s.flag Fld.FRZ_STATUS_PORT_WAIT then
    .next (({ s with dbg := { s.dbg with offset := 0 } }).setF Fld.FRZ_STATUS_PORT_WAIT 0).readoutNext
  else .next s.readoutNext

/-! ## The TAP (R451, R482, R525) -/

/-- The TAP works whenever the die rails are up. -/
def State.tapUp (s : State) : Bool := match s.pow.state with
  | .off => false
  | .dormant => false
  | _ => true

def natBits (k n : Nat) : List Bool := (List.range k).map fun i => n.testBit i

/-- An instruction is in force, and its data register has shifted out bits. -/
def State.tapAnswer (s : State) (code : Nat) (out : List Bool) : State := { s with dbg := { s.dbg with instr := code, tdo := out } }
/-- An instruction that is not obeyed acts as BYPASS. -/
def State.tapBypass (s : State) (code : Nat) : State := s.tapAnswer code [false]

def tapCmd (f : State → State) (s : State) : Host.Outcome State Fault Refusal := if s.tapUp then .next (f s) else .next s

/-- The boundary register captures the contacts, whose order among the 15 cells the manual does not give. -/
def State.boundaryScan (s : State) (code : Nat) (cells : BitVec 15) : State :=
  let (x, s1) := s.draw
  ({ s1 with dbg := { s1.dbg with boundary := cells.toNat } }).tapAnswer code (natBits 15 x.toNat)

/-- EXTEST: the boundary register drives the contacts with the cells shifted in. -/
def execExtest (cells : BitVec 15) (s : State) : Host.Outcome State Fault Refusal := tapCmd (fun s => s.boundaryScan 0x00 cells) s
/-- SAMPLE/PRELOAD. -/
def execSamplePreload (cells : BitVec 15) (s : State) : Host.Outcome State Fault Refusal := tapCmd (fun s => s.boundaryScan 0x02 cells) s

/-- The identification code of a stepping (Table 16.8). -/
def State.idcode (s : State) : Nat := (if s.getF Fld.TOP_ID_STEP_LETTER = 0x0B then 2 ^ 28 else 0) + 0x07200B47
/-- IDCODE. -/
def execIdcode (s : State) : Host.Outcome State Fault Refusal := tapCmd (fun s => s.tapAnswer 0x01 (natBits 32 s.idcode)) s
/-- BYPASS: one bit. -/
def execBypass (s : State) : Host.Outcome State Fault Refusal := tapCmd (fun s => s.tapBypass 0xFF) s

/-- RDOUT_STATUS: FRZ_STATUS at Capture-DR; a decommissioned device does not obey it. -/
def execRdoutStatus (s : State) : Host.Outcome State Fault Refusal := tapCmd (fun s =>
  if s.lifecycle = lcDecommissioned then s.tapBypass 0x10 else s.tapAnswer 0x10 (natBits 32 (s.reg Reg.FRZ_STATUS).toNat)) s

/-- Bit `i` of the TAP stream, least significant bit of each byte first; zero beyond its end. -/
def State.streamBit (s : State) (i : Nat) : Bool := if i / 8 < s.capTotal false then (s.capByte false (i / 8)).getLsbD (i % 8) else false

/-- RDOUT_STREAM: shift `k` bits; the position carries over, and the end of the whole stream ends a read-out. -/
def State.streamShift (s : State) (k : Nat) : State :=
  if s.pow.state = .frozen then
    let s1 := s.tapAnswer 0x11 ((List.range k).map fun i => s.streamBit (s.dbg.bit + i))
    let s2 := { s1 with dbg := { s1.dbg with bit := s1.dbg.bit + k } }
    if s2.fullReadout && !s2.dbg.tapCounted && decide (8 * s2.capTotal false ≤ s2.dbg.bit) then
      ({ s2 with dbg := { s2.dbg with tapCounted := true } }).readoutDone
    else s2
  else s.tapAnswer 0x11 (List.replicate k false)
def execRdoutStream (k : Nat) (s : State) : Host.Outcome State Fault Refusal := tapCmd (fun s =>
  if s.lifecycle = lcDecommissioned then s.tapBypass 0x11 else s.streamShift k) s

/-- Private instructions are obeyed in MANUFACTURING and DEBUG_RETURNED, and elsewhere under a token with SCOPE bit 1 (R451). -/
def State.privateAllowed (s : State) : Bool :=
  s.lifecycle == lcManufacturing || s.lifecycle == lcReturned || s.sec.token.any fun t => bits t.scope 1 1 == 1
/-- TAP_PRIVATE: what an obeyed private instruction does, the manual does not say. -/
def execTapPrivate (code : Nat) (s : State) : Host.Outcome State Fault Refusal :=
  if !s.tapUp then .next s
  else if 0x80 ≤ code ∧ code ≤ 0xFE ∧ s.privateAllowed then .refused .privateTap
  else .next (s.tapBypass code)

/-- TRST_N: Test-Logic-Reset puts IDCODE in force and returns the stream to its first byte. -/
def execTrstN (s : State) : Host.Outcome State Fault Refusal := tapCmd (fun s => { s with dbg := { s.dbg with instr := 0x01, bit := 0 } }) s

/-! ## The I3C target (R523, R524) -/

/-- The target answers in every power state except OFF; after a thermal trip the island is powered. -/
def State.i3cUp (s : State) : Bool := s.pow.state != .off || s.pow.tripped
def State.staticAddr (s : State) : Nat := 0x30 + s.getF Fld.TOP_STRAPS_SLOT
def i3cCmd (f : State → State) (s : State) : Host.Outcome State Fault Refusal := if s.i3cUp then .next (f s) else .next s
/-- A transfer that names the target's dynamic address. -/
def i3cTo (addr : Nat) (f : State → State) (s : State) : Host.Outcome State Fault Refusal :=
  i3cCmd (fun s => if s.i3c.addr = some addr then f s else s) s
def State.i3cAnswer (s : State) (l : List Byte) : State := { s with i3c := { s.i3c with answer := l } }

/-- The 48-bit provisional identifier. -/
def State.i3cPid (s : State) : Nat := 0x2B5 * 2 ^ 33 + 0x7200 * 2 ^ 16 + s.getF Fld.TOP_STRAPS_SLOT * 2 ^ 12

/-- ENTDAA: a target with no dynamic address takes the one that the controller assigns. -/
def execEntdaa (addr : Nat) (s : State) : Host.Outcome State Fault Refusal := i3cCmd (fun s =>
  match s.i3c.addr with
  | some _ => s
  | none => { s with i3c := { s.i3c with addr := some (addr % 128), answer := (toLe 6 s.i3cPid).reverse ++ [0, 0] } }) s
/-- SETDASA to a static address. -/
def execSetdasa (static addr : Nat) (s : State) : Host.Outcome State Fault Refusal := i3cCmd (fun s =>
  if static = s.staticAddr ∧ s.i3c.addr = none then { s with i3c := { s.i3c with addr := some (addr % 128) } } else s) s
/-- RSTDAA: the dynamic address is given up. -/
def execRstdaa (s : State) : Host.Outcome State Fault Refusal := i3cCmd (fun s => { s with i3c := { s.i3c with addr := none } }) s
/-- GETPID. -/
def execGetpid (addr : Nat) (s : State) : Host.Outcome State Fault Refusal := i3cTo addr (fun s => s.i3cAnswer (toLe 6 s.i3cPid).reverse) s
/-- GETBCR. -/
def execGetbcr (addr : Nat) (s : State) : Host.Outcome State Fault Refusal := i3cTo addr (fun s => s.i3cAnswer [0]) s
/-- GETDCR. -/
def execGetdcr (addr : Nat) (s : State) : Host.Outcome State Fault Refusal := i3cTo addr (fun s => s.i3cAnswer [0]) s
/-- Bytes whose value the manual leaves to MIPI I3C Basic. -/
def State.i3cFree (s : State) (k : Nat) : State := let (l, s1) := s.drawBytes k; s1.i3cAnswer l
/-- GETSTATUS. -/
def execGetstatus (addr : Nat) (s : State) : Host.Outcome State Fault Refusal := i3cTo addr (fun s => s.i3cFree 2) s
/-- GETMXDS. -/
def execGetmxds (addr : Nat) (s : State) : Host.Outcome State Fault Refusal := i3cTo addr (fun s => s.i3cFree 2) s

/-- PSTATE (Table 14.3). -/
def powerCode : PowerState → Nat
  | .off => 0
  | .starting => 1
  | .running => 2
  | .hold => 3
  | .frozen => 4
  | .dormant => 5

/-- FLAGS of the window. -/
def State.i3cFlags (s : State) : Nat :=
  let b (x : Bool) (i : Nat) : Nat := if x then 2 ^ i else 0
  b (s.pow.state == .frozen) 0 + b (s.pow.state == .hold) 1 + b s.pow.tripped 2 + b s.pow.refclk 3 + b s.crt.drive.isSome 4

/-- The window of Table 16.7 as it is updated. -/
def State.i3cWindow (s : State) : List Byte :=
  toLe 4 (s.reg Reg.TOP_ID).toNat ++ toLe 1 (powerCode s.pow.state) ++ toLe 1 s.level ++ toLe 1 (s.reg Reg.TOP_STRAPS).toNat ++
  toLe 1 (s.getF Fld.RST_CAUSE_CAUSE) ++ toLe 2 (s.getF Fld.PWR_STATUS_P_1MS) ++ toLe 2 (s.getF Fld.PWR_STATUS_P_100MS) ++
  toLe 1 (s.getF Fld.PWR_TEMP_TJ) ++ toLe 1 (s.getF Fld.PWR_TEMP_HBM) ++ toLe 1 s.i3cFlags ++ [0] ++
  toLe 8 (s.reg Reg.PWR_ENERGY).toNat ++ List.replicate 8 0

/-- The window with PSTATE, CAUSE and FLAGS current, as it is in every state but RUNNING. -/
def State.i3cCurrent (s : State) : List Byte :=
  if s.pow.state = .running then s.i3c.window
  else ((s.i3c.window.set 4 (BitVec.ofNat 8 (powerCode s.pow.state))).set 7 (BitVec.ofNat 8 (s.getF Fld.RST_CAUSE_CAUSE))).set 14
    (BitVec.ofNat 8 s.i3cFlags)

/-- I3C_WINDOW_UPDATE: every 1 ms in RUNNING the whole window, in other states the three fields kept current. -/
def execI3cWindowUpdate (s : State) : Host.Outcome State Fault Refusal := i3cCmd (fun s =>
  { s with i3c := { s.i3c with window := if s.pow.state = .running then s.i3cWindow else s.i3cCurrent } }) s

/-- I3C_PRIVATE_WRITE: the first byte sets the index. -/
def execI3cPrivateWrite (addr : Nat) (data : List Byte) (s : State) : Host.Outcome State Fault Refusal := i3cTo addr (fun s =>
  match data with
  | [] => s
  | b :: _ => { s with i3c := { s.i3c with index := b.toNat % 32 } }) s

/-- I3C_PRIVATE_READ: bytes from the index on, which wraps from 0x1F to 0. -/
def execI3cPrivateRead (addr k : Nat) (s : State) : Host.Outcome State Fault Refusal := i3cTo addr (fun s =>
  let l := (List.range k).map fun i => s.i3cCurrent.getD ((s.i3c.index + i) % 32) 0
  { s with i3c := { s.i3c with answer := l, index := (s.i3c.index + k) % 32 } }) s

end Sys2Proof.Machine
end

