-- ==== Sys2Proof/Machine/Service.lean ====
section
/-! DEFINITION. What every service call has in common: when firmware performs it, what it refuses, its one reply, and the
blocks that it owns meanwhile (R7, R12, R13, R393, R415 to R417, Table 13.2). -/
namespace Sys2Proof.Machine

/-! ## Status of a reply (Table 12.9) -/

def svOk : Nat := 0x00
def svInvalid : Nat := 0x01
def svDenied : Nat := 0x02
def svBusy : Nat := 0x03
def svNoResource : Nat := 0x04
def svAborted : Nat := 0x05
def svComplete : Nat := 0x06
def svUnknownCall : Nat := 0x07
def svUnknownTag : Nat := 0x08
def svUnreachable : Nat := 0x09
def svState : Nat := 0x0A
def svNotAbortable : Nat := 0x0B
def svLevel : Nat := 0x0C

/-- What a call that is performed comes to: its reply, or what its reply waits for. -/
inductive SvcOut where
  | reply (status : Nat) (words : List Word32)
  | waits (x : CallWait)
  deriving DecidableEq, Repr

/-- The outcomes that most calls have. -/
def SvcOut.ok (words : List Word32) : SvcOut := .reply svOk words
def SvcOut.state : SvcOut := .reply svState []
def SvcOut.denied : SvcOut := .reply svDenied []
def SvcOut.noResource (arg : Nat) : SvcOut := .reply svNoResource [w arg]
/-- INVALID_ARG names the argument in word 2: arguments count from 1 in the order of the command's operands; 0 is the TAG (DESIGN
CHOICE). -/
def SvcOut.invalid (arg : Nat) : SvcOut := .reply svInvalid [w arg]

/-! ## Blocks (R12) -/

/-- The blocks of Table 1.6, in table order, whose registers firmware writes for a call (which these are is read from the calls' texts:
DEDUCED). -/
def callBlocks (code : Nat) : List Nat :=
  match code / 256 with
  | 0x0 => if code = 0x0002 then [0, 7, 15] else [0]
  | 0x1 => [13]
  | 0x2 => [14]
  | 0x3 => if code = 0x0301 then [19] else if code = 0x0302 then [14] else if code < 0x0306 then [15] else [16]
  | 0x4 => [15]
  | 0x5 => if code = 0x0502 then [16, 17] else [17]
  | 0x6 => if code = 0x0602 then [12, 16] else if code = 0x0603 then [12, 17] else if code = 0x0605 then [13] else [12]
  | 0x7 => if code = 0x0706 then [11, 14] else if code = 0x0708 then [7, 11, 14, 15, 17] else [11]
  | 0x8 => if code = 0x0804 then [1, 18] else [18]
  | 0x9 => match code % 256 with
    | 1 => [7, 12, 14, 15, 16]
    | 2 | 3 => [5, 6, 7, 11, 12, 13, 14, 15, 16, 17]
    | 5 => [7, 14, 15, 16, 17]
    | 7 | 0xD => [6, 7]
    | 8 => [0, 7, 15]
    | _ => [7]
  | 0xA => if code = 0x0A07 then [8, 18] else [8]
  | 0xB => match code % 256 with
    | 1 | 2 => [1]
    | 3 | 4 => [2]
    | 5 => [1, 2]
    | 6 => [3, 14]
    | 7 => [3, 18]
    | 8 => [3]
    | _ => [4]
  | 0xC => if code < 0x0C07 then [9] else if code = 0x0C09 then [10, 11] else [10]
  | _ => []

/-! ## Calls in progress -/

def Call.is (part tag : Nat) (fwd : Bool) (c : Call) : Bool := c.caller.part == part && c.caller.tag == tag && c.caller.forwarded == fwd
def State.callsOf (s : State) (p : Nat) : List Call := s.acc.calls.filter fun c => c.caller.part == p
/-- The session of a partition in which its calls travel (R435). -/
def State.callSession (s : State) (p : Nat) : Option Session := s.sec.sessions.find? fun x => x.part == p && x.established

/-- Queue the one reply of a call: on the partition's channel from the fumarole or, in area 0xA, from the sinter; in its session;
or back to the head that forwarded it (R393, R415, R435). -/
def State.reply (s : State) (c : Caller) (code status : Nat) (words : List Word32) : State :=
  let r : Reply := { part := c.part, dev := s.ownDev, sinter := code / 256 == 0xA, code := code, tag := c.tag, status := status
                     words := words, fails := 0 }
  if c.forwarded then { s with host := { s.host with back := s.host.back ++ [r] } }
  else if c.session then
    { s with sec := { s.sec with replies := s.sec.replies ++ [(c.part, .call (((s.callSession c.part).map Session.id).getD 0) r)] } }
  else s.queueReply r

/-- A call in progress ends: its reply is queued, and its ownership ends. -/
def State.endCall (s : State) (c : Call) (status : Nat) (words : List Word32) : State :=
  let s1 := { s with acc := { s.acc with calls := s.acc.calls.filter fun x => !x.is c.caller.part c.caller.tag c.caller.forwarded } }
  (s1.reply c.caller c.code status words).releaseHeld

/-- A sealed partition's call made in plain: words that disclose contents read zero (Table 13.2). -/
def State.plain (s : State) (c : Caller) : Bool := s.isSealed c.part && !c.session
def State.shown (s : State) (c : Caller) (words : List Word32) : List Word32 := if s.plain c then words.map fun _ => 0 else words

/-! ## A call -/

/-- The level and the place allow a call's area now (R416, R497): nothing is taken in STARTING or during a warm firmware reset, and
no fumarole firmware runs in recovery mode. -/
def State.serves (s : State) (code : Nat) : Bool :=
  s.level != lvStarting && !s.pow.warm && (!s.inRecovery || code / 256 == 0xA)

/-- Firmware performs a call that it has taken.  The call is made by partition 0 only where `zero` says so. -/
def State.svc (s : State) (code : Nat) (zero : Bool) (c : Caller) (body : State → State × SvcOut) : State :=
  if !s.serves code || !s.partActive c.part || (c.session && (s.callSession c.part).isNone) then s
  else if s.level = lvMinimal ∧ code / 256 ≠ 0x0 ∧ code / 256 ≠ 0x9 ∧ code / 256 ≠ 0xA ∧ code / 256 ≠ 0xC then s.reply c code svLevel []
  else if 16 ≤ (s.callsOf c.part).length then s.reply c code svBusy []
  else if s.acc.calls.any (Call.is c.part c.tag c.forwarded) then s.reply c code svInvalid [0]
  else if zero ∧ c.part ≠ 0 then s.reply c code svDenied []
  else match body s with
    | (s1, .reply st ws) => s1.reply c code st ws
    | (s1, .waits x) => { s1 with acc := { s1.acc with calls := s1.acc.calls ++ [⟨c, code, none, callBlocks code, some x⟩] } }

/-- The command of a service call. -/
def svcCmd (code : Nat) (zero : Bool) (c : Caller) (body : State → State × SvcOut) (s : State) : Host.Outcome State Fault Refusal :=
  live s <| if 64 ≤ c.part then .fault (.noSuchUnit c.part) else .next (s.svc code zero c body)

/-! ## Helpers of bodies -/

/-- The two words of a 64-bit register, and the word of a 32-bit one. -/
def State.reg2 (s : State) (r : Nat) : List Word32 := w2 (s.reg r)
def State.reg1 (s : State) (r : Nat) : List Word32 := [(s.reg r).setWidth 32]
/-- Firmware reads registers: an ordinary read, which clears RC fields (R4). -/
def State.readWords (s : State) (l : List Nat) : State × List Word32 :=
  l.foldl (fun (k : State × List Word32) r =>
    let v := k.1.reg r
    match regFind r with
    | some d => (k.1.setReg r (clearRc d.fields 0 v), k.2 ++ (if d.width = 64 then w2 v else [v.setWidth 32]))
    | none => k) (s, [])
/-- Bytes of words, little-endian. -/
def wordBytes (l : List Word32) : List Byte := l.flatMap fun x => toLe 4 x.toNat
/-- A buffer of the caller holds `n` bytes. -/
def State.bufOk (s : State) (p a n : Nat) : Bool := n == 0 || s.hbmRangeOk p a n
/-- Write the results into a buffer of the caller; the second argument of INVALID_ARG names the buffer. -/
def State.toBuffer (s : State) (p a arg : Nat) (l : List Byte) (ws : List Word32) : State × SvcOut :=
  if s.bufOk p a l.length then (s.hbmWrite p a l, .ok ws) else (s, .invalid arg)
/-- Registers that firmware writes in a call: a locked RWL field gives STATE with nothing written (R7). -/
def State.svcWrites (s : State) (l : List (Nat × Word64)) (ws : List Word32) : State × SvcOut :=
  if l.any fun e => s.locked e.1 && (regFind e.1).any (fun d => d.fields.any fun f => f.ty == .rwl) then (s, .state)
  else (l.foldl (fun s e => match regFind e.1 with
    | some d => s.plainWrite d e.1 e.2
    | none => s) s, .ok ws)

/-! ## Segments -/

/-- Segments neither granted nor withheld, which partition 0 holds (R26), as PRT_STATE of partition 0 counts them. -/
def State.syncZero (s : State) : State :=
  s.setF (Fld.PRT_STATE_HBM_GIB 0) ((List.range 768).filter fun t =>
    s.getF (Fld.PRT_SEG_OWNER_GRANTED t) == 0 && s.getF (Fld.PRT_SEG_OWNER_WITHHELD t) == 0).length
/-- Physical segments that a range touches. -/
def segsOf (a len : Nat) : List Nat := if len = 0 then [] else (List.range ((a + len - 1) / gib - a / gib + 1)).map (a / gib + ·)
/-- Firmware withholds the segments of a range from every grant. -/
def State.withhold (s : State) (a len : Nat) : State :=
  ((segsOf a len).foldl (fun s t => s.setF (Fld.PRT_SEG_OWNER_WITHHELD t) 1) s).syncZero

/-! ## Allocation of conduits (SVC_CND_CREATE, R396) -/

/-- The lowest conduit number that no conduit has (firmware's free choice). -/
def State.freeConduit (s : State) : Option Nat :=
  (List.range (s.cnd.owned.length + 1)).find? fun c => decide (c < conduitCount) && s.cnd.owned.all fun e => e.1 != c
/-- A partition may own one conduit more. -/
def State.conduitQuota (s : State) (p : Nat) : Bool := p == 0 || decide ((s.conduitsOf p).length < s.getF (Fld.PRT_LIMITS_CONDUITS p))
/-- A ring of 2^`log2` entries may lie at an address of a partition. -/
def State.ringOk (s : State) (p ring log2 : Nat) : Bool :=
  decide (ring % 4096 = 0) && s.hbmRangeOk p ring (2 ^ log2 * 64) && !s.textHit p ring (2 ^ log2 * 64)
def State.cndTableOn (s : State) : Bool := s.flag Fld.CND_TABLE_BASE_ENABLE

end Sys2Proof.Machine
end

