-- ==== Sys2Proof/Machine/SvcDevice.lean ====
section
/-! DEFINITION. Service calls of areas 0x0 and 0x1: the device, its events, and numerics (R7, R35, R44, R79, R80, R314, Table
2.14). -/
namespace Sys2Proof.Machine

/-! ## The device -/

/-- SVC_DEVICE_SET writes the device number and the rack code, and then sets TOP_LOCK; a cartridge is judged again. -/
def State.deviceSet (s : State) (dev rack : Nat) : State × SvcOut :=
  if s.locked Reg.TOP_DEVNUM then (s, .state)
  else
    let s1 := s.setFs [(Fld.TOP_DEVNUM_DEVNUM, dev % 256), (Fld.TOP_DEVNUM_VALID, 1), (Fld.TOP_FDOM_RACK, rack % 4096), (Fld.TOP_LOCK_LOCK, 1)]
    (s1.crtRelabel, .ok [])

def execSvcDeviceSet (c : Caller) (dev rack : Nat) (s : State) : Host.Outcome State Fault Refusal :=
  svcCmd 0x0001 true c (fun s => s.deviceSet dev rack) s

/-- RST_DONE is raised when TOP_EVT_DEST is first enabled (R475). -/
def State.startReported (s : State) : State :=
  if s.pow.doneRaised then s
  else ({ s with pow := { s.pow with doneRaised := true } }).raise (srcDomain 94) wholeDevice clsInfo 0xB005 0
    [w (s.getF Fld.RST_CAUSE_CAUSE), w (s.getF Fld.RST_CAUSE_AFTER_FREEZE), w (s.pow.startupNs / 1000000)]

/-- SVC_EVENT_ROUTE creates partition 0's event conduit, where it has none, and writes TOP_EVT_DEST. -/
def State.eventRoute (s : State) (ring log2 : Nat) : State × SvcOut :=
  if s.locked Reg.TOP_EVT_DEST then (s, .state)
  else if s.flag (Fld.PRT_EVT_VALID 0) then
    let c := s.getF (Fld.PRT_EVT_CONDUIT 0)
    ((s.setFs [(Fld.TOP_EVT_DEST_CONDUIT, c), (Fld.TOP_EVT_DEST_ENABLE, 1)]).startReported, .ok [w c])
  else if !s.cndTableOn then (s, .state)
  else if log2 < 4 ∨ 24 < log2 then (s, .invalid 3)
  else if !s.ringOk 0 ring log2 then (s, .invalid 2)
  else match s.freeConduit with
    | none => (s, .noResource 0)
    | some c =>
      let s1 := (s.cndMake c 0 3 log2 ring 0 none).setFs [(Fld.PRT_EVT_VALID 0, 1), (Fld.PRT_EVT_CONDUIT 0, c)]
      ((s1.setFs [(Fld.TOP_EVT_DEST_CONDUIT, c), (Fld.TOP_EVT_DEST_ENABLE, 1)]).startReported, .ok [w c])

def execSvcEventRoute (c : Caller) (ring log2 : Nat) (s : State) : Host.Outcome State Fault Refusal :=
  svcCmd 0x0002 true c (fun s => s.eventRoute ring log2) s

/-- SVC_DEVICE_QUERY. -/
def State.deviceQuery (s : State) : State × SvcOut :=
  (s, .ok ((s.reg1 Reg.TOP_ID ++ s.reg1 Reg.TOP_CAPS) ++ ((List.range 4).flatMap fun i => s.reg1 (Reg.TOP_DOMAIN_OK i)) ++ s.reg1 Reg.TOP_SERVICE))

def execSvcDeviceQuery (c : Caller) (s : State) : Host.Outcome State Fault Refusal :=
  svcCmd 0x0003 false c (fun s => s.deviceQuery) s

/-! ## Numerics -/

/-- A call of partition 0 may name any bank, and any other its own. -/
def bankCall (c : Caller) (bank : Nat) (f : State → State × SvcOut) (s : State) : State × SvcOut :=
  if c.part ≠ 0 ∧ bank ≠ c.part then (s, .denied) else if 64 ≤ bank then (s, .invalid 2) else f s
/-- The words of a bank that a caller is shown: nothing of a sealed partition but in its session (Table 13.2). -/
def State.bankShown (s : State) (c : Caller) (bank : Nat) (l : List Word32) : List Word32 :=
  if s.isSealed bank && !(c.part == bank && c.session) then l.map fun _ => 0 else l

/-- SVC_NUM_QUERY returns NUM_FLAGS and NUM_FIRST and, if asked, clears exactly the flags it returned and VALID. -/
def State.numQuery (s : State) (c : Caller) (bank : Nat) (clear : Bool) : State × SvcOut :=
  let l := s.bankShown c bank (s.reg1 (Reg.NUM_FLAGS bank) ++ s.reg2 (Reg.NUM_FIRST bank))
  (if clear then s.setFs [(Fld.NUM_FLAGS_FLAGS bank, 0), (Fld.NUM_FIRST_VALID bank, 0)] else s, .ok l)

def execSvcNumQuery (c : Caller) (bank : Nat) (clear : Bool) (s : State) : Host.Outcome State Fault Refusal :=
  svcCmd 0x0101 false c (bankCall c bank fun s => s.numQuery c bank clear) s

/-- SVC_NUM_EVENT_SET: the partition's event conduit must exist. -/
def State.numEventSet (s : State) (bank mask : Nat) : State × SvcOut :=
  if s.flag (Fld.PRT_EVT_VALID bank) then (s.setF (Fld.NUM_EVT_MASK_MASK bank) (mask % 2 ^ 11), .ok []) else (s, .state)

def execSvcNumEventSet (c : Caller) (bank mask : Nat) (s : State) : Host.Outcome State Fault Refusal :=
  svcCmd 0x0102 false c (bankCall c bank fun s => s.numEventSet bank mask) s

/-- SVC_AMAX_TABLE_SET: ENABLE 0, the records in their empty form, BASE and COUNT_M1, then ENABLE 1. -/
def State.amaxTableSet (s : State) (bank base countM1 : Nat) : State × SvcOut :=
  let n := (countM1 + 1) * 128
  if 65535 < countM1 then (s, .invalid 4)
  else if base % 4096 ≠ 0 ∨ !s.hbmRangeOk bank base n then (s, .invalid 3)
  else if s.textHit bank base n then (s, .denied)
  else
    let s1 := (s.setF (Fld.NUM_AMAX_CFG_ENABLE bank) 0).hbmWrite bank base (List.replicate n 0)
    let s2 := s1.setFs [(Fld.NUM_AMAX_BASE_BASE bank, base / 4096), (Fld.NUM_AMAX_CFG_COUNT_M1 bank, countM1), (Fld.NUM_AMAX_CFG_ENABLE bank, 1)]
    ({ s2 with amax := (s2.amax.filter fun e => e.1 != bank) ++ [(bank, base / 4096, countM1)] }, .ok [])

def execSvcAmaxTableSet (c : Caller) (bank base countM1 : Nat) (s : State) : Host.Outcome State Fault Refusal :=
  svcCmd 0x0103 false c (bankCall c bank fun s => s.amaxTableSet bank base countM1) s

end Sys2Proof.Machine
end

