-- ==== Sys2Proof/Machine/SvcArray.lean ====
section
/-! DEFINITION. Service calls of area 0x2: arrays, accumulators, element programs and operand caches (Tables 3.15, 4.9, 5.12). -/
namespace Sys2Proof.Machine

/-- A call on a logical array of the caller, whose context is on its physical array: any other number is refused, and a context
that is not on its array is in the wrong state. -/
def arrayCall (c : Caller) (l : Nat) (f : Nat → State → State × SvcOut) (s : State) : State × SvcOut :=
  match s.physOf c.part l with
  | none => (s, .invalid 2)
  | some _ => match s.onArrayNow c.part l with
    | none => (s, .state)
    | some n => f n (s.wakeIsland (n / 4))

/-- Where a context image lies: what firmware assigned, or ARR_CTX. -/
def State.imageFor (s : State) (n : Nat) : Nat := match s.ctxInfo (s.ident n) with
  | some i => i.image
  | none => s.imageOf n

/-- A sealed partition runs only its text (Table 13.2). -/
def State.textBars (s : State) (p pc : Nat) : Bool := s.isSealed p && !s.textHit p pc 16

/-! ## Program and sequencer -/

/-- SVC_ARRAY_LOAD: a `.runen.text` section is copied from one range of the caller's HBM to another, 16-byte aligned. -/
def State.arrayLoad (s : State) (p src len dst : Nat) : State × SvcOut :=
  let a := ceilDiv dst 16 * 16
  if !s.bufOk p src len then (s, .invalid 2)
  else if !s.bufOk p a len then (s, .invalid 4)
  else if s.textHit p a len then (s, .denied)
  else (s.hbmWrite p a (s.hbmRead p src len), .ok (w2 (dw a)))

def execSvcArrayLoad (c : Caller) (src len dst : Nat) (s : State) : Host.Outcome State Fault Refusal :=
  svcCmd 0x0201 false c (fun s => s.arrayLoad c.part src len dst) s

/-- SVC_ARRAY_START. -/
def State.svcStart (s : State) (p n pc cnd : Nat) : State × SvcOut :=
  if pc % 16 ≠ 0 ∨ 2 ^ 48 ≤ pc then (s, .invalid 3)
  else if !s.cndIs cnd p 1 then (s, .invalid 4)
  else if !s.arrAtRest n || !s.domainRuns (n / 4) then (s, .state)
  else if !s.hbmRangeOk p (s.imageFor n) 0x200000 then (s, .state)
  else if s.textBars p pc then (s, .denied)
  else
    let s1 := s.setFs [(Fld.ARR_PC_PC n, pc / 16), (Fld.ARR_CTX_BASE n, s.imageFor n / 4096), (Fld.ARR_START_CND_CONDUIT n, cnd)]
    (s1.arrStart n, .ok [])

def execSvcArrayStart (c : Caller) (l pc cnd : Nat) (s : State) : Host.Outcome State Fault Refusal :=
  svcCmd 0x0202 false c (arrayCall c l fun n s => s.svcStart c.part n pc cnd) s

/-- The array neither runs nor waits nor switches. -/
def State.arrSettled (s : State) (n : Nat) : Bool := s.arrState n != stRunning && s.arrState n != stWaiting && s.arrState n != stSwitching

/-- Firmware sets STOP and goes on once the array has stopped. -/
def State.stopThen (s : State) (n : Nat) (x : CallWait) (done : State → State × SvcOut) : State × SvcOut :=
  let s1 := s.arrStopBit n
  if s1.arrSettled n then done s1 else (s1, .waits x)

def State.stopReply (s : State) (n : Nat) : State × SvcOut := (s, .ok (s.reg1 (Reg.ARR_STATUS n)))

/-- A context that has left its array while it could run stands at a group boundary: firmware makes it STOPPED in what it saved (DEDUCED:
Table 3.15 speaks of STATE alone).  The reply carries what ARR_STATUS would show of it. -/
def State.stopParked (s : State) (p l : Nat) : State × SvcOut :=
  let mine (k : Parked) : Bool := k.id.part == p && k.id.larray == l
  match s.parked.find? mine with
  | none => (s, .state)
  | some k =>
    let runs := k.state == stRunning || k.state == stWaiting
    let image := ((s.ctxInfo k.id).map CtxInfo.image).getD 0
    let s1 := if runs then
        (({ s with parked := s.parked.map fun (x : Parked) => if mine x then { x with state := stStopped, reason := 2 } else x }).hbmWrite p (image + 3)
          (toLe 1 stStopped)).raise (srcArray k.phys) p clsInfo 0x2003 0 [w l, 2, 0]
      else s
    let st := if runs then stStopped else k.state
    let reason := if runs then 2 else k.reason
    (s1, .ok [w (st + reason * 256 + p * 65536 + (if k.id.bubble then 1 else 0) * 4194304)])

/-- SVC_ARRAY_STOP: OK once the array, or the context that has left it, neither runs nor waits nor switches. -/
def execSvcArrayStop (c : Caller) (l : Nat) (s : State) : Host.Outcome State Fault Refusal :=
  svcCmd 0x0203 false c (fun s => match s.physOf c.part l with
    | none => (s, .invalid 2)
    | some n =>
      if (s.onArrayNow c.part l).isSome then s.stopThen n (.arrayStop n) fun s => s.stopReply n
      else if s.arrState n = stRetired then s.stopReply n
      else s.stopParked c.part l) s

/-- SVC_ARRAY_RESUME: at a new PC, if asked. -/
def State.svcResume (s : State) (p n : Nat) (pc : Option Nat) : State × SvcOut :=
  let a := pc.getD (s.getF (Fld.ARR_PC_PC n) * 16)
  if a % 16 ≠ 0 ∨ 2 ^ 48 ≤ a then (s, .invalid 3)
  else if (s.arrState n ≠ stStopped ∧ s.arrState n ≠ stFaulted) ∨ s.domainRuns (n / 4) = false then (s, .state)
  else if s.textBars p a then (s, .denied)
  else ((s.setF (Fld.ARR_PC_PC n) (a / 16)).arrResume n, .ok [])

def execSvcArrayResume (c : Caller) (l : Nat) (pc : Option Nat) (s : State) : Host.Outcome State Fault Refusal :=
  svcCmd 0x0204 false c (arrayCall c l fun n s => s.svcResume c.part n pc) s

/-- Registers of the caller's array in one record; a plain call of a sealed partition is shown ARR_STATUS alone. -/
def State.arrayWords (s : State) (c : Caller) (open' hidden : List Nat) : State × List Word32 :=
  let (s1, a) := s.readWords open'
  let (s2, b) := s1.readWords hidden
  (s2, a ++ s2.shown c b)

def execSvcArrayQuery (c : Caller) (l : Nat) (s : State) : Host.Outcome State Fault Refusal :=
  svcCmd 0x0205 false c (arrayCall c l fun n s =>
    let (s1, ws) := s.arrayWords c [Reg.ARR_STATUS n] [Reg.ARR_PC n, Reg.ARR_FAULT n, Reg.ARR_FAULT_VAL n, Reg.ARR_REPLAY n]
    (s1, .ok ws)) s

/-- SVC_ARRAY_DUMP: the image of the stopped array is written, and its address returned. -/
def State.dumpReply (s : State) (n : Nat) : State × SvcOut := (s.arrSave n, .ok (w2 (dw (s.imageOf n))))

def execSvcArrayDump (c : Caller) (l : Nat) (s : State) : Host.Outcome State Fault Refusal :=
  svcCmd 0x0206 false c (arrayCall c l fun n s =>
    if s.arrState n = stIdle ∨ s.arrState n = stRetired then (s, .state) else s.stopThen n (.arrayDump n) fun s => s.dumpReply n) s

/-! ## Accumulators -/

/-- The context-relative lines of a group: the first, and the one after the last (R139). -/
def AccGroup.relLines (g : AccGroup) : Nat × Nat := (g.first * g.lines, (g.first + g.count) * g.lines)
/-- A reservation of `count` lines cuts through an open group: it holds some of its lines and not others. -/
def cutsGroup (count : Nat) (g : AccGroup) : Bool := g.state != 0 && decide (g.relLines.1 < count) && decide (count < g.relLines.2)
/-- A reservation of `count` lines holds nothing of an open group. -/
def AccGroup.outside (g : AccGroup) (count : Nat) : Bool := g.state != 0 && decide (count ≤ g.relLines.1)

/-- The groups of a list that a reservation of `count` lines would not hold are saved to the context's image; the others stay. -/
def State.saveOutside (s : State) (n p image count : Nat) (l : List AccGroup) : State × List AccGroup × List Nat :=
  l.zipIdx.foldl (fun (k : State × List AccGroup × List Nat) e =>
    if e.1.outside count then (k.1.saveGroup n p image e.2 e.1, k.2.1 ++ [AccGroup.closed], k.2.2 ++ [e.2])
    else (k.1, k.2.1 ++ [e.1], k.2.2)) (s, [], [])

/-- The open groups of a context, those in its image among them. -/
def State.groupsOfCtx (s : State) (p l n : Nat) : List AccGroup :=
  let image := (s.ctxEntry p l n).image
  if (s.onArrayNow p l).isSome then (s.arr n).acc ++ (s.arr n).savedOut.map fun i => (s.imageGroup p image i 0).1
  else
    ((s.parked.filter fun k => k.id.part == p && k.id.larray == l).flatMap Parked.acc) ++
      (if (s.ctxEntry p l n).saved then (List.range 8).map fun i => (s.imageGroup p image i 0).1 else [])

/-- The array has stopped, and nothing of it that uses accumulators is in flight. -/
def State.accQuiet (s : State) (n : Nat) : Bool := s.arrSettled n && (s.arr n).mma.isEmpty && (s.arr n).drains.isEmpty

/-- The reservation of the context on an array changes: open groups outside it are saved, as are those of other contexts on its lines
(R124); the groups that stay keep their context-relative lines, with their contents (R139); ARR_ACC_CFG is written, and the context runs
on if it ran. -/
def State.accReserveEnd (s : State) (p l n first count : Nat) (go : Bool) : State :=
  if (s.onArrayNow p l).isNone then s
  else
    let (s1, kept, out) := s.saveOutside n p (s.imageOf n) count (s.arr n).acc
    let s2 := ((s1.modArr n fun a => { a with acc := kept, savedOut := a.savedOut ++ out }).saveParked n first (first + count)).relayGroups n first kept
    let s3 := s2.modArr n fun a => { a with acc := kept.map fun g => g.moved first }
    let s4 := (s3.setFs [(Fld.ARR_ACC_CFG_RES_FIRST n, first), (Fld.ARR_ACC_CFG_RES_COUNT n, count)]).accSync n
    if go then s4.arrResume n else s4

/-- Groups that a context left in place and that its new reservation would not hold go to its image. -/
def State.saveLeft (s : State) (p l count : Nat) : State :=
  let mine (k : Parked) : Bool := k.id.part == p && k.id.larray == l
  match s.parked.find? mine with
  | none => s
  | some k =>
    let (s1, kept, _) := s.saveOutside k.phys p (((s.ctxInfo k.id).map CtxInfo.image).getD 0) count k.acc
    { s1 with parked := s1.parked.map fun (x : Parked) => if mine x then { x with acc := kept } else x }

/-- SVC_ACC_RESERVE: what "contain" and "cut" mean goes by context-relative lines (DEDUCED from R139). -/
def State.accReserve (s : State) (p l first count : Nat) : State × SvcOut :=
  match s.physOf p l with
  | none => (s, .invalid 3)
  | some n =>
    if 6144 < first + count then (s, .invalid 5)
    else if s.isSealed p then (s, .denied)
    else if (s.groupsOfCtx p l n).any (cutsGroup count) then (s, .state)
    else
      let s1 := s.putCtx { s.ctxEntry p l n with accFirst := first, accCount := count }
      if (s.onArrayNow p l).isNone then (s1.saveLeft p l count, .ok [])
      else
        let go := s.arrState n == stRunning || s.arrState n == stWaiting
        let s2 := s1.arrStopBit n
        if s2.accQuiet n then (s2.accReserveEnd p l n first count go, .ok []) else (s2, .waits (.accReserve p l n first count go))

def execSvcAccReserve (c : Caller) (p l first count : Nat) (s : State) : Host.Outcome State Fault Refusal :=
  svcCmd 0x0207 true c (fun s => s.accReserve p l first count) s

def execSvcAccQuery (c : Caller) (l : Nat) (s : State) : Host.Outcome State Fault Refusal :=
  svcCmd 0x0208 false c (arrayCall c l fun n s =>
    let (s1, ws) := s.arrayWords c [] ([Reg.ARR_ACC_STATUS n] ++ ((List.range 8).map fun g => Reg.ARR_ACC_GRP n g) ++ [Reg.ARR_ACC_LINES n, Reg.ARR_ACC_FAULT n])
    (s1, .ok ws)) s

/-- SVC_ACC_DEBUG_READ: EN is set for the copy and cleared after it.  The lines are read with what their read finds of errors (R157). -/
def State.accDebugRead (s : State) (p l n first count buf : Nat) (corrected uncorrectable : List Nat) : State × SvcOut :=
  if 6144 < first + count then (s, .invalid 4)
  else
    let s1 := (s.wakeIsland (n / 4)).setF (Fld.ARR_ACC_DBG_EN n) 1
    let off (s : State) : State := s.setF (Fld.ARR_ACC_DBG_EN n) 0
    if (s1.accWindow p l).isNone then (off s1, .denied)
    else
      let read (l : Nat) : Bool := decide (first ≤ l) && decide (l < first + count)
      let s2 := off (applyAccUpsets s1 n (corrected.filter read) (uncorrectable.filter read))
      s2.toBuffer p buf 5 ((List.range count).flatMap fun i => s2.accSeen p n (first + i)) []

def execSvcAccDebugRead (c : Caller) (l first count : Nat) (buf : DebugBuffer) (s : State) : Host.Outcome State Fault Refusal :=
  svcCmd 0x0209 false c (fun s => match s.physOf c.part l with
    | none => (s, .invalid 2)
    | some n => s.accDebugRead c.part l n first count buf.buf buf.corrected buf.uncorrectable) s

/-! ## Element programs and operand caches -/

/-- SVC_EPROG_CHECK: REASON and INDEX of the first check of Table 5.9 that fails, or zeros. -/
def State.eprogCheck (s : State) (c : Caller) (addr : Nat) : State × SvcOut :=
  if addr % 64 ≠ 0 ∨ !s.hbmRangeOk c.part addr 64 then (s, .invalid 2)
  else
    let n := eImageBytes (EHead.ofBytes (s.hbmRead c.part addr 64)).ninstr
    if !s.hbmRangeOk c.part addr n then (s, .invalid 2)
    else match eCheck (s.hbmRead c.part addr n) with
      | some (reason, index) => (s, .ok (s.shown c [w reason, w index]))
      | none => (s, .ok (s.shown c [0, 0]))

def execSvcEprogCheck (c : Caller) (addr : Nat) (s : State) : Host.Outcome State Fault Refusal :=
  svcCmd 0x020A false c (fun s => s.eprogCheck c addr) s

/-- SVC_OC_QUERY: a partition other than 0 is shown LINE as an offset within its reservation. -/
def State.ocQuery (s : State) (c : Caller) (n : Nat) : State × SvcOut :=
  let (s1, a) := s.readWords [Reg.ARR_VEC_STATUS n, Reg.ARR_EPROG_ERR n, Reg.ARR_OC_ECC n]
  let v := s1.reg (Reg.ARR_OC_POISON n)
  let v' := if c.part ≠ 0 ∧ v.getLsbD 63 then putField v 6 17 (s1.getF (Fld.ARR_OC_POISON_LINE n) - s1.ocFirst n / 64) else v
  (s1, .ok (s1.shown c (a ++ w2 v')))

def execSvcOcQuery (c : Caller) (l : Nat) (s : State) : Host.Outcome State Fault Refusal :=
  svcCmd 0x020B false c (arrayCall c l fun n s => s.ocQuery c n) s

/-- SVC_OC_SCRUB, once the array stands: zeros over the whole reservation, and no program slot bound. -/
def State.ocScrub (s : State) (n : Nat) : State :=
  ((s.modArr n fun a => { a with progs := [none, none, none, none] }).clearOc n (s.ocFirst n) (s.ocSize n)).setF (Fld.ARR_VEC_STATUS_BOUND n) 0

def execSvcOcScrub (c : Caller) (l : Nat) (s : State) : Host.Outcome State Fault Refusal :=
  svcCmd 0x020C false c (arrayCall c l fun n s => if s.arrState n = stRetired then (s, .state)
    else s.stopThen n (.arrayScrub n) fun s => (s.ocScrub n, .ok [])) s

end Sys2Proof.Machine
end

