-- ==== Sys2Proof/Machine/SvcMemory.lean ====
section
/-! DEFINITION. Service calls of area 0x3: HBM, operand-cache reservations, conduits and geysers (Table 6.7). -/
namespace Sys2Proof.Machine

/-- SVC_HBM_QUERY: three registers of every stack, and the caller's segments that R211 or R212 has removed, in a buffer. -/
def State.hbmQuery (s : State) (p buf : Nat) : State × SvcOut :=
  let (s1, ws) := s.readWords ((List.range 12).flatMap fun i => [Reg.HBM_STATUS i, Reg.HBM_PC_MAP i, Reg.HBM_ECC i])
  let lost := (s1.mem.segLost.filter fun e => e.1 == p).map fun e => w e.2.2
  s1.toBuffer p buf 2 (wordBytes (ws ++ lost)) [w ws.length, w lost.length]

def execSvcHbmQuery (c : Caller) (buf : Nat) (s : State) : Host.Outcome State Fault Refusal :=
  svcCmd 0x0301 false c (fun s => s.hbmQuery c.part buf) s

/-! ## SVC_OC_RESERVE (R215, R442) -/

/-- Operand-cache ranges of an array, in units, that other contexts hold: what firmware keeps of them, and ARR_OC_CFG for the context
on the array. -/
def State.ocHeld (s : State) (n : Nat) (id : CtxId) : List (Nat × Nat) :=
  ((s.contexts.filter fun i => i.phys == n && !(i.id.part == id.part && i.id.larray == id.larray)).map fun i => (i.ocFirst, i.ocUnits)) ++
  (if (s.arr n).ident.isSome && !((s.ident n).part == id.part && (s.ident n).larray == id.larray) then
    [(s.getF (Fld.ARR_OC_CFG_FIRST n), s.getF (Fld.ARR_OC_CFG_UNITS n))] else [])

/-- SVC_OC_RESERVE: overlaps are refused; units that the reservation gains are zeroed first; ARR_OC_CFG follows at the context's
next switch onto the array. -/
def State.ocReserve (s : State) (p l first units : Nat) : State × SvcOut :=
  match s.physOf p l with
  | none => (s, .invalid 3)
  | some n =>
    if units = 0 ∨ 96 < first + units then (s, .invalid 5)
    else if (s.ocHeld n ⟨p, l, false⟩).any fun e => overlaps e.1 e.2 first units then (s, .noResource 4)
    else
      let old := s.ctxEntry p l n
      let gained := (List.range units).filter fun i => !(decide (old.ocFirst ≤ first + i) && decide (first + i < old.ocFirst + old.ocUnits))
      let s1 := gained.foldl (fun s i => s.clearOc n ((first + i) * 65536) 65536) s
      (s1.putCtx { old with ocFirst := first, ocUnits := units }, .ok [])

def execSvcOcReserve (c : Caller) (p l first units : Nat) (s : State) : Host.Outcome State Fault Refusal :=
  svcCmd 0x0302 true c (fun s => s.ocReserve p l first units) s

/-! ## Conduits -/

/-- SVC_CND_CREATE. -/
def State.cndCreate (s : State) (p kind log2 ring cls : Nat) (notify : Option Nat) : State × SvcOut :=
  if !s.cndTableOn then (s, .state)
  else if 3 < kind then (s, .invalid 2)
  else if log2 < 4 ∨ 24 < log2 then (s, .invalid 3)
  else if !s.ringOk p ring log2 then (s, .invalid 4)
  else if 2 < cls then (s, .invalid 5)
  else if notify.any fun g => decide (65536 ≤ g) || s.geyOwner g != p then (s, .invalid 6)
  else if !s.conduitQuota p then (s, .noResource 0)
  else match s.freeConduit with
    | none => (s, .noResource 0)
    | some c => (s.cndMake c p kind log2 ring cls notify, .ok [w c])

def execSvcCndCreate (c : Caller) (kind log2 ring cls : Nat) (notify : Option Nat) (s : State) : Host.Outcome State Fault Refusal :=
  svcCmd 0x0303 false c (fun s => s.cndCreate c.part kind log2 ring cls notify) s

/-- A conduit that the caller's partition owns. -/
def ownCnd (c : Caller) (d : Nat) (f : State → State × SvcOut) (s : State) : State × SvcOut :=
  if s.cnd.owned.contains (d, c.part) then f s else (s, .denied)

def execSvcCndDestroy (c : Caller) (d : Nat) (s : State) : Host.Outcome State Fault Refusal :=
  svcCmd 0x0304 false c (ownCnd c d fun s =>
    let s1 := s.cndDestroy d
    (s1, .ok [w (s1.cndGet d).dropped])) s

/-- SVC_CND_QUERY: the context is flushed, and the descriptor's 56 bytes that can differ from zero are returned. -/
def execSvcCndQuery (c : Caller) (d : Nat) (s : State) : Host.Outcome State Fault Refusal :=
  svcCmd 0x0305 false c (ownCnd c d fun s =>
    let s1 := s.cndWriteback d
    (s1, .ok ((List.range 14).map fun i => w (ofLe (((s1.cndGet d).toBytes.drop (4 * i)).take 4))))) s

/-! ## Geysers -/

/-- What an action list names lies in the caller's grants. -/
def State.geyActOk (s : State) (p : Nat) (act0 act1 : Word64) : Option Nat :=
  if act0.getLsbD 62 && !s.cndIs (fieldOf act0 0 20) p 0 then some 4
  else if act0.getLsbD 59 && decide (s.larrays p ≤ fieldOf act0 48 7) then some 4
  else if act0.getLsbD 61 && fieldOf act1 48 2 != 0 then some 5
  else none

/-- SVC_GEY_SET writes TARGET, ACT1 and ACT0 in that order, ARMED last. -/
def State.geySet (s : State) (p g : Nat) (target act0 act1 : Word64) : State × SvcOut :=
  if 65536 ≤ g then (s, .invalid 2)
  else if s.geyOwner g ≠ p then (s, .denied)
  else match s.geyActOk p act0 act1 with
    | some a => (s, .invalid a)
    | none =>
      let put (s : State) (r : Nat) (v : Word64) : State := match regFind r with
        | some d => s.plainWrite d r v
        | none => s
      let s1 := put (put (s.setF (Fld.GEY_ACT0_ARMED g) 0) (Reg.GEY_TARGET g) target) (Reg.GEY_ACT1 g) act1
      let s2 := put (put s1 (Reg.GEY_ACT0 g) (act0 &&& 0x7FFFFFFFFFFFFFFF)) (Reg.GEY_ACT0 g) act0
      (s2.geyChanged g (s2.reg (Reg.GEY_COUNT g)), .ok [])

def execSvcGeySet (c : Caller) (g : Nat) (target act0 act1 : BitVec 64) (s : State) : Host.Outcome State Fault Refusal :=
  svcCmd 0x0306 false c (fun s => s.geySet c.part g target act0 act1) s

/-- SVC_GEY_QUERY: the four registers of each geyser named, in the caller's buffer. -/
def State.geyQuery (s : State) (p first count buf : Nat) : State × SvcOut :=
  if 65536 < first + count then (s, .invalid 3)
  else if (List.range count).any fun i => s.geyOwner (first + i) != p then (s, .denied)
  else s.toBuffer p buf 4 ((List.range count).flatMap fun i => (List.range 4).flatMap fun j =>
    toLe 8 (s.reg (Reg.GEY_COUNT (first + i) + 8 * j)).toNat) []

def execSvcGeyQuery (c : Caller) (first count buf : Nat) (s : State) : Host.Outcome State Fault Refusal :=
  svcCmd 0x0307 false c (fun s => s.geyQuery c.part first count buf) s

end Sys2Proof.Machine
end

