-- ==== Sys2Proof/Machine/SvcRemote.lean ====
section
/-! DEFINITION. Service calls of area 0x4: the transport, its paths, and the host's remote operations (R240, R252, R254, R255,
R257, Table 7.12). -/
namespace Sys2Proof.Machine

/-! ## Memory withheld from grants -/

/-- A physical range lies in HBM, outside every grant. -/
def State.ungranted (s : State) (a len : Nat) : Bool :=
  decide (a + len ≤ hbmBytes) && (segsOf a len).all fun t => s.getF (Fld.PRT_SEG_OWNER_GRANTED t) == 0

/-! ## SVC_ZRT_SET -/

/-- SVC_ZRT_SET: ENABLE is cleared, every register is written, and ENABLE comes last.  At the basic level CND_LOCK is then set. -/
def State.zrtSet (s : State) (base pool : Word64) (rto limits ack rate group cfg : Word32) : State × SvcOut :=
  let a := fieldOf base 18 30 * 2 ^ 18
  let b := fieldOf pool 13 35 * 2 ^ 13
  if s.locked Reg.CND_ZRT_CFG then (s, .state)
  else if !s.ungranted a 262144 then (s, .invalid 2)
  else if !s.ungranted b (fieldOf pool 48 16 * 8192) then (s, .invalid 3)
  else
    let x (v : Word32) : Word64 := v.setWidth 64
    let s1 := ((s.setF Fld.CND_ZRT_CFG_ENABLE 0).withhold a 262144).withhold b (fieldOf pool 48 16 * 8192)
    let (s2, r) := s1.svcWrites [(Reg.CND_ZRT_PATH_BASE, base), (Reg.CND_ZRT_POOL, pool), (Reg.CND_ZRT_RTO, x rto), (Reg.CND_ZRT_LIMITS, x limits),
      (Reg.CND_ZRT_ACK, x ack), (Reg.CND_ZRT_RATE, x rate), (Reg.CND_ZRT_GROUP, x group), (Reg.CND_ZRT_CFG, x cfg)] []
    (if Config.basicLevel then s2.setF Fld.CND_LOCK_LOCK 1 else s2, r)

def execSvcZrtSet (c : Caller) (base pool : BitVec 64) (rto limits ack rate group cfg : BitVec 32) (s : State) :
    Host.Outcome State Fault Refusal :=
  svcCmd 0x0401 true c (fun s => s.zrtSet base pool rto limits ack rate group cfg) s

/-! ## Paths -/

/-- An entry has R255's and Table 7.6's shape. -/
def entryShape (e : PathEntry) : Bool :=
  decide (e.vent < 16) && decide (e.rvent < 16) && decide (16 ≤ e.window) && decide (e.window ≤ 1024) && decide (e.port < 65536) &&
  decide (e.ip.length = 16) && (e.ipv6 || (e.ip.take 12).all (· == 0))
/-- The bytes of a new entry, VALID clear. -/
def entryBytes (e : PathEntry) : List Byte :=
  toLe 1 ((if e.ipv6 then 2 else 0) + (if e.jumbo then 4 else 0) + (if e.ecn then 8 else 0) + e.rvent * 16) ++ toLe 1 0 ++ toLe 2 e.window ++
  toLe 2 e.port ++ toLe 2 0 ++ padTo 16 e.ip ++ List.replicate 32 0 ++ toLe 2 1 ++ List.replicate 6 0
/-- Write one path entry: VALID is cleared first, which migrates its streams (R267), and set last. -/
def State.putEntry (s : State) (d : Nat) (e : PathEntry) : State :=
  let a := s.pathAddr d e.vent
  let s1 := (s.pathInvalid d e.vent).hbmWritePhys a (entryBytes e)
  let b := (entryBytes e).headD 0
  (s1.hbmWritePhys a [b ||| 1]).pathValid d e.vent

/-- Every VALID path to a peer is UP. -/
def State.peerAllUp (s : State) (d : Nat) : Bool := vents.all fun v => !(s.path d v).valid || (s.path d v).state == stUp
def State.pathMask (s : State) (d : Nat) : Nat := (vents.map fun v => if (s.path d v).valid && (s.path d v).state == stUp then 2 ^ v else 0).sum

def State.peerSet (s : State) (d : Nat) (l : List PathEntry) : State × SvcOut :=
  if 256 ≤ d ∨ d = s.ownDev then (s, .invalid 2)
  else if !l.all entryShape || !decide ((l.map PathEntry.vent).Nodup) then (s, .invalid 3)
  else
    let s1 := l.foldl (fun s e => s.putEntry d e) s
    if s1.peerAllUp d then (s1, .ok [w (s1.pathMask d)])
    else (s1, .waits (.peer d (s1.time + s1.getF Fld.CND_ZRT_LIMITS_PROBE_INTERVAL * 16000)))

def execSvcZrtPeerSet (c : Caller) (d : Nat) (l : List PathEntry) (s : State) : Host.Outcome State Fault Refusal :=
  svcCmd 0x0402 true c (fun s => s.peerSet d l) s

/-- SVC_ZRT_PEER_QUERY: the 16 entries of a peer, live fields written back, and whether it is reachable. -/
def State.peerQuery (s : State) (p d buf : Nat) : State × SvcOut :=
  if 256 ≤ d then (s, .invalid 2)
  else
    let s1 := vents.foldl (fun s v => if (s.path d v).valid then s.storePath d v else s) s
    s1.toBuffer p buf 3 (readBytes s1.mem.hbm (s1.pathAddr d 0) 1024) [if s1.peerUp d then 1 else 0]

def execSvcZrtPeerQuery (c : Caller) (d buf : Nat) (s : State) : Host.Outcome State Fault Refusal :=
  svcCmd 0x0403 false c (fun s => s.peerQuery c.part d buf) s

/-! ## Remote operations of the host -/

/-- The conduit that firmware keeps for the host's remote operations of a partition; for partition 0 it makes one when it first needs
it, with its ring at the end of the highest segment that partition 0 holds (firmware's free choice). -/
def State.hostConduit (s : State) (p : Nat) : State × Option Nat :=
  match s.parts.find? fun i => i.part == p with
  | some i => (s, some i.rmo)
  | none =>
    if p ≠ 0 ∨ !s.cndTableOn then (s, none)
    else match ((List.range 768).reverse.find? fun r => (s.segPhys 0 r).isSome), s.freeConduit with
      | some r, some c =>
        let ring := r * gib + gib - 65536
        let s1 := s.cndMake c 0 1 10 ring 0 none
        ({ s1 with parts := s1.parts ++ [{ part := 0, evt := c, gey := c, rmo := c, evtRing := ring, geyRing := ring, rmoRing := ring,
                                           evtDepth := 10, images := 0, areaSegs := 0 }] }, some c)
      | _, _ => (s, none)

/-- The operation codes of Table 7.1. -/
def opcKnown (x : Nat) : Bool := decide (x ≤ 6) || x == opcGinc

/-- The formats and the alignment of an atomic (R114, R242). -/
def atomOk (opc fmt fabric : Nat) : Bool :=
  if opc = 5 ∨ opc = 6 then fmt == 10 && fabric % 4 == 0
  else ([0, 1, 2, 10] : List Nat).contains fmt && (if fmt = 0 ∨ fmt = 10 then fabric % 4 == 0 else fabric % 2 == 0)

/-- SVC_RMO_SUBMIT: an entry of Table 7.3 with SOURCE_KIND 2 goes into the partition's host conduit; the local side and the
completion conduit are checked as at an array's issue (R113, R246). -/
def State.rmoSubmit (s : State) (p opc fmt len fabric loc : Nat) (operand compare cw : Word64) : State × SvcOut :=
  let bulk := opc == opcPut || opc == opcGet
  let cc := fieldOf cw 0 20
  let atom := decide (2 ≤ opc) && decide (opc ≤ 6)
  if !opcKnown opc then (s, .invalid 2)
  else if (atom && !atomOk opc fmt fabric) || (!atom && fmt != 0) then (s, .invalid 3)
  else if (bulk && (decide (len = 0) || decide (2 ^ 24 < len))) || (!bulk && len != 0) then (s, .invalid 4)
  else if 2 ^ 64 ≤ fabric then (s, .invalid 5)
  else if bulk && !s.localRangeOk p loc len then (s, .invalid 6)
  else if opc = opcGet ∧ s.textHit p loc len then (s, .denied)
  else if !s.cndIs cc p 2 then (s, .invalid 9)
  else if s.cndHeld cc || (s.cndGet cc).free == 0 then (s, .noResource 9)
  else match s.hostConduit p with
    | (s1, none) => (s1, .noResource 0)
    | (s1, some c) =>
      if !s1.cndIs c p 1 then (s1, .noResource 0)
      else match (s1.cndGrant cc).postRmo c (rmoBytes opc (16 + fmt % 16) 2 0xFF len fabric loc operand.toNat (if opc = opcCas then compare.toNat else 0) cw.toNat 0)
          (.host p) (some cc) with
        | some s2 => (s2, .ok [w (s2.rmo.nextId - 1)])
        | none => (s1, .noResource 0)

def execSvcRmoSubmit (c : Caller) (opc fmt len fabric loc : Nat) (operand compare cw : BitVec 64) (s : State) :
    Host.Outcome State Fault Refusal :=
  svcCmd 0x0404 false c (fun s => s.rmoSubmit c.part opc fmt len fabric loc operand compare cw) s

/-- TAG of an operation's completion word. -/
def RmoOp.tag (o : RmoOp) : Nat := o.f 0x2E 2

/-- SVC_RMO_ABORT: the outstanding operations of a conduit with a TAG, or all of them; each aborts or had completed (R252). -/
def State.rmoAbort (s : State) (p d : Nat) (tag : Option Nat) (buf : Nat) : State × SvcOut :=
  let x := s.cndGet d
  let want (t : Nat) : Bool := match tag with
    | some k => t == k
    | none => true
  let taken := s.rmo.ops.filter fun o => o.cnd == d && want o.tag
  let lying := (s.rmo.queued.filter fun q => q.cnd == d).zipIdx.filterMap fun e =>
    let o := entryOp e.1.id d x.home x.owner e.1.src e.1.cc (s.hbmRead x.owner (x.slot (x.cons + e.2)) 64)
    if want o.tag then some (o, e.1.fate.isNone) else none
  let r := taken.foldl (fun (k : State × List Word32) o =>
    let y := k.1.abortOp o.id 1
    (y.1, k.2 ++ [w (o.tag * 65536 + (if y.2 then svAborted else svComplete))])) (s, ([] : List Word32))
  let mark (q : RmoQueued) : RmoQueued := if lying.any fun e => e.1.id == q.id && e.2 then { q with fate := some (rsAborted, 1) } else q
  let s1 := { r.1 with rmo := { r.1.rmo with queued := r.1.rmo.queued.map mark } }
  let all := r.2 ++ lying.map fun e => w (e.1.tag * 65536 + if e.2 then svAborted else svComplete)
  let ws := match tag with
    | some k => if all.isEmpty then [w (k * 65536 + svComplete)] else all
    | none => all
  if s.bufOk p buf (4 * ws.length) then (s1.hbmWrite p buf (wordBytes ws), .ok (w ws.length :: ws.take 13)) else (s, .invalid 4)

def execSvcRmoAbort (c : Caller) (d : Nat) (tag : Option Nat) (buf : Nat) (s : State) : Host.Outcome State Fault Refusal :=
  svcCmd 0x0405 false c (ownCnd c d fun s => if (s.cndGet d).kind = 1 then s.rmoAbort c.part d tag buf else (s, .invalid 2)) s

end Sys2Proof.Machine
end

