-- ==== Sys2Proof/Machine/SvcPlume.lean ====
section
/-! DEFINITION. Service calls of areas 0x5 and 0x6: plumes, step banks and the amax table (Tables 8.12 and 9.7, R273, R274, R289,
R296, R298, R304, R307, R309, R314, R319). -/
namespace Sys2Proof.Machine

/-! ## Plumes -/

/-- A call on a slot that the caller's partition owns. -/
def ownSlot (c : Caller) (k : Nat) (f : State → State × SvcOut) (s : State) : State × SvcOut :=
  if 64 ≤ k then (s, .invalid 2)
  else if s.flag (Fld.PLM_OWNER_VALID k) && s.plmOwner k == c.part then f s
  else (s, .denied)

/-- The descriptor, its tables and its staging area lie in the grant of a partition (R31). -/
def State.plmInGrant (s : State) (p a : Nat) (l : List Byte) (d : PlmDesc) : Bool :=
  let f := fieldAt l
  s.bufOk p a 256 && s.bufOk p (f 0x18 8) (4 * d.npos) && s.bufOk p (f 0x20 8) (64 * d.buckets.length) &&
  s.bufOk p d.bstatus (32 * d.buckets.length) && s.bufOk p d.vtable (64 * d.buckets.length) && s.bufOk p (f 0x38 8) (32 * d.ops.length) &&
  s.bufOk p d.staging (d.statusOff d.npos - d.staging)


/-- A reducer is mapped to an array in service. -/
def State.reducerOk (s : State) (p l : Nat) : Bool := (s.physOf p l).any fun n => s.arrState n != stRetired

/-- The lowest free slot of a quadrant whose sequencer's clock runs (Table 14.2). -/
def State.freeSlot (s : State) (q : Nat) : Option Nat :=
  if !s.domainRuns (88 + q) then none
  else ((List.range 16).map fun i => 16 * q + i).find? fun k => !s.flag (Fld.PLM_OWNER_VALID k)

/-- SVC_PLM_CREATE. -/
def State.plmCreate (s : State) (p q a : Nat) : State × SvcOut :=
  if s.locked (Reg.PLM_OWNER 0) then (s, .state)
  else if 4 ≤ q then (s, .invalid 2)
  else
    let (l, d) := s.readPlume p a
    if a % 256 ≠ 0 ∨ !(s.plmInGrant p a l d && s.plmDescOk p l d && d.reducers.all fun r => s.reducerOk p r) then (s, .invalid 3)
    else if p ≠ 0 ∧ s.getF (Fld.PRT_LIMITS_PLUMES p) ≤ (s.slotsOf p).length then (s, .noResource 0)
    else match s.freeSlot q with
      | none => (s, .noResource 2)
      | some k => (s.setFs [(Fld.PLM_OWNER_VALID k, 1), (Fld.PLM_OWNER_PART k, p), (Fld.PLM_DESC_BASE k, a / 256)], .ok [w k])

def execSvcPlmCreate (c : Caller) (quadrant desc : Nat) (s : State) : Host.Outcome State Fault Refusal :=
  svcCmd 0x0501 false c (fun s => s.plmCreate c.part quadrant desc) s

/-- SVC_PLM_START: the call completes when the join has succeeded or failed. -/
def execSvcPlmStart (c : Caller) (k : Nat) (step : BitVec 64) (deadline hop : Nat) (s : State) : Host.Outcome State Fault Refusal :=
  svcCmd 0x0502 false c (ownSlot c k fun s =>
    if s.plmActive k then (s, .state)
    else
      let s1 := (s.setReg (Reg.PLM_STEP k) step).setFs [(Fld.PLM_STEP_DEADLINE_BUDGET k, deadline), (Fld.PLM_HOP_TIMEOUT_MS k, hop)]
      (s1.plmCtl k 1, .waits (.plume k))) s

/-- SVC_PLM_ABORT: what R13 gives for the operation that runs. -/
def execSvcPlmAbort (c : Caller) (k : Nat) (s : State) : Host.Outcome State Fault Refusal :=
  svcCmd 0x0503 false c (ownSlot c k fun s =>
    if s.plmActive k then (s.plmCtl k 2, .reply svAborted []) else (s, .reply svComplete [])) s

/-- SVC_PLM_QUERY: four registers, and the bucket records and version entries of the buckets named, records first, in the caller's
buffer. -/
def execSvcPlmQuery (c : Caller) (k first count buf : Nat) (s : State) : Host.Outcome State Fault Refusal :=
  svcCmd 0x0504 false c (ownSlot c k fun s =>
    let d := (s.plume k).desc
    if d.buckets.length < first + count then (s, .invalid 4)
    else
      let p := c.part
      let recs := s.hbmRead p (d.bstatus + 32 * first) (32 * count)
      let vers := s.hbmRead p (d.vtable + 64 * first) (64 * count)
      let l := recs ++ vers
      s.toBuffer p buf 5 (if s.plain c then l.map fun _ => 0 else l)
        (s.shown c <| s.reg1 (Reg.PLM_STATUS k) ++ s.reg2 (Reg.PLM_STEP k) ++ s.reg2 (Reg.PLM_STEP_T0 k) ++ s.reg2 (Reg.PLM_COUNTS k))) s

/-- SVC_PLM_DESTROY. -/
def execSvcPlmDestroy (c : Caller) (k : Nat) (s : State) : Host.Outcome State Fault Refusal :=
  svcCmd 0x0505 false c (ownSlot c k fun s =>
    if s.locked (Reg.PLM_OWNER 0) then (s, .state)
    else
      let s1 := (s.plmAbort k (s.plume k).desc.mypos).setPlmState k plIdle
      let s2 := s1.setFs [(Fld.PLM_OWNER_VALID k, 0), (Fld.PLM_OWNER_PART k, 0)]
      (s2.setPlume k (s2.plume k).leftover, .ok [])) s

/-! ## SVC_PLM_RESHARD (R296, R353) -/

/-- Where the state of each old position is read from: itself, or its buddy where it was lost; `none` where it has none. -/
def State.reshardSources (s : State) (d : PlmDesc) (lost : List Nat) : Option (List (Nat × Nat)) :=
  let buddy (i : Nat) : Option Nat := match s.buddies.find? fun b => b.plume == d.id with
    | some b => b.buddies.getD i none
    | none => none
  (List.range d.npos).foldl (fun (r : Option (List (Nat × Nat))) i =>
    match r, (if lost.contains i then buddy i else some i) with
    | some l, some q => if lost.contains q then none else some (l ++ [d.at' q])
    | _, _ => none) (some [])

/-- The re-shard descriptor as one position of a new ring holds it. -/
def reshardFor (z : PlmReshard) (x : Nat × Nat) : PlmReshard :=
  { z with newPos := (z.ring.findIdx? fun e => e == x).getD plmNone }

/-- Each active plume of the ring on this device is to run PERMUTE at its next LOOP. -/
def State.armHere (s : State) (id : Nat) (z : PlmReshard) (x : Nat × Nat) : State :=
  match (List.range 64).find? fun k => s.plmActive k && s.plmOwner k == x.2 && (s.plume k).desc.id == id with
  | some k => s.modPlume k fun p => { p with armed := some (reshardFor z x) }
  | none => s

/-- SVC_PLM_RESHARD: firmware builds the descriptor, hands it to every device of both rings, and waits for every position.
RESHARD_ID is firmware's choice: a free value. -/
def State.plmReshard (s : State) (k : Nat) (ring : List (Nat × Nat)) (lost : List Nat) (arrays : List (Nat × Nat × Nat × Nat)) :
    State × SvcOut :=
  let p := s.plume k
  let d := p.desc
  if !s.plmActive k || p.armed.isSome then (s, .state)
  else if ring = [] ∨ 256 < ring.length ∨ !decide ring.Nodup ∨ !(ring.all fun e => decide (e.1 < 256) && decide (e.2 < 64)) then (s, .invalid 3)
  else if !(arrays.all fun a => decide (a.1 < d.buckets.length) && decide (a.2.1 ∈ [1, 2, 4, 8]) &&
      decide ((arrays.filter fun b => b.1 == a.1).length ≤ 4)) then (s, .invalid 5)
  else match s.reshardSources d lost with
    | none => (s, .invalid 4)
    | some src =>
      let (v, s1) := s.draw
      let id := v.toNat % 2 ^ 32
      let z : PlmReshard := { id, ring, newPos := plmNone, sources := src, arrays }
      let all := ((d.ring.zipIdx.filter fun e => !lost.contains e.2).map Prod.fst ++ ring).dedup
      let s2 := all.foldl (fun s x =>
        if x.1 = s.ownDev then s.armHere d.id z x else s.plmSend k x (.reshard (reshardFor z x))) s1
      (s2, .waits (.reshard id all.length))

def execSvcPlmReshard (c : Caller) (k : Nat) (ring : List (Nat × Nat)) (lost : List Nat) (arrays : List (Nat × Nat × Nat × Nat))
    (s : State) : Host.Outcome State Fault Refusal :=
  svcCmd 0x0506 false c (ownSlot c k fun s => s.plmReshard k ring lost arrays) s

/-! ## Step banks -/

/-- SVC_STEP_BANK_SET assigns a free bank to a partition that has none. -/
def execSvcStepBankSet (c : Caller) (p : Nat) (s : State) : Host.Outcome State Fault Refusal :=
  svcCmd 0x0601 true c (fun s =>
    if s.locked (Reg.PRF_STEP_OWNER 0) then (s, .state)
    else if 64 ≤ p ∨ !s.partActive p then (s, .invalid 2)
    else if (s.bankOf p).isSome then (s, .state)
    else match (List.range 4).find? fun j => !s.flag (Fld.PRF_STEP_OWNER_VALID j) with
      | none => (s, .noResource 0)
      | some j => (s.setFs [(Fld.PRF_STEP_OWNER_VALID j, 1), (Fld.PRF_STEP_OWNER_PART j, p), (Fld.PRT_LIMITS_BANK p, j)], .ok [w j])) s

/-- The amax table of a partition has been written by SVC_AMAX_TABLE_SET since reset, or holds zeros (R314). -/
def State.amaxFresh (s : State) (p : Nat) : Bool :=
  !s.flag (Fld.NUM_AMAX_CFG_ENABLE p) || (s.amax.any fun e => e.1 == p) ||
  (s.hbmRead p (s.getF (Fld.NUM_AMAX_BASE_BASE p) * 4096) ((s.getF (Fld.NUM_AMAX_CFG_COUNT_M1 p) + 1) * 128)).all (· == 0)

/-- SVC_STEP_CONFIG: the registers of the caller's bank in the order of their offsets, with ENABLE last. -/
def State.stepConfig (s : State) (p : Nat) (cfg : Word32) (gey mark end0 end1 step : Word64) : State × SvcOut :=
  match s.bankOf p with
  | none => (s, .state)
  | some j =>
    let f (v : Word64) (lo : Nat) : Nat := fieldOf v lo 16
    let marks : List Nat := if mark.getLsbD 32 then (List.range 14).map fun i => f mark 0 + i else []
    let slot := bits cfg.toNat 16 6
    if s.bankEnabled j then (s, .state)
    else if cfg.getLsbD 22 && !(s.flag (Fld.PLM_OWNER_VALID slot) && s.plmOwner slot == p) then (s, .invalid 2)
    else if !([f gey 0, f gey 16, f gey 32, f gey 48].all fun g => s.geyOwner g == p) then (s, .invalid 3)
    else if !((f mark 16 :: marks).all fun g => decide (g < 65536) && s.geyOwner g == p) then (s, .invalid 4)
    else if !s.amaxFresh p then (s, .state)
    else
      let put (s : State) (r : Nat) (v : Word64) : State := match regFind r with
        | some d => s.plainWrite d r v
        | none => s
      let s1 := put (put (put (put (put s (Reg.PRF_STEP_GEY j) gey) (Reg.PRF_STEP_MARK j) mark) (Reg.PRF_STEP_END0 j) end0)
        (Reg.PRF_STEP_END1 j) end1) (Reg.PRF_STEP_NUM j) step
      let s2 := (s1.bankCfg j (cfg.toNat % 2 ^ 31)).bankCfg j cfg.toNat
      (s2, .ok [w (s2.getF (Fld.PRF_STEP_STATUS_CFG_ERR j))])

def execSvcStepConfig (c : Caller) (cfg : BitVec 32) (gey mark end0 end1 step : BitVec 64) (s : State) :
    Host.Outcome State Fault Refusal :=
  svcCmd 0x0602 false c (fun s => s.stepConfig c.part cfg gey mark end0 end1 step) s

/-- SVC_STEP_ABORT: an open attempt aborts with CAUSE 3 unless the commit point came first (R309). -/
def execSvcStepAbort (c : Caller) (s : State) : Host.Outcome State Fault Refusal :=
  svcCmd 0x0603 false c (fun s => match s.bankOf c.part with
    | none => (s, .state)
    | some j =>
      let s1 := if s.bankEnabled j then s.bankTryCommit j else s
      if s1.bankState j = bkOpen then (s1.bankAbort j 3, .reply svAborted [])
      else if s1.bankState j = bkAborting then (s1, .reply svAborted [])
      else (s1, .reply svComplete [])) s

/-- The 16 words of ring entries of a bank, read under the SEQ check of R319. -/
def State.ringBytes (s : State) (j first count : Nat) : List Byte :=
  (List.range count).flatMap fun i => (List.range 16).flatMap fun x => toLe 8 (s.reg (Reg.PRF_RING j ((first + i) % 1024) x)).toNat

/-- SVC_STEP_QUERY: the bank's ten registers in the order of their offsets, and then the ring entries, in the caller's buffer. -/
def execSvcStepQuery (c : Caller) (first count buf : Nat) (s : State) : Host.Outcome State Fault Refusal :=
  svcCmd 0x0604 false c (fun s => match s.bankOf c.part with
    | none => (s, .state)
    | some j =>
      if 1024 < count ∨ 1024 ≤ first then (s, .invalid 3)
      else
        let bytes := s.ringBytes j first count
        let (s1, ws) := s.readWords [Reg.PRF_STEP_OWNER j, Reg.PRF_STEP_CFG j, Reg.PRF_STEP_GEY j, Reg.PRF_STEP_MARK j, Reg.PRF_STEP_END0 j,
          Reg.PRF_STEP_END1 j, Reg.PRF_STEP_STATUS j, Reg.PRF_STEP_NUM j, Reg.PRF_STEP_TAG j, Reg.PRF_STEP_COUNTS j]
        let all := wordBytes ws ++ bytes
        s1.toBuffer c.part buf 4 (if s.plain c then all.map fun _ => 0 else all) []) s

/-- SVC_AMAX_QUERY: records of the caller's table, in its buffer. -/
def execSvcAmaxQuery (c : Caller) (first count buf : Nat) (s : State) : Host.Outcome State Fault Refusal :=
  svcCmd 0x0605 false c (fun s =>
    let p := c.part
    let n := s.getF (Fld.NUM_AMAX_CFG_COUNT_M1 p) + 1
    let a := s.getF (Fld.NUM_AMAX_BASE_BASE p) * 4096 + first * 128
    if !s.flag (Fld.NUM_AMAX_CFG_ENABLE p) then (s, .state)
    else if n < first + count then (s, .invalid 3)
    else if !s.bufOk p a (count * 128) then (s, .invalid 2)
    else s.toBuffer p buf 4 (if s.plain c then List.replicate (count * 128) 0 else s.hbmRead p a (count * 128)) []) s

end Sys2Proof.Machine
end

