-- ==== Sys2Proof/Machine/SvcSurvive.lean ====
section
/-! DEFINITION. Service calls of area 0x7: the tephra log, buddies, protection, snapshots, refill, replay and the retirement list
(Table 10.7, R327, R328, R332 to R353, R356, R454). -/
namespace Sys2Proof.Machine

/-! ## SVC_LOG_SET (R330, R332, R333) -/

/-- LOG_LSN as firmware restores it: above every record that the log still holds (R325). -/
def State.restoreLsn (s : State) : State :=
  match s.log.records.getLast? with
  | some r => s.setReg Reg.LOG_LSN (dw (max (r.lsn + 1) (s.reg Reg.LOG_LSN).toNat))
  | none => s

/-- The mirror named anew is sent what it lacks; it is current where it lacks nothing (R333). -/
def State.mirrorNamed (s : State) : State :=
  if !s.flag Fld.LOG_CTL_MIRROR_EN then s.setF Fld.LOG_STATUS_MIRRORED 0
  else match s.log.blocks.find? fun b => !b.acked with
    | none => s.setF Fld.LOG_STATUS_MIRRORED 1
    | some b => (if s.log.unmirrored.isSome then s else { s with log := { s.log with unmirrored := some b.first } }).remirror

/-- SVC_LOG_SET: every register, ENABLE last; methods follow thresholds that change (R337). -/
def State.logSet (s : State) (ctl : Word32) (area buf stage : Word64) (prot thr0 thr1 window : Word32) : State × SvcOut :=
  let b := fieldOf buf 28 20 * 2 ^ 28
  let st := fieldOf stage 30 18 * gib
  let sz := fieldOf stage 48 16 * gib
  let cnd := bits ctl.toNat 0 20
  if s.locked Reg.LOG_CTL then (s, .state)
  else if ctl.getLsbD 30 && !s.cndIs cnd 0 1 then (s, .invalid 2)
  else if !s.ungranted b (2 ^ 28) then (s, .invalid 4)
  else if !s.ungranted st sz then (s, .invalid 5)
  else
    let x (v : Word32) : Word64 := v.setWidth 64
    let s1 := (s.withhold b (2 ^ 28)).withhold st sz
    let changed := s.reg Reg.LOG_PROT_THRESH != x prot
    let (s2, r) := s1.svcWrites [(Reg.LOG_AREA, area), (Reg.LOG_BUF, buf), (Reg.LOG_STAGE, stage), (Reg.LOG_PROT_THRESH, x prot), (Reg.LOG_THR0, x thr0),
      (Reg.LOG_THR1, x thr1), (Reg.LOG_THR_WINDOW, x window), (Reg.LOG_CTL, x (ctl &&& 0x7FFFFFFF))] []
    let s3 := if changed then s2.protected.foldl (fun s p => s.protAssign p 3) s2 else s2
    ((s3.restoreLsn.setF Fld.LOG_CTL_ENABLE (bits ctl.toNat 31 1)).mirrorNamed.syncFill, r)

def execSvcLogSet (c : Caller) (ctl : BitVec 32) (area buf stage : BitVec 64) (prot thr0 thr1 window : BitVec 32) (s : State) :
    Host.Outcome State Fault Refusal :=
  svcCmd 0x0701 true c (fun s => s.logSet ctl area buf stage prot thr0 thr1 window) s

/-! ## SVC_LOG_APPEND (R328) -/

/-- SVC_LOG_APPEND: firmware announces host data that lies in the caller's memory in the next slot of its append ring, and replies when
the logger has handled it. -/
def State.logAppend (s : State) (p type len a : Nat) : State × SvcOut :=
  let lg := s.getF (Fld.LOG_APPEND_LOG2DEPTH p)
  let g := s.getF (Fld.LOG_APPEND_GEY_ANNOUNCE_GEY p)
  let going := (s.gey.inflight.filter fun e => e.gey == g).foldl (fun (n : Nat) e => n + e.amount.toNat) 0
  let n := (s.geyCount g).toNat + going
  if !appendable type then (s, .invalid 2)
  else if len % 16 ≠ 0 ∨ 1048576 < 32 + len then (s, .invalid 3)
  else if a % 16 ≠ 0 ∨ !s.bufOk p a len then (s, .invalid 4)
  else if !s.flag (Fld.LOG_APPEND_GEY_EN p) || lg == 0 then (s, .state)
  else if Sparse.get natDefault s.log.appended p + 2 ^ lg ≤ n then (s, .reply svBusy [])
  else
    let slot := s.getF (Fld.LOG_APPEND_BASE p) * 4096 + n % 2 ^ lg * 16
    ((s.hbmWrite p slot (toLe 1 type ++ toLe 3 0 ++ toLe 4 len ++ toLe 8 a)).geyRelease 92 g 1, .waits (.append n))

def execSvcLogAppend (c : Caller) (type len addr : Nat) (s : State) : Host.Outcome State Fault Refusal :=
  svcCmd 0x0702 false c (fun s => s.logAppend c.part type len addr) s

/-! ## SVC_LOG_READ (R335, R454) -/

/-- A record as a reader gets it: a body that was sealed is plaintext only in its tenant's session. -/
def State.readRecord (s : State) (c : Caller) (r : LogRecord) : List Byte :=
  match r.key with
  | none => r.bytes
  | some k =>
    if c.session && c.part == r.part && s.sec.keys.any fun x => x.part == r.part && x.slot == 8 && x.key == k then r.bytes else r.stored

/-- Whole records that fit in `cap` bytes. -/
def fitRecords (cap : Nat) : List (List Byte) → List Byte
  | [] => []
  | b :: t => if b.length ≤ cap then b ++ fitRecords (cap - b.length) t else []

/-- The records of a mirrored block, after its header: each record's PARTITION, LSN and bytes; a wrong CRC or LSN ends them. -/
def blockRecords : Nat → Option Nat → List Byte → List (Nat × Nat × List Byte)
  | 0, _, _ => []
  | n + 1, prev, l =>
    let len := fieldAt l 0x18 4
    let r := l.take len
    let good := crc32c (r.take 0x1C ++ toLe 4 0 ++ r.drop 0x20) == fieldAt l 0x1C 4
    if len < 32 ∨ l.length < len ∨ !good ∨ prev.any (fun p => p + 1 != fieldAt l 0 8) then []
    else (fieldAt l 0x15 1, fieldAt l 0 8, r) :: blockRecords n (some (fieldAt l 0 8)) (l.drop len)

/-- The records of a mirror's blocks: one that does not follow the record before it, or whose CRC fails, ends the readable log (R335). -/
def mirrorRecords : Option Nat → List (List Byte) → List (Nat × Nat × List Byte)
  | _, [] => []
  | prev, b :: t =>
    let rs := blockRecords (fieldAt b 0x10 4) prev (b.drop 64)
    if rs.length < fieldAt b 0x10 4 then rs else rs ++ mirrorRecords ((rs.getLast?.map fun r => r.2.1).or prev) t

/-- SVC_LOG_READ: the caller's records, or every record for partition 0, from LSN `first` to `last`, of the own log or of an origin's
mirror; whole records up to `cap` bytes. -/
def State.logRead (s : State) (c : Caller) (first last : Nat) (origin : Option Nat) (buf cap : Nat) : State × SvcOut :=
  let mine (p lsn : Nat) : Bool := (c.part == 0 || p == c.part) && decide (first ≤ lsn) && decide (lsn ≤ last)
  let recs : List (List Byte) := match origin with
    | none => (s.log.records.filter fun r => mine r.part r.lsn).map fun r => s.readRecord c r
    | some o => ((mirrorRecords none ((s.log.mirrored.filter fun b => b.1 == o).map fun b => b.2.2)).filter fun r => mine r.1 r.2.1).map fun r => r.2.2
  let out := fitRecords cap recs
  s.toBuffer c.part buf 5 out [w out.length]

def execSvcLogRead (c : Caller) (first last : Nat) (origin : Option Nat) (buf cap : Nat) (s : State) : Host.Outcome State Fault Refusal :=
  svcCmd 0x0703 false c (fun s => s.logRead c first last origin buf cap) s

/-! ## Buddies and protection (R336 to R339) -/

/-- The mirror is the buddy device of the first job; without a buddy, the next position, which shares a failure domain. -/
def State.firstMirror (s : State) (d : PlmDesc) (l : List (Option Nat)) (p : Nat) : State :=
  if s.buddies ≠ [] then s
  else
    let q := (l.getD d.mypos none).getD d.down
    let s1 := (s.setFs [(Fld.LOG_CTL_MIRROR_DEVICE, (d.at' q).1), (Fld.LOG_CTL_MIRROR_EN, 1)]).mirrorNamed
    if (l.getD d.mypos none).isSome then s1
    else
      let (v, s2) := s1.draw
      s2.raise srcFumarole p clsInfo 0x7004 0 [v.setWidth 32, 0, 0, 4]

/-- SVC_BUDDY_SET: the buddy of each position, 2 bytes each with 0xFFFF for none, in the caller's buffer. -/
def State.buddySet (s : State) (p k buf : Nat) : State × SvcOut :=
  let d := (s.plume k).desc
  let l := s.chooseBuddies d.ring
  if s.locked Reg.LOG_CTL ∧ s.buddies = [] then (s, .state)
  else if d.npos = 0 then (s, .state)
  else if !s.bufOk p buf (2 * d.npos) then (s, .invalid 3)
  else
    let s1 := s.firstMirror d l p
    let s2 : State := { s1 with buddies := (s1.buddies.filter fun (b : BuddyMap) => b.plume != d.id) ++ [BuddyMap.mk d.id l] }
    (s2.protected.foldl (fun s p => s.protAssign p 0) s2).toBuffer p buf 3 (l.flatMap fun b => toLe 2 (b.getD 0xFFFF)) []

def execSvcBuddySet (c : Caller) (k buf : Nat) (s : State) : Host.Outcome State Fault Refusal :=
  svcCmd 0x0704 false c (ownSlot c k fun s => s.buddySet c.part k buf) s

/-- An entry is as Table 10.3 has it and lies in the caller's grant. -/
def State.protOk (s : State) (p : Nat) (e : ProtEntry) : Bool :=
  e.base % 64 == 0 && e.length % 64 == 0 && e.length != 0 && s.bufOk p e.base e.length && decide (1 ≤ e.kind) && decide (e.kind ≤ 4) &&
  decide (e.verify ≤ 1) && decide (e.churn ≤ 1024) && e.format == 1 &&
  (if e.kind = 1 then decide (e.slot < 64) && s.flag (Fld.PLM_OWNER_VALID e.slot) && s.plmOwner e.slot == p else e.slot == 0 && e.shadow == 0)

/-- SVC_PROT_SET: the table is checked, named in LOG_PROT, and given its methods. -/
def execSvcProtSet (c : Caller) (base count : Nat) (s : State) : Host.Outcome State Fault Refusal :=
  svcCmd 0x0705 false c (fun s =>
    let p := c.part
    if 4095 < count then (s, .invalid 3)
    else if base % 64 ≠ 0 ∨ !s.bufOk p base (64 * count) then (s, .invalid 2)
    else
      let s1 := s.setFs [(Fld.LOG_PROT_BASE p, base / 64), (Fld.LOG_PROT_COUNT p, count)]
      match (List.range count).find? fun i => !s1.protOk p (s1.protEntry p i) with
      | some i => (s, .reply svInvalid [2, w i])
      | none => (s1.protAssign p 0, .ok [])) s

/-! ## Snapshots (R342 to R345, R504 to R506) -/

/-- The regions of a scope: partition, index, base and length. -/
def State.snapScope (s : State) (scope : Nat) : List (Nat × Nat × Nat × Nat) :=
  s.protected.flatMap fun p => (List.range (s.protCount p)).filterMap fun i =>
    let e := s.protEntry p i
    if e.method = mtSnapshot ∨ (scope = 2 ∧ (e.method = mtShadow ∨ e.method = mtFallback)) then some (p, i, e.base, e.length) else none

/-- Bytes of the snapshot area (Table 15.6, of a cartridge of 7,680 GB). -/
def State.snapArea (s : State) : Nat := 7680 * 10 ^ 9 - 129 * 2 ^ 20 - (s.getF Fld.LOG_AREA_OWN_GB + s.getF Fld.LOG_AREA_MIRROR_GB) * 10 ^ 9
def Snapshot.bytes (x : Snapshot) : Nat := (x.regions.map fun r => r.data.length).sum

/-- Every bank and plume concerned is at a step boundary. -/
def State.atBoundary (s : State) : Bool :=
  s.protected.all fun p =>
    ((s.bankOf p).all fun j => s.bankState j == bkIdle) &&
    ((s.slotsOf p).all fun k => !s.plmActive k ||
      (s.plmState k == plWaiting && ((s.plume k).runs.any fun r => ((s.plume k).desc.op r.ix).op == 9)))

/-- The arrays that run a context of a partition with a protection table. -/
def State.snapArrays (s : State) : List Nat :=
  (List.range 144).filter fun n => (s.arr n).ident.any (fun i => s.protected.contains i.part) && !s.arrSettled n

/-- The last step that has been committed. -/
def State.lastStep (s : State) : Nat :=
  match s.protected.filterMap s.bankOf with
  | j :: _ => (s.reg (Reg.PRF_STEP_NUM j)).toNat - 1
  | [] => 0

/-- The regions are copied, the arrays run on, and the logger drains. -/
def State.snapCopy (s : State) (id scope step t0 : Nat) (arrays : List Nat) : State :=
  let regions := (s.snapScope scope).map fun r => SnapRegion.mk r.1 r.2.1 r.2.2.1 (s.hbmRead r.1 r.2.2.1 r.2.2.2)
  let s1 := { s with log := { s.log with snap := some { id, scope, step, stopUs := (s.time - t0) / 1000, regions, lsn := 0 } } }
  arrays.foldl (fun s n => s.arrResume n) (s1.setFs [(Fld.LOG_SNAP_STATE, 3), (Fld.LOG_SNAP_SCOPE, scope)])

/-- SVC_SNAP_TAKE; with the group flag the members' firmware does the same at the same step (R342). -/
def State.snapTake (s : State) (scope : Nat) : State × SvcOut :=
  let id := s.log.nextSnap
  let size := ((s.snapScope scope).map fun r => r.2.2.2).sum
  let held := (s.log.kept.map Snapshot.bytes).sum
  if scope ≠ 1 ∧ scope ≠ 2 then (s, .invalid 2)
  else if s.log.snap.isSome || s.getF Fld.LOG_SNAP_STATE != 0 then (s.snapFailed id 1, .state)
  else if !s.flag Fld.CRT_STATUS_SNAP_OK then (s.snapFailed id 2, .state)
  else if s.snapArea < held + size then ((s.snapFailed id 2).raise srcNvme wholeDevice clsInfo 0xC00A 0 [1, w s.ownDev], .state)
  else if !s.atBoundary then (s, .state)
  else
    let arrays := s.snapArrays
    let s1 := ({ s with log := { s.log with nextSnap := id + 1 } }).setFs [(Fld.LOG_SNAP_STATE, 1), (Fld.LOG_SNAP_SCOPE, scope)]
    (arrays.foldl (fun s n => s.arrStopBit n) s1, .waits (.snapStop id scope s.lastStep s.time arrays))

def execSvcSnapTake (c : Caller) (scope : Nat) (group : Bool) (s : State) : Host.Outcome State Fault Refusal :=
  svcCmd 0x0706 false c (fun s => if group && !s.flag Fld.PCI_CFG_HEAD then (s, .state) else s.snapTake scope) s

/-- The calls that take a snapshot. -/
def Call.takesSnap (c : Call) : Bool := match c.wait with
  | some (.snapStop _ _ _ _ _) => true
  | some (.snap _) => true
  | _ => false

/-- Arrays that were asked to stop, or have stopped, run on. -/
def State.runOn (s : State) (arrays : List Nat) : State :=
  arrays.foldl (fun (s : State) n => (s.modArr n fun a => { a with stopBit := false }).arrResume n) s

/-- SVC_SNAP_ABORT: a snapshot that is not durable is abandoned, and stopped arrays run on. -/
def State.snapAbort (s : State) : State × SvcOut :=
  match s.acc.calls.find? Call.takesSnap with
  | none => (s, .reply svComplete [])
  | some x =>
    let s1 := match x.wait with
      | some (.snapStop id _ _ _ arrays) =>
        let s1 := (s.setFs [(Fld.LOG_SNAP_STATE, 0), (Fld.LOG_SNAP_SCOPE, 0)]).snapFailed id 4
        s1.runOn arrays
      | _ => s.snapAbandon 4
    (s1.endCall x svAborted [], .reply svAborted [])

def execSvcSnapAbort (c : Caller) (s : State) : Host.Outcome State Fault Refusal := svcCmd 0x0707 false c (fun s => s.snapAbort) s

/-! ## SVC_REFILL (R349 to R353) -/

/-- The target step (R349): `step` is the highest that a surviving bank has begun. -/
def refillTarget (f : StepFinding) (step lost : Nat) : Nat :=
  if f.committed then step
  else if f.surplus.any fun x => x == f.escrows + lost then step
  else step - 1

/-- The base snapshot that a rollback restores, and its regions of a partition put back (R339, R347). -/
def State.rollBack (s : State) (p lost reason : Nat) : State × SvcOut :=
  match (s.log.kept.filter fun x => x.scope == 2).getLast? with
  | none => (s.raise srcFumarole wholeDevice clsInfo 0x7009 0 [w lost, 0, 3], .state)
  | some x =>
    let s1 := s.raise srcFumarole wholeDevice clsInfo 0x7009 0 [w lost, w x.id, w reason]
    ((x.regions.filter fun r => r.part == p).foldl (fun s r => s.hbmWrite r.part r.base r.data) s1, .ok (w2 (dw x.step)))

/-- The spare takes the lost device's place in the ring table that the plume's descriptor names. -/
def State.ringEntry (s : State) (p k i spare : Nat) : State :=
  let a := s.getF (Fld.PLM_DESC_BASE k) * 256
  let t := fieldAt (s.hbmRead p (a + 0x18) 8) 0 8
  s.hbmWrite p (t + 4 * i) (toLe 1 spare)

/-- R439: the keys of a sealed partition go to the sinter of the spare with the seal record under which it seals, where the policy and
the replacement allow it.  Otherwise the tenant imports its keys there, and REFILL_FALLBACK says so; no base snapshot is meant, and what
word 1 holds then is a free value. -/
def State.moveKeys (s : State) (p lost spare : Nat) (allowed : Bool) : State :=
  if !s.isSealed p then s
  else match s.sec.seals.find? fun r => r.part == p with
    | some r =>
      if r.policy.migrate && allowed then
        { s with sec := { s.sec with migrated := s.sec.migrated ++ [Migration.mk p spare (s.sec.keys.filter fun k => k.part == p) r] } }
      else let (x, s1) := s.draw; s1.raise srcFumarole wholeDevice clsInfo 0x7009 0 [w lost, x.setWidth 32, 4]
    | none => s

/-- The devices that a refill of a lost one copies from: the buddies of its positions, and the positions whose buddy it was (R352). -/
def State.refillSources (s : State) (d : PlmDesc) (lost : Nat) : List Nat :=
  let buddy (i : Nat) : Option Nat := ((s.buddies.find? fun b => b.plume == d.id).bind fun b => b.buddies.getD i none).map fun q => (d.at' q).1
  (List.range d.npos).flatMap fun i =>
    if (d.at' i).1 = lost then (buddy i).toList else if buddy i = some lost then [(d.at' i).1] else []

/-- A refill in progress: the lost device and its spare. -/
def Call.refills (c : Call) : Option (Nat × Nat) := match c.wait with
  | some (.refill dev spare _ _ _) => some (dev, spare)
  | _ => none

/-- What a refill of `lost` comes to beside those in progress (R352, Table 10.4). -/
inductive RefillPlace where
  /-- It runs at once. -/
  | free
  /-- The same device is being refilled. -/
  | busy
  /-- It waits for a refill whose sources it shares. -/
  | queued
  /-- One of the lost devices is a source of the other's refill: a group rollback. -/
  | rollback
  deriving DecidableEq, Repr

def State.refillPlace (s : State) (d : PlmDesc) (lost : Nat) : RefillPlace :=
  let going := s.acc.calls.filterMap Call.refills
  let mine := s.refillSources d lost
  let reach (x : Nat) : Bool := !s.peerUnreachable x
  if going.any fun e => e.1 == lost && reach e.2 then .busy
  else
    let others := going.filter fun e => e.1 != lost
    if others.any fun e => mine.contains e.1 || (s.refillSources d e.1).contains lost then .rollback
    else if others.any fun e => (s.refillSources d e.1).any mine.contains then .queued
    else .free

/-- The position whose buddy was lost marks its regions FALLBACK until their copy is verified (R350). -/
def State.loseBuddy (s : State) (p : Nat) (d : PlmDesc) (lost : Nat) : State :=
  let cut (b : BuddyMap) : BuddyMap :=
    if b.plume = d.id ∧ ((b.buddies.getD d.mypos none).map fun q => (d.at' q).1) = some lost then { b with buddies := b.buddies.set d.mypos none } else b
  ({ s with buddies := s.buddies.map cut }).protAssign p 0

/-- SVC_REFILL on the head; one whose spare has failed begins again with another (Table 10.4). -/
def State.refill (s : State) (p k lost : Nat) (spare : Option Nat) (step : Nat) (f : StepFinding) (paths : List PathEntry)
    (arrays : List (Nat × Nat × Nat × Nat)) : State × SvcOut :=
  let d := (s.plume k).desc
  let gone := (List.range d.npos).filter fun i => (d.at' i).1 == lost
  let target := refillTarget f step gone.length
  if !s.flag Fld.PCI_CFG_HEAD then (s, .state)
  else if gone = [] ∨ lost = s.ownDev then (s, .invalid 3)
  else match s.refillPlace d lost with
  | .busy => (s, .reply svBusy [])
  | .queued => (s, .waits (.refillNext k lost spare step f paths arrays))
  | .rollback => s.rollBack p lost 1
  | .free =>
    let s0 := (s.acc.calls.filter fun c => (c.refills.map Prod.fst) == some lost).foldl (fun (s : State) c => s.endCall c svState []) s
    let s1 := if target < step then s0.abortAttempt p else s0
    match spare with
    | none =>
      let ring := (d.ring.zipIdx.filter fun e => !gone.contains e.2).map Prod.fst
      (match s1.plmReshard k ring gone arrays with
       | (s2, .reply st ws) => if st = svInvalid ∧ ws = [4] then s2.rollBack p lost 2 else (s2, .reply st ws)
       | x => x)
    | some m =>
      if 256 ≤ m ∨ m = s.ownDev ∨ (d.ring.any fun e => e.1 == m) then (s, .invalid 4)
      else if gone.any fun i => ((s1.buddies.find? fun b => b.plume == d.id).bind fun b => b.buddies.getD i none).isNone then
        s1.rollBack p lost 2
      else
        let src := (((s1.buddies.find? fun b => b.plume == d.id).bind fun b => b.buddies.getD (gone.headD 0) none).getD 0)
        let s2 := s1.raise srcFumarole wholeDevice clsInfo 0x7007 0 ([2, w lost, w m] ++ w2 (dw target))
        let s3 := paths.foldl (fun s e => s.putEntry m e) s2
        let s4 := gone.foldl (fun s i => s.ringEntry p k i m) s3
        let s5 := (((s4.moveKeys p lost m f.migrates).loseBuddy p d lost).refillRecord 2 lost m (d.at' src).1 target p).groupState m 5
        (s5.groupState lost 6, .waits (.refill lost m target s.time k))

def execSvcRefill (c : Caller) (k lost : Nat) (spare : Option Nat) (step : Nat) (f : StepFinding) (paths : List PathEntry)
    (arrays : List (Nat × Nat × Nat × Nat)) (s : State) : Host.Outcome State Fault Refusal :=
  svcCmd 0x0708 false c (ownSlot c k fun s => s.refill c.part k lost spare step f paths arrays) s

/-- R351: STAGE goes to HOME where a version stands there, and the plume starts at target + 1. -/
def State.refillRestart (s : State) (p k target : Nat) : State :=
  let d := (s.plume k).desc
  let s1 := (List.range d.buckets.length).foldl (fun s b =>
    if s.vAtStage k b then
      let x := d.bucket b
      let lo := d.lo b d.mypos * fmtBytes d.wfmt
      let n := d.size b d.mypos * fmtBytes d.wfmt
      s.hbmWrite p (if d.sharded then x.home else x.home + lo) (s.hbmRead p (x.stage + lo) n)
    else s) s
  (s1.setReg (Reg.PLM_STEP k) (dw (target + 1))).plmCtl k 1

/-- A refill ends: REFILL_DONE, and the job runs on. -/
def State.refillEnd (s : State) (p dev spare target t0 k : Nat) : State :=
  let s1 := (s.refillRestart p k target).groupState spare 1
  let s2 := s1.rebuddy (s1.plume k).desc.id (s1.plume k).desc.ring
  s2.raise srcFumarole wholeDevice clsInfo 0x7008 0 [2, w dev, w spare, w ((s.time - t0) / 1000000)]

/-! ## SVC_SHADOW_RESTORE (R346, R350, R355) -/

/-- The buddy device of a region's plume. -/
def State.buddyDev (s : State) (k : Nat) : Nat := match s.buddyOf k with
  | some q => ((s.plume k).desc.at' q).1
  | none => 255

/-- SVC_SHADOW_RESTORE: ranges of the caller's SHADOW regions (index, offset) with the bytes that its buddy sends, whether the digests
agree (R346), and escrow halves with where they go. -/
def State.shadowRestore (s : State) (p : Nat) (ranges : List (Nat × Nat × List Byte)) (agree : Bool) (halves : List (Nat × List Byte)) :
    State × SvcOut :=
  let bad := ranges.find? fun r =>
    let e := s.protEntry p r.1
    decide (s.protCount p ≤ r.1) || e.method != mtShadow || decide (e.length < r.2.1 + r.2.2.length) || (s.buddyOf e.slot).isNone
  match bad with
  | some r => (s, .reply svInvalid [2, w r.1])
  | none =>
    if !halves.all fun h => s.bufOk p h.1 h.2.length then (s, .invalid 4)
    else
      let s1 := ranges.foldl (fun s r => s.hbmWrite p ((s.protEntry p r.1).base + r.2.1) r.2.2) s
      let s2 := halves.foldl (fun s h => s.hbmWrite p h.1 h.2) s1
      if agree then (s2, .ok [])
      else
        let r := ranges.headD (0, 0, [])
        (s2.raise srcFumarole p clsOperation 0x700A 0 [w r.1, w (r.2.1 / 2 ^ 26), w (s2.buddyDev (s2.protEntry p r.1).slot)], .state)

def execSvcShadowRestore (c : Caller) (ranges : List (Nat × Nat × List (BitVec 8))) (agree : Bool) (halves : List (Nat × List (BitVec 8)))
    (s : State) : Host.Outcome State Fault Refusal :=
  svcCmd 0x0709 false c (fun s => s.shadowRestore c.part ranges agree halves) s

/-! ## SVC_REPLAY_SET (R347) -/

/-- The record carries the tag of an attempt that aborted. -/
def State.voided (s : State) (r : LogRecord) : Bool :=
  s.log.records.any fun x => x.type == 6 && x.part == r.part && x.tag == r.tag && decide (r.lsn < x.lsn) && r.tag != 0

/-- The late list: a partition's own late decisions from step `first` to `last`, by step, and the entry that ends it. -/
def State.lateList (s : State) (p first last : Nat) : List Byte :=
  let rs := s.log.records.filter fun r => r.type == 4 && r.part == p && decide (first ≤ r.step) && decide (r.step ≤ last) && !s.voided r &&
    fieldAt r.bytes 0x24 1 == s.ownDev % 256
  let sorted := rs.insertionSort fun a b => a.step ≤ b.step
  (sorted.flatMap fun r => toLe 8 r.step ++ (r.bytes.drop 0x20).take 1 ++ toLe 1 0 ++ (r.bytes.drop 0x26).take 2 ++ toLe 4 0) ++
    toLe 8 (2 ^ 64 - 1) ++ toLe 8 0

/-- SVC_REPLAY_SET; without a range, replay ends. -/
def execSvcReplaySet (c : Caller) (range : Option (Nat × Nat)) (buf : Nat) (s : State) : Host.Outcome State Fault Refusal :=
  svcCmd 0x070A false c (fun s =>
    let p := c.part
    match range with
    | none => (s.setF (Fld.LOG_REPLAY_ENABLE p) 0, .ok [])
    | some (a, b) =>
      let l := s.lateList p a b
      if buf % 16 ≠ 0 ∨ !s.bufOk p buf l.length then (s, .invalid 3)
      else ((s.hbmWrite p buf l).setFs [(Fld.LOG_REPLAY_BASE p, buf / 16), (Fld.LOG_REPLAY_ENABLE p, 1)], .ok [w (l.length / 16 - 1)])) s

/-! ## The retirement list (R356) -/

/-- SVC_RETIRE_QUERY: domain and sub-unit of each entry, 4 bytes an entry, in the caller's buffer. -/
def execSvcRetireQuery (c : Caller) (buf : Nat) (s : State) : Host.Outcome State Fault Refusal :=
  svcCmd 0x070B false c (fun s =>
    s.toBuffer c.part buf 2 (s.ret.list.flatMap fun e => toLe 2 e.1 ++ toLe 2 e.2) [w s.ret.list.length]) s

/-- SVC_RETIRE_CLEAR. -/
def execSvcRetireClear (c : Caller) (domain sub : Nat) (s : State) : Host.Outcome State Fault Refusal :=
  svcCmd 0x070C true c (fun s =>
    if s.ret.list.contains (domain, sub) then ({ s with ret := { s.ret with list := s.ret.list.filter fun e => e != (domain, sub) } }, .ok [])
    else (s, .invalid 2)) s

end Sys2Proof.Machine
end

