-- ==== Sys2Proof/Machine/Partitions.lean ====
section
/-! DEFINITION. Partitions: creation, destruction, resets by call, and changes of grant (R394 to R399, R403, R404, R406, R442). -/
namespace Sys2Proof.Machine

/-! ## The configuration image (Table 12.5a) -/

structure PartImage where
  part : Nat
  flags : Nat
  job : Nat
  hbm : Nat
  larrays : Nat
  aclass : Nat
  bclass : Nat
  ocUnits : Nat
  accLines : Nat
  geyCount : Nat
  conduits : Nat
  plumes : Nat
  irqCount : Nat
  irqDelay : Nat
  weights : List Nat
  evtDepth : Nat
  peers : Nat
  segList : Nat
  deriving DecidableEq, Repr

def PartImage.ofBytes (l : List Byte) : PartImage :=
  let f := fieldAt l
  { part := f 2 1, flags := f 3 1, job := f 4 4, hbm := f 8 2, larrays := f 0x0A 2, aclass := f 0x0C 1 % 4, bclass := f 0x0C 1 / 4 % 4
    ocUnits := f 0x0D 1, accLines := f 0x0E 2, geyCount := f 0x10 4, conduits := f 0x14 4, plumes := f 0x18 1, irqCount := f 0x19 1
    irqDelay := f 0x1A 2, weights := (List.range 4).map fun i => f (0x20 + 2 * i) 2, evtDepth := f 0x28 1, peers := f 0x30 32
    segList := f 0x50 8 }

/-- Segments that the areas of step 5 take: the two rings of 1,024 entries, the event ring, and 2 MiB a logical array. -/
def areaSegs (larrays evtDepth : Nat) : Nat := ceilDiv (2 ^ 21 * larrays + 64 * 2 ^ evtDepth + 2 * 65536) gib

/-- The first byte that must be zero and is not. -/
def strayByte (l : List Byte) : Option Nat :=
  (List.range 256).find? fun i => (decide (0x1C ≤ i) && decide (i < 0x20) || decide (0x29 ≤ i) && decide (i < 0x30) || decide (0x58 ≤ i)) && l.getD i 0 != 0

/-- The first field, by its offset, that is out of its range (step 1). -/
def State.imageFault (s : State) (l : List Byte) : Option Nat :=
  let x := PartImage.ofBytes l
  if fieldAt l 0 2 ≠ 1 then some 0
  else if x.part = 0 ∨ 64 ≤ x.part ∨ s.partState x.part ≠ psFree then some 2
  else if 8 ≤ x.flags then some 3
  else if x.job = 0 then some 4
  else if x.hbm = 0 ∨ 767 < x.hbm then some 8
  else if x.larrays = 0 ∨ 128 < x.larrays then some 0x0A
  else if 16 ≤ fieldAt l 0x0C 1 ∨ x.aclass = 3 ∨ x.bclass = 3 then some 0x0C
  else if x.ocUnits = 0 ∨ 96 < x.ocUnits then some 0x0D
  else if 6144 < x.accLines then some 0x0E
  else if x.geyCount % 64 ≠ 0 ∨ 65536 < x.geyCount then some 0x10
  else if x.conduits < 3 ∨ 1048576 < x.conduits then some 0x14
  else if 64 < x.plumes then some 0x18
  else if x.weights.any fun v => decide (1000 < v) then some 0x20
  else if x.evtDepth < 4 ∨ 24 < x.evtDepth then some 0x28
  else if x.hbm ≤ areaSegs x.larrays x.evtDepth then some 8
  else if x.segList ≠ 0 ∧ !s.bufOk 0 x.segList (2 * x.hbm) then some 0x50
  else strayByte l

/-! ## Resources of firmware's choice (R396, R397)

Where the manual leaves firmware a choice, the model takes the first that serves in a fixed order (DESIGN CHOICE). -/

/-- A segment that may be granted: partition 0 holds it, and none of its conduits has its ring there. -/
def State.freeSeg (s : State) (t : Nat) : Bool :=
  (s.segPhys 0 t).isSome && (s.conduitsOf 0).all fun c =>
    let x := s.cndGet c
    !overlaps x.ring (2 ^ x.log2depth * 64) (t * gib) gib
def State.grantable (s : State) : List Nat := (List.range 768).reverse.filter s.freeSeg

/-- The class of a context's partition: 0 guaranteed, 1 shared, 2 bubble. -/
def State.aclass (s : State) (p : Nat) : Nat := s.getF (Fld.PRT_STATE_ACLASS p)

/-- The first place for `len` among ranges held, below `top`. -/
def firstFit (held : List (Nat × Nat)) (len top : Nat) : Option Nat :=
  ((0 :: held.map fun e => e.1 + e.2).insertionSort (· ≤ ·)).find? fun a => decide (a + len ≤ top) && held.all fun e => !overlaps e.1 e.2 a len

/-- Operand-cache units and accumulator lines that contexts hold on an array: those in firmware's table, and those of a mapped context that
is on it now, which a call may have given another reservation for its next switch (R139, R215). -/
def State.ocTaken (s : State) (n : Nat) : List (Nat × Nat) :=
  (if (s.arr n).ident.isSome then [(s.getF (Fld.ARR_OC_CFG_FIRST n), s.getF (Fld.ARR_OC_CFG_UNITS n))] else []) ++
    (s.contexts.filter fun c => c.phys == n).map fun c => (c.ocFirst, c.ocUnits)
def State.accTaken (s : State) (n : Nat) : List (Nat × Nat) :=
  (if (s.arr n).ident.isSome then [(s.getF (Fld.ARR_ACC_CFG_RES_FIRST n), s.getF (Fld.ARR_ACC_CFG_RES_COUNT n))] else []) ++
    (s.contexts.filter fun c => c.phys == n).map fun c => (c.accFirst, c.accCount)

/-- An array that firmware may map a context of a class to, one in service as shipped or a spare that stands in (R16), and the context's
reservations there. -/
def State.placeOn (s : State) (n cls oc acc : Nat) : Option (Nat × Nat) :=
  let cs := s.contexts.filter fun c => c.phys == n
  let usable := s.arrState n != stRetired && (Config.fuseArray n == 0 || s.ret.used.contains n) && s.domainRuns (n / 4) && !s.flag (Fld.ARR_ACC_DBG_OPEN n) &&
    ((s.arr n).ident.isSome || s.arrState n == stIdle)
  let classOk := match cls with
    | 0 => cs.all fun c => s.aclass c.id.part == 2
    | 1 => cs.all fun c => s.aclass c.id.part != 0
    | _ => true
  if !(usable && classOk) then none
  else match firstFit (s.ocTaken n) oc 96, firstFit (s.accTaken n) acc 6144 with
    | some a, some b => some (a, b)
    | some a, none => if cls = 2 then none else some (a, 0)
    | none, _ => none

/-- Arrays in the order in which firmware tries them for a logical array: its quadrant first. -/
def arrayOrder (l : Nat) : List Nat :=
  ((List.range 36).map fun i => l % 4 * 36 + i) ++ (List.range 144).filter fun n => n / 36 != l % 4

/-- Map logical arrays `lo` to `hi` of a partition; `none` where one finds no array. -/
def State.mapArrays (s : State) (p lo hi cls oc acc images : Nat) : Option State :=
  (List.range (hi - lo)).foldl (fun (r : Option State) i =>
    match r with
    | none => none
    | some s =>
      let l := lo + i
      match (arrayOrder l).findSome? fun n => (s.placeOn n cls oc acc).map fun a => (n, a) with
      | some (n, a, b) => some (s.mapCtx { id := ⟨p, l, cls == 2⟩, phys := n, image := images + l * 2 ^ 21, ocFirst := a, ocUnits := oc,
                                           accFirst := b, accCount := acc, saved := false })
      | none => none) (some s)

/-- The geyser grants of partitions. -/
def State.geyGrants (s : State) : List (Nat × Nat) :=
  ((List.range 64).map fun p => (s.getF (Fld.PRT_GEY_BASE p), s.getF (Fld.PRT_GEY_COUNT p))).filter fun e => e.2 != 0
/-- The highest free aligned range of geysers. -/
def State.freeGeysers (s : State) (count : Nat) : Option Nat :=
  if count = 0 then some 0
  else ((List.range 1024).reverse.map (· * 64)).find? fun a => decide (a + count ≤ 65536) && s.geyGrants.all fun e => !overlaps e.1 e.2 a count

/-- Conduit numbers that no conduit has. -/
def State.freeThree (s : State) : Option (Nat × Nat × Nat) :=
  match ((List.range (s.cnd.owned.length + 3)).filter fun c => decide (c < conduitCount) && s.cnd.owned.all fun e => e.1 != c) with
  | a :: b :: c :: _ => some (a, b, c)
  | _ => none

/-- Grant physical segments as partition-relative segments from `first` on, zeroed. -/
def State.grantSegs (s : State) (p first : Nat) (l : List Nat) : State :=
  ((l.zipIdx.foldl (fun s e => s.setFs [(Fld.PRT_SEG_OWNER_GRANTED e.1, 1), (Fld.PRT_SEG_OWNER_PART e.1, p),
    (Fld.PRT_SEG_OWNER_RSEG e.1, first + e.2)]) s).zeroSegs l).syncZero
/-- Segments return to partition 0, zeroed. -/
def State.freeSegments (s : State) (l : List Nat) : State :=
  ((l.foldl (fun s t => s.resetRegs (Reg.PRT_SEG_OWNER t) (Reg.PRT_SEG_OWNER t + 4)) s).zeroSegs l).syncZero

/-- PEERS as eight words. -/
def State.setPeers (s : State) (p v : Nat) : State :=
  (List.range 8).foldl (fun s i => s.setF (Fld.PRT_PEER_PEERS p i) (bits v (32 * i) 32)) s

/-! ## SVC_PART_CREATE -/

/-- The PRT bank of a new partition (step 6). -/
def State.writeBank (s : State) (x : PartImage) (geyBase : Nat) : State :=
  let p := x.part
  let q (i : Nat) : Nat := x.weights.getD i 0
  (s.setFs [(Fld.PRT_STATE_ACLASS p, x.aclass), (Fld.PRT_STATE_BCLASS p, x.bclass), (Fld.PRT_STATE_LARRAYS p, x.larrays),
    (Fld.PRT_STATE_HBM_GIB p, x.hbm), (Fld.PRT_MODE_IDX p, bits x.flags 0 1), (Fld.PRT_MODE_LEND_EN p, bits x.flags 1 1),
    (Fld.PRT_BLOCKS_BLOCKS p, if x.aclass = 0 then 2 ^ 14 else 0), (Fld.PRT_JOB_JOB p, x.job), (Fld.PRT_GEY_COUNT p, x.geyCount),
    (Fld.PRT_GEY_BASE p, geyBase), (Fld.PRT_LIMITS_CONDUITS p, x.conduits), (Fld.PRT_LIMITS_PLUMES p, x.plumes), (Fld.PRT_QOS_ARRAY p, q 0),
    (Fld.PRT_QOS_HBM p, q 1), (Fld.PRT_QOS_VENT p, q 2), (Fld.PRT_QOS_CND p, q 3), (Fld.PRT_IRQ_MAX_COUNT p, x.irqCount),
    (Fld.PRT_IRQ_MAX_DELAY p, x.irqDelay)]).setPeers p x.peers

/-- The step bank, if one is asked for. -/
def State.takeBank (s : State) (x : PartImage) : Option State :=
  if bits x.flags 2 1 = 0 then some s
  else ((List.range 4).find? fun j => !s.flag (Fld.PRF_STEP_OWNER_VALID j)).map fun j =>
    s.setFs [(Fld.PRF_STEP_OWNER_VALID j, 1), (Fld.PRF_STEP_OWNER_PART j, x.part), (Fld.PRT_LIMITS_BANK x.part, j)]

/-- The segments of a new partition: those it lists, if they are free, or firmware's choice. -/
def State.takeSegs (s : State) (x : PartImage) : Option (List Nat) :=
  if x.segList = 0 then (if x.hbm ≤ s.grantable.length then some (s.grantable.take x.hbm) else none)
  else
    let l := (List.range x.hbm).map fun i => ofLe (s.hbmRead 0 (x.segList + 2 * i) 2)
    if (l.all fun t => decide (t < 768) && s.freeSeg t) && decide l.Nodup then some l else none

/-- Where the areas of step 5 lie: the event ring, the two rings of 1,024 entries, and the context images, in the highest segments. -/
def areaBase (hbm larrays evtDepth : Nat) : Nat := (hbm - areaSegs larrays evtDepth) * gib
def PartImage.info (x : PartImage) (c : Nat × Nat × Nat) : PartInfo :=
  let a := areaBase x.hbm x.larrays x.evtDepth
  let e := max 4096 (64 * 2 ^ x.evtDepth)
  { part := x.part, evt := c.1, gey := c.2.1, rmo := c.2.2, evtRing := a, geyRing := a + e, rmoRing := a + e + 65536, evtDepth := x.evtDepth
    images := a + e + 2 * 65536, areaSegs := areaSegs x.larrays x.evtDepth }

/-- Steps 2 to 7 with the resources chosen, or the field whose resource is missing. -/
def State.buildPart (s : State) (x : PartImage) : Nat ⊕ (State × SvcOut) :=
  match s.takeSegs x, s.freeGeysers x.geyCount, s.freeThree with
  | none, _, _ => .inl (if x.segList = 0 then 8 else 0x50)
  | _, none, _ => .inl 0x10
  | _, _, none => .inl 0x14
  | some segs, some g, some c =>
    let i := x.info c
    let p := x.part
    let s1 := (s.newMemKey p).grantSegs p 0 segs
    match s1.mapArrays p 0 x.larrays x.aclass x.ocUnits x.accLines i.images with
    | none => .inl 0x0A
    | some s2 =>
      let s3 := (s2.writeBank x g).resetGeysers p
      let s4 := ({ s3 with parts := s3.parts ++ [i] }).makeThree i
      match s4.takeBank x with
      | none => .inl 3
      | some s5 => .inr ((s5.setPartState p psActive 1).notice p 3 [], .ok ([w i.evt, w g, w i.evt, w i.gey, w i.rmo] ++ w2 (dw i.images)))

/-- SVC_PART_CREATE. -/
def State.partCreate (s : State) (a : Nat) : State × SvcOut :=
  let l := s.hbmRead 0 a 256
  let x := PartImage.ofBytes l
  if !s.isOwned || !s.cndTableOn || (bits x.flags 2 1 == 1 && s.locked (Reg.PRF_STEP_OWNER 0)) then (s, .state)
  else if !s.bufOk 0 a 256 then (s, .invalid 2)
  else match s.imageFault l with
    | some o => (s, .reply svInvalid [w o])
    | none =>
      let s1 := s.setPartState x.part psCreating 1
      match s1.buildPart x with
      | .inr r => r
      | .inl o => (s1.setPartState x.part psFree 1, .reply svNoResource [w o])

def execSvcPartCreate (c : Caller) (image : Nat) (s : State) : Host.Outcome State Fault Refusal :=
  svcCmd 0x0901 true c (fun s => s.partCreate image) s

/-! ## SVC_PART_DESTROY (R399, R403) -/

/-- The destruction of a partition would write the owner of a plume slot or of a step bank, and the block is locked (R7). -/
def State.destroyLocked (s : State) (p : Nat) : Bool :=
  (s.locked (Reg.PLM_OWNER 0) && !(s.slotsOf p).isEmpty) || (s.locked (Reg.PRF_STEP_OWNER 0) && (s.bankOf p).isSome)

/-- The reset that begins a destruction. -/
def State.destroyBegin (s : State) (p : Nat) : State := s.resetBegin p psDestroying 1

/-- What the partition had is free, and its state FREE. -/
def State.destroyEnd (s : State) (p : Nat) : State :=
  let s1 := s.resetContents p
  let s2 := (s1.contexts.filter fun i => i.id.part == p).foldl (fun (s : State) i => s.unmapCtx i) s1
  let s3 := (s2.slotsOf p).foldl (fun s k => s.setFs [(Fld.PLM_OWNER_VALID k, 0), (Fld.PLM_OWNER_PART k, 0)]) s2
  let s4 := match s3.bankOf p with
    | some j => s3.setFs [(Fld.PRF_STEP_OWNER_VALID j, 0), (Fld.PRF_STEP_OWNER_PART j, 0)]
    | none => s3
  let s5 := s4.freeSegments (s4.physSegs p)
  let s6 := { s5 with parts := s5.parts.filter fun i => i.part != p, cnd := { s5.cnd with owned := s5.cnd.owned.filter fun e => e.2 != p }
                      mem := { s5.mem with segLost := s5.mem.segLost.filter fun e => e.1 != p } }
  let s7 := s6.setPartState p psFree 1
  (s7.resetRegs (Reg.PRT_STATE p) (Reg.PRT_STATE p + 0x400)).resetRegs (Reg.CND_GEY_RMO p) (Reg.CND_GEY_RMO p + 4)

def execSvcPartDestroy (c : Caller) (p : Nat) (s : State) : Host.Outcome State Fault Refusal :=
  svcCmd 0x0902 true c (fun s =>
    if p = 0 ∨ 64 ≤ p then (s, .invalid 2)
    else if s.destroyLocked p then (s, .state)
    else if s.partState p = psActive then (s.destroyBegin p, .waits (.destroy p))
    else if s.partState p = psResetting then (s, .waits (.destroy p))
    else (s, .state)) s

/-! ## SVC_PART_RESET (R403, R404) -/

def execSvcPartReset (c : Caller) (p : Nat) (s : State) : Host.Outcome State Fault Refusal :=
  svcCmd 0x0903 true c (fun s =>
    if 64 ≤ p then (s, .invalid 2)
    else if p = 0 then ((List.range 144).foldl (fun s n => s.askStop 0 n) s, .waits (.reset 0))
    else if s.partState p = psActive then (s.flrBegin p 1, .waits (.reset p))
    else if s.partState p = psResetting then (s, .waits (.reset p))
    else (s, .state)) s

/-! ## SVC_PART_QUERY -/

/-- The registers of a PRT bank before the array map, in the order of their offsets. -/
def bankRegs (p : Nat) : List Nat :=
  [Reg.PRT_STATE p, Reg.PRT_MODE p, Reg.PRT_BLOCKS p, Reg.PRT_JOB p, Reg.PRT_GEY p, Reg.PRT_LIMITS p, Reg.PRT_EVT p, Reg.PRT_QOS p, Reg.PRT_IRQ p] ++
  ((List.range 8).map fun i => Reg.PRT_PEER p i) ++
  [Reg.PRT_USE_ARRAY p, Reg.PRT_USE_HBM p, Reg.PRT_USE_VENT p, Reg.PRT_USE_CND p, Reg.PRT_USE_LENT p]

def execSvcPartQuery (c : Caller) (p buf : Nat) (s : State) : Host.Outcome State Fault Refusal :=
  svcCmd 0x0904 false c (bankCall c p fun s =>
    let (s1, ws) := s.readWords (bankRegs p ++ (List.range 128).map fun l => Reg.PRT_LMAP p l)
    s1.toBuffer c.part buf 3 (wordBytes ws) []) s

/-! ## SVC_PART_GRANT (R399) -/

/-- The areas of step 5 keep their segments, which become the highest again. -/
def State.shiftAreas (s : State) (p old new : Nat) : State :=
  match s.parts.find? fun i => i.part == p with
  | none => s
  | some i =>
    let mv (a : Nat) : Nat := a + new * gib - old * gib
    let j := { i with evtRing := mv i.evtRing, geyRing := mv i.geyRing, rmoRing := mv i.rmoRing, images := mv i.images }
    let s1 := { s with
      parts := s.parts.map fun (x : PartInfo) => if x.part = p then j else x
      contexts := s.contexts.map fun (x : CtxInfo) => if x.id.part = p then { x with image := mv x.image } else x }
    let s2 := (s1.arraysOf p).foldl (fun s n => s.setF (Fld.ARR_CTX_BASE n) (mv (s.imageOf n) / 4096)) s1
    ([i.evt, i.gey, i.rmo] : List Nat).foldl (fun s c =>
      let x := s.cndGet c
      (s.cndUncache c).cndWriteTable c { x with ring := mv x.ring }) s2

/-- Renumber the segments of a partition from `from'` on, by adding and taking away. -/
def State.renumber (s : State) (p from' plus minus : Nat) : State :=
  (List.range 768).foldl (fun s t =>
    if s.getF (Fld.PRT_SEG_OWNER_GRANTED t) = 1 ∧ s.getF (Fld.PRT_SEG_OWNER_PART t) = p ∧ from' ≤ s.getF (Fld.PRT_SEG_OWNER_RSEG t) then
      s.setF (Fld.PRT_SEG_OWNER_RSEG t) (s.getF (Fld.PRT_SEG_OWNER_RSEG t) + plus - minus)
    else s) s

/-- Partition-relative segments in use by an open conduit ring, an array that runs there, or a plume. -/
def State.segsUsed (s : State) (p lo hi : Nat) : Bool :=
  let inside (a len : Nat) : Bool := overlaps a len (lo * gib) ((hi - lo) * gib)
  ((s.conduitsOf p).any fun c => inside (s.cndGet c).ring (2 ^ (s.cndGet c).log2depth * 64)) ||
  ((s.slotsOf p).any fun k => inside (s.getF (Fld.PLM_DESC_BASE k) * 256) 256) ||
  ((s.arraysOf p).any fun n => !s.arrSettled n && inside (s.arr n).pc 16)

/-- Change HBM_GIB. -/
def State.grantHbm (s : State) (p h : Nat) : State × Option SvcOut :=
  let old := s.getF (Fld.PRT_STATE_HBM_GIB p)
  let a := ((s.parts.find? fun i => i.part == p).map PartInfo.areaSegs).getD 0
  let s0 (s : State) : State := (s.shiftAreas p old h).setF (Fld.PRT_STATE_HBM_GIB p) h
  if h ≤ a ∨ 767 < h then (s, some (.invalid 2))
  else if old < h then
    (if s.grantable.length < h - old then (s, some (.noResource 2))
     else (s0 ((s.renumber p (old - a) (h - old) 0).grantSegs p (old - a) (s.grantable.take (h - old))), none))
  else if s.segsUsed p (h - a) (old - a) then (s, some .state)
  else
    let gone := (List.range (old - h)).filterMap fun i => s.segPhys p (h - a + i)
    (s0 ((s.freeSegments gone).renumber p (old - a) 0 (old - h)), none)

/-- The areas of step 5 need more segments for `l` logical arrays: the highest segments below them join them, zeroed, at their upper end, and
the areas move down.  Refused while one of those segments is in use, or where no other segment would be left. -/
def State.growAreas (s : State) (p l : Nat) : State × Option SvcOut :=
  match s.parts.find? fun i => i.part == p with
  | none => (s, none)
  | some i =>
    let h := s.getF (Fld.PRT_STATE_HBM_GIB p)
    let k := areaSegs l i.evtDepth - i.areaSegs
    if k = 0 then (s, none)
    else if h ≤ i.areaSegs + k then (s, some (.noResource 2))
    else if s.segsUsed p (h - i.areaSegs - k) (h - i.areaSegs) then (s, some .state)
    else
      let moved := (List.range k).filterMap fun j => s.segPhys p (h - i.areaSegs - k + j)
      let s1 := s.renumber p (h - i.areaSegs) 0 k
      let s2 := (moved.zipIdx.foldl (fun s e => s.setF (Fld.PRT_SEG_OWNER_RSEG e.1) (h - k + e.2)) s1).zeroSegs moved
      let s3 := s2.shiftAreas p k 0
      ({ s3 with parts := s3.parts.map fun (x : PartInfo) => if x.part = p then { x with areaSegs := x.areaSegs + k } else x }, none)

/-- Change LARRAYS: new logical arrays are like those the partition has. -/
def State.grantArrays (s : State) (p l : Nat) : State × Option SvcOut :=
  let old := s.getF (Fld.PRT_STATE_LARRAYS p)
  let like := (s.contexts.find? fun c => c.id.part == p).map fun c => (c.ocUnits, c.accCount)
  if l = 0 ∨ 128 < l then (s, some (.invalid 2))
  else if old ≤ l then
    match s.growAreas p l with
    | (_, some e) => (s, some e)
    | (s, none) =>
    let i := s.parts.find? fun i => i.part == p
    (match s.mapArrays p old l (s.aclass p) (like.getD (1, 0)).1 (like.getD (1, 0)).2 ((i.map PartInfo.images).getD 0) with
     | some s1 => (s1.setF (Fld.PRT_STATE_LARRAYS p) l, none)
     | none => (s, some (.noResource 2)))
  else
    let gone := s.contexts.filter fun c => c.id.part == p && decide (l ≤ c.id.larray)
    if gone.any fun c => (s.onArrayNow p c.id.larray).any fun n => !s.arrSettled n then (s, some .state)
    else ((gone.foldl (fun (s : State) c => s.unmapCtx c) s).setF (Fld.PRT_STATE_LARRAYS p) l, none)

/-- Change GEY_COUNT. -/
def State.grantGeysers (s : State) (p n : Nat) : State × Option SvcOut :=
  let base := s.getF (Fld.PRT_GEY_BASE p)
  let old := s.getF (Fld.PRT_GEY_COUNT p)
  if n % 64 ≠ 0 ∨ 65536 < n then (s, some (.invalid 2))
  else if old = 0 then match s.freeGeysers n with
    | some b => ((s.setFs [(Fld.PRT_GEY_BASE p, b), (Fld.PRT_GEY_COUNT p, n)]).resetGeysers p, none)
    | none => (s, some (.noResource 2))
  else if old ≤ n then
    (if 65536 < base + n ∨ (s.geyGrants.any fun e => e.1 != base && overlaps e.1 e.2 base n) then (s, some (.noResource 2))
     else ((s.resetRegs (Reg.GEY_COUNT (base + old)) (Reg.GEY_COUNT (base + n))).setF (Fld.PRT_GEY_COUNT p) n, none))
  else if (List.range (old - n)).any fun i => s.flag (Fld.GEY_ACT0_ARMED (base + n + i)) then (s, some .state)
  else ((s.resetRegs (Reg.GEY_COUNT (base + n)) (Reg.GEY_COUNT (base + old))).setF (Fld.PRT_GEY_COUNT p) n, none)

/-- Perform a change, unless one before it has failed. -/
def grantStep {α : Type} (v : Option α) (f : State → α → State × Option SvcOut) (x : State × Option SvcOut) : State × Option SvcOut :=
  match v, x.2 with
  | some a, none => f x.1 a
  | _, _ => x

/-- SVC_PART_GRANT of an ACTIVE partition: every change, or none. -/
def State.partGrant (s : State) (g : PartGrant) : State × SvcOut :=
  let p := g.part
  let r := grantStep g.hbmGib (fun s h => s.grantHbm p h) (s, none)
  let r := grantStep g.larrays (fun s l => s.grantArrays p l) r
  let r := grantStep g.geyCount (fun s n => s.grantGeysers p n) r
  let r := grantStep g.conduits (fun s n =>
    if n < 3 ∨ 1048576 < n then (s, some (.invalid 2))
    else if n < (s.conduitsOf p).length then (s, some .state) else (s.setF (Fld.PRT_LIMITS_CONDUITS p) n, none)) r
  let r := grantStep g.plumes (fun s n =>
    if 64 < n then (s, some (.invalid 2))
    else if n < (s.slotsOf p).length then (s, some .state) else (s.setF (Fld.PRT_LIMITS_PLUMES p) n, none)) r
  let r := grantStep g.peers (fun s v => (s.setPeers p v, none)) r
  match r.2 with
  | none => (r.1, .ok [])
  | some e => (s, e)

def execSvcPartGrant (c : Caller) (g : PartGrant) (s : State) : Host.Outcome State Fault Refusal :=
  svcCmd 0x0905 true c (fun s =>
    if g.part = 0 ∨ 64 ≤ g.part then (s, .invalid 2)
    else if s.partState g.part = psActive then s.partGrant g
    else if s.partState g.part = psResetting then (s, .waits (.grant g))
    else (s, .state)) s

/-! ## SVC_QOS_SET, SVC_IRQ_SET, SVC_DBL_SET -/

/-- Resources, by bit (array, HBM, vent, conduit engine), whose guaranteed weights exceed 1,000 together (R406). -/
def State.scaledWeights (s : State) : Nat :=
  let sum (cls : Nat → Nat) (f : Nat → FieldRef) : Nat :=
    ((partNumbers.filter fun p => s.partActive p && cls p == 0).map fun p => min 1000 (s.getF (f p))).sum
  let b (p : Nat) : Nat := s.getF (Fld.PRT_STATE_BCLASS p)
  let bit (v n : Nat) : Nat := if 1000 < v then 2 ^ n else 0
  bit (sum s.aclass Fld.PRT_QOS_ARRAY) 0 + bit (sum b Fld.PRT_QOS_HBM) 1 + bit (sum b Fld.PRT_QOS_VENT) 2 + bit (sum b Fld.PRT_QOS_CND) 3

def execSvcQosSet (c : Caller) (p array hbm vent cnd : Nat) (sched : Option (BitVec 32)) (s : State) : Host.Outcome State Fault Refusal :=
  svcCmd 0x0906 true c (fun s =>
    if 64 ≤ p ∨ !s.partActive p then (s, .invalid 2)
    else if 1000 < array then (s, .invalid 3)
    else if 1000 < hbm then (s, .invalid 4)
    else if 1000 < vent then (s, .invalid 5)
    else if 1000 < cnd then (s, .invalid 6)
    else if sched.isSome && s.locked Reg.PRT_SCHED then (s, .state)
    else
      let s1 := s.setFs [(Fld.PRT_QOS_ARRAY p, array), (Fld.PRT_QOS_HBM p, hbm), (Fld.PRT_QOS_VENT p, vent), (Fld.PRT_QOS_CND p, cnd)]
      let s2 := match sched with
        | some v => (s1.svcWrites [(Reg.PRT_SCHED, v.setWidth 64)] []).1
        | none => s1
      (s2, .ok [w s2.scaledWeights])) s

def execSvcIrqSet (c : Caller) (maxCount maxDelay vector : Nat) (s : State) : Host.Outcome State Fault Refusal :=
  svcCmd 0x0907 false c (fun s =>
    let p := c.part
    if 256 ≤ maxCount then (s, .invalid 2)
    else if 65536 ≤ maxDelay then (s, .invalid 3)
    else if 2048 ≤ vector then (s, .invalid 4)
    else (s.setFs [(Fld.PRT_IRQ_MAX_COUNT p, maxCount), (Fld.PRT_IRQ_MAX_DELAY p, maxDelay), (Fld.DBL_CFG_VECTOR p, vector)], .ok [])) s

def execSvcDblSet (c : Caller) (mask clear : BitVec 32) (s : State) : Host.Outcome State Fault Refusal :=
  svcCmd 0x090D false c (fun s =>
    let p := c.part
    let s1 := (List.range 32).foldl (fun s b => if clear.getLsbD b then s.clearDoorbell p b else s) s
    (s1.maskWrite p (mask.setWidth 64), .ok [])) s

/-! ## The group (R391, R392) -/

/-- The bytes of a device-table entry (Table 12.4). -/
def DevEntry.toBytes (e : DevEntry) : List Byte :=
  toLe 1 e.dev ++ toLe 1 e.role ++ toLe 1 e.state ++ toLe 1 e.level ++ toLe 2 e.fdom ++ toLe 2 1 ++ toLe 4 e.boot ++ toLe 4 e.caps ++
  padTo 16 e.identity ++ toLe 8 e.mac ++ toLe 8 e.tSeen ++ List.replicate 16 0
def State.devTableBytes (s : State) : List Byte :=
  (List.range 256).flatMap fun d => match s.devTable.find? fun e => e.dev == d with
    | some e => e.toBytes
    | none => List.replicate 64 0

/-- The path entries to a member, with what the group record leaves to firmware (DESIGN CHOICE): jumbo frames, ECN, the largest window
and the port of CND_ZRT_CFG. -/
def State.memberPaths (s : State) (m : Member) : List PathEntry :=
  m.paths.map fun p => { vent := p.1, rvent := p.2.1, ipv6 := !(p.2.2.take 12).all (· == 0), jumbo := true, ecn := true, window := 1024,
                         port := s.getF Fld.CND_ZRT_CFG_PORT, ip := p.2.2 }

/-- A group record is applied, as SVC_DEVICE_SET would (R391). -/
def State.applyRecord (s : State) (g : GroupRecord) : State :=
  let (s1, _) := s.deviceSet g.dev g.rack
  { s1 with host := { s1.host with headDev := some g.head } }

/-- A group record asks for a device number or rack code other than the one that a locked TOP block holds (R7). -/
def State.recordBarred (s : State) (g : GroupRecord) : Bool :=
  s.locked Reg.TOP_DEVNUM &&
  !(s.flag Fld.TOP_DEVNUM_VALID && s.getF Fld.TOP_DEVNUM_DEVNUM == g.dev % 256 && s.getF Fld.TOP_FDOM_RACK == g.rack % 4096)

/-- SVC_GROUP_SET on the head. -/
def State.groupSet (s : State) (l : List Member) : State × SvcOut :=
  let devs := l.map fun m => m.record.dev
  if !s.flag Fld.PCI_CFG_HEAD then (s, .state)
  else if !(l.all fun m => decide (m.record.dev < 256) && decide (m.role ≤ 3) && ((s.memberPaths m).all entryShape)) || !decide devs.Nodup then
    (s, .invalid 2)
  else if l.any fun m => m.role == 1 && s.recordBarred m.record then (s, .state)
  else
    let own := l.filter fun m => m.role == 1
    let s1 := match own with
      | m :: _ => ({ s with fw := { s.fw with group := some m.record } }).applyRecord m.record
      | [] => s
    let others := l.filter fun m => m.record.dev != s1.ownDev
    let s2 := others.foldl (fun (s : State) m => (s.memberPaths m).foldl (fun s e => s.putEntry m.record.dev e) s) s1
    let entry (m : Member) : DevEntry :=
      let mine := m.record.dev == s2.ownDev
      { dev := m.record.dev, role := m.role, state := if mine then 1 else 0, level := if mine then s2.level else 0, fdom := m.fdom
        boot := if mine then s2.getF Fld.CND_ZRT_BOOT_BOOT_ID else 0, caps := if mine then (s2.reg Reg.TOP_CAPS).toNat else 0
        identity := m.identity, mac := m.mac, tSeen := s2.time }
    let s3 := { s2 with
      devTable := l.map entry
      fw := { s2.fw with groupOut := s2.fw.groupOut ++ others.map fun (m : Member) => (m.record.dev, m.record) } }
    (s3.setPeers 0 ((others.map fun (m : Member) => 2 ^ m.record.dev).sum), .ok [])

def execSvcGroupSet (c : Caller) (l : List Member) (s : State) : Host.Outcome State Fault Refusal :=
  svcCmd 0x0908 true c (fun s => s.groupSet l) s

def execSvcGroupQuery (c : Caller) (buf : Nat) (s : State) : Host.Outcome State Fault Refusal :=
  svcCmd 0x0909 false c (fun s => s.toBuffer c.part buf 2 s.devTableBytes []) s

/-! ## Usage (R409) -/

/-- SVC_PERF_SET: the caller's counters restart at 0; with a buffer and a period in ms, they are copied there every period. -/
def execSvcPerfSet (c : Caller) (copy : Option (Nat × Nat)) (s : State) : Host.Outcome State Fault Refusal :=
  svcCmd 0x090B false c (fun s =>
    let p := c.part
    let s1 := { s with acc := { s.acc with perf := s.acc.perf.filter fun x => x.part != p } }
    match copy with
    | none => (s1.resetUse p, .ok [])
    | some (a, ms) =>
      if ms = 0 ∨ 65000 < ms then (s, .invalid 3)
      else if a % 8 ≠ 0 ∨ !s.bufOk p a 40 then (s, .invalid 2)
      else
        let s2 := s1.resetUse p
        ({ s2 with acc := { s2.acc with perf := s2.acc.perf ++ [⟨p, a, ms * 1000000, s2.time + ms * 1000000⟩] } }, .ok [])) s

def execSvcPerfQuery (c : Caller) (p : Nat) (s : State) : Host.Outcome State Fault Refusal :=
  svcCmd 0x090C false c (bankCall c p fun s =>
    (s, .ok ((((s.reg2 (Reg.PRT_USE_ARRAY p) ++ s.reg2 (Reg.PRT_USE_HBM p)) ++ s.reg2 (Reg.PRT_USE_VENT p)) ++ s.reg2 (Reg.PRT_USE_CND p)) ++
      s.reg2 (Reg.PRT_USE_LENT p)))) s

end Sys2Proof.Machine
end

