-- ==== Sys2Proof/Machine/Secrecy.lean ====
section
/-! DEFINITION. Secrecy: the lifecycle and its signed commands, identity and attestation, sessions, tenant keys, sealing, and the
calls of area 0xA (R422 to R455). -/
namespace Sys2Proof.Machine

/-! ## Signed commands (R423, R429) -/

/-- The DeviceID digest of the device: DeviceID changes with the lifecycle fuses, and OWNED is PROVISIONED with an owner record. -/
def State.deviceDigest (s : State) : Nat := Config.deviceId (if s.lifecycle = lcOwned then lcProvisioned else s.lifecycle)

/-- SEC_AUTH_FAILED. -/
def State.authFailed (s : State) (p why : Nat) : State := s.raise srcSinter p clsOperation 0xA004 0 [w why]

/-- The first check that a signed command fails: signature, nonce, device. -/
def State.signedFault (s : State) (x : Signed) (who : Signer) : Option Nat :=
  if x.signer ≠ who then some 1
  else if !s.sec.nonces.contains x.nonce then some 2
  else if x.device ≠ s.deviceDigest then some 3
  else none

/-- A signed command is checked: its nonce is used up, and a failure raises SEC_AUTH_FAILED. -/
def State.checkSigned (s : State) (p : Nat) (x : Signed) (who : Signer) : State × Bool :=
  let s1 := { s with sec := { s.sec with nonces := s.sec.nonces.filter fun n => n != x.nonce } }
  match s.signedFault x who with
  | some k => (s1.authFailed p k, false)
  | none => (s1, true)

/-- The caller is in a session whose requester the owner key authenticated (R423). -/
def State.ownerSession (s : State) (c : Caller) : Bool := c.session && (s.callSession c.part).any Session.owner

/-- A command of the owner: signed, or where `inSession` allows it in an owner session. -/
def State.ownerOk (s : State) (c : Caller) (sig : Option Signed) (inSession : Bool) : State × Bool :=
  match sig with
  | some x => s.checkSigned c.part x .owner
  | none => (s, inSession && s.ownerSession c)

/-- A command that comes in a lifecycle state that does not allow it. -/
def State.wrongState (s : State) (p : Nat) : State × SvcOut := (s.authFailed p 4, .state)

/-! ## Lifecycle (R428 to R431) -/

/-- Ownerships taken. -/
def State.transfers (s : State) : Nat := if s.flag Fld.SEC_LIFECYCLE_LAST then 32 else s.getF Fld.SEC_LIFECYCLE_TRANSFERS
/-- The lifecycle state changes, with SEC_LIFECYCLE. -/
def State.setLifecycle (s : State) (new : Nat) : State :=
  let old := s.lifecycle
  (s.setF Fld.SEC_LIFECYCLE_STATE new).raise srcSinter wholeDevice clsInfo 0xA001 0 [w old, w new, w s.transfers]

/-- DECOMMISSIONED offers no more than MINIMAL, for a REASON that no code of TOP_SERVICE names. -/
def State.lifecycleLevel (s : State) : State :=
  if s.lifecycle = lcDecommissioned ∧ lvMinimal < s.level then
    let (x, s1) := s.draw
    s1.setLevel lvMinimal (x.toNat % 256)
  else s

/-- A cartridge is sanitized and BLANK (R430, R503). -/
def State.crtBlank (s : State) (keep : Bool) : State :=
  match s.crt.drive with
  | none => s
  | some d =>
    if s.crtState < crBlank ∨ s.crtState = crFaulty then s
    else
      let (x, s0) := s.draw
      let s1 := (s0.setF Fld.CRT_STATUS_STATE s.crtState).crtLeave crBlank x.toNat
      let s2 := { s1 with
        crt := { s1.crt with drive := some { d with label := none, images := [] }, ejected := false }
        log := { s1.log with
          blocks := s1.log.blocks.map fun (b : LogBlock) => LogBlock.mk b.first b.last false b.acked
          mirrored := []
          kept := if keep then s1.log.kept.filter fun k => k.scope == 2 else [] } }
      (s2.setFs [(Fld.CRT_BIND_ORIGIN, 0), (Fld.CRT_BIND_BINDS, 0)]).crtSync

/-- A cartridge whose erase begins is ERASING (Table 15.5). -/
def State.crtErasing (s : State) : State :=
  if s.crt.drive.isNone || decide (s.crtState < crBlank) || s.crtState == crFaulty then s
  else
    let (x, s0) := s.draw
    s0.crtLeave crErasing x.toNat

/-- Steps 1 and 2 of the release erase: RELEASING is set and every partition but 0 is being destroyed (R430). -/
def State.eraseBegin (s : State) (next : Nat) : State :=
  let s1 := ({ s with sec := { s.sec with erase := some next } }).setF Fld.SEC_LIFECYCLE_RELEASING 1
  (partNumbers.filter fun p => p != 0 && s1.partActive p).foldl (fun s p => s.destroyBegin p) s1.crtErasing
/-- Every partition but 0 is gone. -/
def State.allFree (s : State) : Bool := partNumbers.all fun p => p == 0 || s.partState p == psFree

/-- Steps 3 to 6: memory under a new device key set, keys and the group record, the cartridge, and the owner record last; then the
fuse step of the transition. -/
def State.eraseEnd (s : State) (next : Nat) : State :=
  let s1 := { s with
    mem := { s.mem with hbm := [], poison := [], badTag := [] }
    sec := { s.sec with keyGen := Sparse.set natDefault s.sec.keyGen 255 (Sparse.get natDefault s.sec.keyGen 255 + 1), groupKey := none, ide := [] }
    eth := { s.eth with vents := s.eth.vents.map fun (e : Nat × Vent) => (e.1, { e.2 with sec := [], cak := false, mka := false }) }
    fw := { s.fw with group := none } }
  let s2 := ((List.range 16).foldl (fun s v => s.setF (Fld.VNT_SEC_STATUS_PORTS v) 0) s1).crtBlank false
  let s3 := ({ s2 with log := { s2.log with records := [], blocks := [], unmirrored := none } })
  let s4 := ({ s3 with sec := { s3.sec with owner := none, erase := none } }).setFs
    [(Fld.SEC_OWNER_VALID, 0), (Fld.SEC_OWNER_DIGEST, 0), (Fld.FW_POLICY_REQUIRE_APPROVAL, 0), (Fld.FW_POLICY_MIN_VERSION, 0),
     (Fld.SEC_LIFECYCLE_RELEASING, 0)]
  (s4.setLifecycle next).lifecycleLevel.crtRelabel

/-- SVC_SEC_OWN (R429, R431): the voucher is checked, a TRANSFERS fuse is blown, and the owner record is written. -/
def State.secOwn (s : State) (p : Nat) (v : Voucher) : State × SvcOut :=
  if s.lifecycle ≠ lcProvisioned then s.wrongState p
  else if s.transfers = 32 then (s, .state)
  else if !v.mehrop || v.names != v.owner then (s.authFailed p 1, .denied)
  else if v.device ≠ s.deviceDigest then (s.authFailed p 3, .denied)
  else
    let t := s.transfers + 1
    let s1 := s.setFs [(Fld.SEC_LIFECYCLE_TRANSFERS, min t 31), (Fld.SEC_LIFECYCLE_LAST, if t = 32 then 1 else 0),
      (Fld.SEC_OWNER_VALID, 1), (Fld.SEC_OWNER_DIGEST, v.owner % 2 ^ 63)]
    (({ s1 with sec := { s1.sec with owner := some v.owner } }).setLifecycle lcOwned, .ok [])

def execSvcSecOwn (c : Caller) (v : Voucher) (s : State) : Host.Outcome State Fault Refusal :=
  svcCmd 0x0A03 true c (fun s => s.secOwn c.part v) s

/-- A release erase begins, and the call waits for its end. -/
def State.secErase (s : State) (next : Nat) : State × SvcOut :=
  if s.sec.erase.isSome then (s, .state) else (s.eraseBegin next, .waits (.erase next))

/-- SVC_SEC_RELEASE (R429, R430). -/
def State.secRelease (s : State) (c : Caller) (sig : Signed) : State × SvcOut :=
  if s.lifecycle ≠ lcOwned then s.wrongState c.part
  else match s.ownerOk c (some sig) false with
    | (s1, false) => (s1, .denied)
    | (s1, true) => s1.secErase lcProvisioned

def execSvcSecRelease (c : Caller) (sig : Signed) (s : State) : Host.Outcome State Fault Refusal :=
  svcCmd 0x0A04 true c (fun s => s.secRelease c sig) s

/-- The signatures that a transition to DEBUG_RETURNED or DECOMMISSIONED needs (Table 13.5): the owner's, Mehrop's. -/
def needsSig (state target : Nat) : Option (Bool × Bool) :=
  if target = lcReturned then
    if state = lcOwned then some (true, true) else if state = lcProvisioned then some (false, true) else none
  else if state = lcDecommissioned then none
  else if state = lcOwned then some (true, false) else some (false, true)

/-- One of the signatures of a transition. -/
def State.needSig (s : State) (p : Nat) (need : Bool) (sig : Option Signed) (who : Signer) : State × Bool :=
  if !need then (s, true)
  else match sig with
    | some x => s.checkSigned p x who
    | none => (s.authFailed p 1, false)

/-- SVC_SEC_LIFECYCLE (R429): to DEBUG_RETURNED (3) or DECOMMISSIONED (4). -/
def State.secLifecycle (s : State) (p target : Nat) (owner mehrop : Option Signed) : State × SvcOut :=
  if target ≠ lcReturned ∧ target ≠ lcDecommissioned then (s, .invalid 2)
  else match needsSig s.lifecycle target with
    | none => s.wrongState p
    | some n =>
      match s.needSig p n.1 owner .owner with
      | (s1, false) => (s1, .denied)
      | (s1, true) => match s1.needSig p n.2 mehrop .mehrop with
        | (s2, false) => (s2, .denied)
        | (s2, true) => if s2.lifecycle = lcOwned then s2.secErase target else ((s2.setLifecycle target).lifecycleLevel, .ok [])

def execSvcSecLifecycle (c : Caller) (target : Nat) (owner mehrop : Option Signed) (s : State) : Host.Outcome State Fault Refusal :=
  svcCmd 0x0A05 true c (fun s => s.secLifecycle c.part target owner mehrop) s

/-! ## Other calls of the owner (R432, R444) -/

/-- SVC_SEC_GROUP_KEY: the group storage key is installed; a cartridge whose state rests on its label is judged again. -/
def State.secGroupKey (s : State) (c : Caller) (sig : Option Signed) (key : Nat) : State × SvcOut :=
  if !s.isOwned then s.wrongState c.part
  else match s.ownerOk c sig true with
    | (s1, false) => (s1, .denied)
    | (s1, true) => (({ s1 with sec := { s1.sec with groupKey := some key } }).crtRelabel, .ok [])

def execSvcSecGroupKey (c : Caller) (sig : Option Signed) (key : Nat) (s : State) : Host.Outcome State Fault Refusal :=
  svcCmd 0x0A06 true c (fun s => s.secGroupKey c sig key) s

/-- SVC_SEC_CAK_SET: a MACsec CAK for the named vents. -/
def State.secCakSet (s : State) (c : Caller) (sig : Option Signed) (vs : List Nat) : State × SvcOut :=
  if !s.isOwned then s.wrongState c.part
  else if vs.any fun v => decide (16 ≤ v) then (s, .invalid 2)
  else match s.ownerOk c sig true with
    | (s1, false) => (s1, .denied)
    | (s1, true) => (vs.foldl (fun s v => s.modVent v fun (x : Vent) => { x with cak := true }) s1, .ok [])

def execSvcSecCakSet (c : Caller) (sig : Option Signed) (vs : List Nat) (s : State) : Host.Outcome State Fault Refusal :=
  svcCmd 0x0A07 true c (fun s => s.secCakSet c sig vs) s

/-! ## Seal records and policies -/

/-- The bytes of a seal record; their order is not given (DESIGN CHOICE): measurement, then the policy's fields as in Table 13.8. -/
def SealRecord.toBytes (r : SealRecord) : List Byte :=
  let b (x : Bool) : Nat := if x then 1 else 0
  r.measure ++ toLe 2 r.policy.textFirst ++ toLe 2 r.policy.textCount ++ toLe 1 r.policy.aperture ++ toLe 1 (b r.policy.netExpose) ++
  toLe 1 (b r.policy.migrate)
def State.sealOf (s : State) (p : Nat) : Option SealRecord := s.sec.seals.find? fun r => r.part == p
def State.keyOf (s : State) (p slot : Nat) : Option PartKey := s.sec.keys.find? fun k => k.part == p && k.slot == slot
/-- Key slots in use: bits 0 to 7, and bit 8 for STORAGE. -/
def State.slotMask (s : State) (p : Nat) : Nat := ((List.range 9).map fun i => if (s.keyOf p i).isSome then 2 ^ i else 0).sum

/-- The registers of the SEC block. -/
def secRegs : List Nat :=
  [Reg.SEC_LIFECYCLE, Reg.SEC_OWNER, Reg.SEC_DEBUG, Reg.SEC_SEAL0, Reg.SEC_SEAL1, Reg.SEC_CONSENT0, Reg.SEC_CONSENT1, Reg.SEC_INTEGRITY,
   Reg.SEC_SESSIONS, Reg.SEC_LOCK]

/-- SVC_SEC_QUERY: the SEC registers, the digest of the caller's seal record or zero, and its key slots, into a buffer. -/
def State.secQuery (s : State) (p buf : Nat) : State × SvcOut :=
  let s0 := match regFind Reg.SEC_CONSENT0 with
    | some d => s.setReg Reg.SEC_CONSENT0 (s.regShow .sinter d Reg.SEC_CONSENT0)
    | none => s
  let (s1, ws) := s0.readWords secRegs
  let dig := match s.sealOf p with
    | some r => Config.sha384 r.toBytes
    | none => List.replicate 48 0
  s1.toBuffer p buf 2 (wordBytes ws ++ dig ++ toLe 4 (s.slotMask p)) []

def execSvcSecQuery (c : Caller) (buf : Nat) (s : State) : Host.Outcome State Fault Refusal :=
  svcCmd 0x0A01 false c (fun s => s.secQuery c.part buf) s

/-- A fresh nonce: two draws of the sinter's generator. -/
def State.freshNonce (s : State) : Nat × State :=
  let (a, s1) := s.draw
  let (b, s2) := s1.draw
  let n := a.toNat + 2 ^ 64 * b.toNat
  (n, { s2 with sec := { s2.sec with nonces := s2.sec.nonces ++ [n] } })

/-- SVC_SEC_NONCE. -/
def execSvcSecNonce (c : Caller) (s : State) : Host.Outcome State Fault Refusal :=
  svcCmd 0x0A02 false c (fun s =>
    let (n, s1) := s.freshNonce
    (s1, .ok (w2 (BitVec.ofNat 64 n) ++ w2 (BitVec.ofNat 64 (n / 2 ^ 64))))) s

/-! ## Import and export (R438) -/

/-- AES-256-GCM of bytes: the key stream is added to them. -/
def gcmText (key nonce : List Byte) (l : List Byte) : List Byte := l.zipIdx.map fun e => e.1 ^^^ Config.gcmStream key nonce e.2

/-- The ranges of an import or export: inside the caller's memory, and the destination clear of sealed text. -/
def State.cryptFault (s : State) (p slot src dst len : Nat) : Option SvcOut :=
  if 8 ≤ slot then some (.invalid 2)
  else if !s.bufOk p src len then some (.invalid 3)
  else if !s.bufOk p dst len then some (.invalid 4)
  else if s.textHit p dst len then some .denied
  else if (s.keyOf p slot).isNone then some .state
  else none

/-- SVC_SEC_IMPORT. -/
def State.secImport (s : State) (p slot src dst len : Nat) (nonce aad tag : List Byte) : State × SvcOut :=
  match s.cryptFault p slot src dst len, s.keyOf p slot with
  | some r, _ => (s, r)
  | none, some k => (s, .waits (.crypt true dst src len k.key nonce aad tag))
  | none, none => (s, .state)

def execSvcSecImport (c : Caller) (slot src dst len : Nat) (nonce aad tag : List Byte) (s : State) : Host.Outcome State Fault Refusal :=
  svcCmd 0x0A08 false c (fun s => s.secImport c.part slot src dst len nonce aad tag) s

/-- The 12-byte nonce of an export: the slot's counter. -/
def counterNonce (n : Nat) : List Byte := (toLe 12 n).reverse

/-- SVC_SEC_EXPORT: the counter is increased for every export and never used again. -/
def State.secExport (s : State) (p slot src dst len : Nat) (aad : List Byte) : State × SvcOut :=
  match s.cryptFault p slot src dst len, s.keyOf p slot with
  | some r, _ => (s, r)
  | none, some k =>
    if k.counter + 1 = 2 ^ 96 then (s, .state)
    else
      let s1 := { s with sec := { s.sec with keys := s.sec.keys.map fun (x : PartKey) =>
        if x.part = p ∧ x.slot = slot then { x with counter := k.counter + 1 } else x } }
      (s1, .waits (.crypt false dst src len k.key (counterNonce (k.counter + 1)) aad []))
  | none, none => (s, .state)

def execSvcSecExport (c : Caller) (slot src dst len : Nat) (aad : List Byte) (s : State) : Host.Outcome State Fault Refusal :=
  svcCmd 0x0A09 false c (fun s => s.secExport c.part slot src dst len aad) s

/-- An import or export runs to its end: the status and the result words. -/
def State.cryptEnd (s : State) (p : Nat) (imp : Bool) (dst src len : Nat) (key nonce aad tag : List Byte) : State × Nat × List Word32 :=
  let x := s.hbmRead p src len
  if imp then
    if Config.gcmTag key nonce aad x = tag then (s.hbmWrite p dst (gcmText key nonce x), svOk, [])
    else ((s.hbmWrite p dst (List.replicate len 0)).authFailed p 5, svDenied, [])
  else
    let y := gcmText key nonce x
    let t := Config.gcmTag key nonce aad y
    let words (l : List Byte) (k : Nat) : List Word32 := (List.range k).map fun i => BitVec.ofNat 32 (ofLe ((l.drop (4 * i)).take 4))
    (s.hbmWrite p dst y, svOk, words nonce 3 ++ words t 4)

/-- An import or export is aborted: its destination is undefined. -/
def State.cryptAbort (s : State) (p dst len : Nat) : State :=
  let (l, s1) := s.drawBytes len
  s1.hbmWrite p dst l

/-! ## Debug tokens (R446, R447) -/

/-- SVC_SEC_DEBUG_ARM. -/
def State.debugArm (s : State) (p : Nat) (t : Token) : State × SvcOut :=
  if t.format ≠ 1 ∨ t.uses = 0 ∨ 65535 < t.uses ∨ 8 ≤ t.scope ∨ (t.kind ≠ 1 ∧ t.kind ≠ 2) then (s, .invalid 2)
  else if s.sec.token.isSome then (s, .state)
  else if (t.kind = 1 ∧ s.lifecycle ≠ lcOwned) ∨ s.lifecycle = lcDecommissioned then s.wrongState p
  else match s.checkSigned p t.sig (if t.kind = 1 then .owner else .mehrop) with
    | (s1, false) => (s1, .denied)
    | (s1, true) =>
      let s2 := ({ s1 with sec := { s1.sec with token := some t } }).setFs [(Fld.SEC_DEBUG_ARMED, 1), (Fld.SEC_DEBUG_EVER, 1),
        (Fld.SEC_DEBUG_KIND, t.kind), (Fld.SEC_DEBUG_SCOPE, t.scope), (Fld.SEC_DEBUG_USES, t.uses), (Fld.SEC_CONSENT1_EXPLICIT, 0)]
      (s2.raise srcSinter wholeDevice clsInfo 0xA006 0 [w t.kind, w t.scope, w t.uses], .ok [])

def execSvcSecDebugArm (c : Caller) (t : Token) (s : State) : Host.Outcome State Fault Refusal :=
  svcCmd 0x0A0A true c (fun s => s.debugArm c.part t) s

/-- SVC_SEC_DEBUG_DISARM. -/
def execSvcSecDebugDisarm (c : Caller) (s : State) : Host.Outcome State Fault Refusal :=
  svcCmd 0x0A0B true c (fun s => (s.disarm, .ok [])) s

/-! ## SPDM (R433 to R436)

Error codes of SPDM 1.3 that the manual names: 0x01 InvalidRequest, 0x03 Busy (PRESUMED from the standard).  Any other refusal carries a
code that the manual leaves open. -/

def spdmInvalid : Nat := 0x01
def spdmBusy : Nat := 0x03

/-- The sinter answers a partition's requester. -/
def State.spdmSay (s : State) (p : Nat) (r : SpdmReply) : State := { s with sec := { s.sec with replies := s.sec.replies ++ [(p, r)] } }
def State.spdmRefuse (s : State) (p : Nat) : State :=
  let (x, s1) := s.draw
  s1.spdmSay p (.error (x.toNat % 256))

/-- SPDM messages reach the sinter from an active function, once it serves (R433, R473); it works at MINIMAL and in recovery mode. -/
def State.spdmServes (s : State) (p : Nat) : Bool := s.level != lvStarting && !s.pow.warm && s.partActive p
def spdmCmd (p : Nat) (f : State → State) (s : State) : Host.Outcome State Fault Refusal := live s <|
  if 64 ≤ p then .fault (.noSuchUnit p) else if s.spdmServes p then .next (f s) else .next s
/-- A decommissioned device attests to nothing (Table 13.4). -/
def attests (p : Nat) (f : State → State) (s : State) : State := if s.lifecycle = lcDecommissioned then s.spdmRefuse p else f s
/-- A request inside an established session bound to the partition. -/
def State.session (s : State) (p id : Nat) : Option Session := s.sec.sessions.find? fun x => x.id == id && x.part == p
def inSession (p id : Nat) (f : State → State) (s : State) : State :=
  match s.session p id with
  | some x => if x.established then f s else s.spdmRefuse p
  | none => s.spdmRefuse p

def execGetVersion (p : Nat) (s : State) : Host.Outcome State Fault Refusal := spdmCmd p (fun s => s.spdmSay p .version) s
def execGetCapabilities (p : Nat) (s : State) : Host.Outcome State Fault Refusal := spdmCmd p (fun s => s.spdmSay p .capabilities) s
def execNegotiateAlgorithms (p : Nat) (s : State) : Host.Outcome State Fault Refusal := spdmCmd p (fun s => s.spdmSay p .algorithms) s
def execGetDigests (p : Nat) (s : State) : Host.Outcome State Fault Refusal := spdmCmd p (attests p fun s => s.spdmSay p .digests) s
/-- GET_CERTIFICATE: slot 0 alone holds a chain. -/
def execGetCertificate (p slot : Nat) (s : State) : Host.Outcome State Fault Refusal :=
  spdmCmd p (attests p fun s => if slot = 0 then s.spdmSay p (.certificate 0) else s.spdmRefuse p) s
/-- CHALLENGE: a signature under the attestation key. -/
def execChallenge (p slot : Nat) (s : State) : Host.Outcome State Fault Refusal :=
  spdmCmd p (attests p fun s => if slot ≠ 0 then s.spdmRefuse p else
    let (x, s1) := s.draw
    s1.spdmSay p (.challengeAuth x)) s

/-- The image in the slot in use (R492). -/
def State.runningImage (s : State) : FwImage := (s.slotImage (s.getF Fld.FW_STATUS_BOOTED)).getD FwImage.shipped

/-- A measurement block (Table 13.7); the order of fields in blocks 4 to 8 is not given (DESIGN CHOICE). -/
def State.measureBlock (s : State) (sessionPart : Option Nat) (i : Nat) : List Byte :=
  let b (x : Bool) : Nat := if x then 1 else 0
  match i with
  | 1 => Config.measureRom
  | 2 => Config.measureSinter s.runningImage.digest
  | 3 => Config.measureFumarole s.runningImage.digest
  | 4 => toLe 4 s.runningImage.version ++ Config.measureConfiguration
  | 5 => toLe 1 s.lifecycle ++ toLe 48 (s.sec.owner.getD 0) ++ toLe 1 s.transfers
  | 6 => toLe 1 (b (s.flag Fld.SEC_DEBUG_EVER)) ++ toLe 8 s.sec.capturesMade ++ toLe 48 ((s.sec.token.map Token.digest).getD 0)
  | 7 => match sessionPart.bind s.sealOf with
    | some r => r.toBytes
    | none => List.replicate 55 0
  | _ => toLe 1 s.ownDev ++ toLe 4 s.groupTag ++ match s.sec.groupKey with
    | some k => Config.sha384 (toLe 32 k)
    | none => List.replicate 48 0

/-- GET_MEASUREMENTS: one block by its index, or all of them (0xFF), signed with the attestation key. -/
def State.measurements (s : State) (p : Nat) (id : Option Nat) (index : Nat) : State :=
  let x := id.bind fun i => s.session p i
  if id.isSome && !x.any Session.established then s.spdmRefuse p
  else if index = 0 ∨ (8 < index ∧ index ≠ 0xFF) then s.spdmRefuse p
  else
    let l := if index = 0xFF then (List.range 8).map (· + 1) else [index]
    let (g, s1) := s.draw
    s1.spdmSay p (.measurements (l.map fun i => (i, s.measureBlock (x.map Session.part) i)) g)
def execGetMeasurements (p : Nat) (id : Option Nat) (index : Nat) (s : State) : Host.Outcome State Fault Refusal :=
  spdmCmd p (attests p fun s => s.measurements p id index) s

/-- SEC_SESSIONS and SEC_SESSION follow the sessions. -/
def State.sessionEvent (s : State) (p how : Nat) : State :=
  (s.setF Fld.SEC_SESSIONS_OPEN s.sec.sessions.length).raise srcSinter p clsInfo 0xA002 0 [w p, w how, w s.sec.sessions.length]

/-- KEY_EXCHANGE: a session bound to the function's partition, or Busy beyond 16. -/
def State.keyExchange (s : State) (p : Nat) : State :=
  if 16 ≤ s.sec.sessions.length then s.spdmSay p (.error spdmBusy)
  else
    let id := s.sec.nextSession
    let s1 := { s with sec := { s.sec with sessions := s.sec.sessions ++ [Session.mk id p false false], nextSession := id + 1 } }
    (s1.sessionEvent p 1).spdmSay p (.keyExchange id)
def execKeyExchange (p : Nat) (s : State) : Host.Outcome State Fault Refusal := spdmCmd p (attests p fun s => s.keyExchange p) s

/-- FINISH: a session is established; through the PF of an owned device the owner key may have authenticated its requester. -/
def State.spdmFinish (s : State) (p id : Nat) (valid owner : Bool) : State :=
  match s.session p id with
  | none => s.spdmRefuse p
  | some x =>
    if x.established || !valid then s.spdmRefuse p
    else
      let y : Session := { x with established := true, owner := owner && p == 0 && s.isOwned }
      ({ s with sec := { s.sec with sessions := s.sec.sessions.map fun (z : Session) => if z.id = id then y else z } }).spdmSay p (.finish id)
def execFinish (p id : Nat) (valid owner : Bool) (s : State) : Host.Outcome State Fault Refusal :=
  spdmCmd p (fun s => s.spdmFinish p id valid owner) s

def execHeartbeat (p id : Nat) (s : State) : Host.Outcome State Fault Refusal := spdmCmd p (inSession p id fun s => s.spdmSay p (.heartbeat id)) s
def execKeyUpdate (p id : Nat) (s : State) : Host.Outcome State Fault Refusal := spdmCmd p (inSession p id fun s => s.spdmSay p (.keyUpdate id)) s

/-- END_SESSION. -/
def execEndSession (p id : Nat) (s : State) : Host.Outcome State Fault Refusal :=
  spdmCmd p (inSession p id fun s =>
    (({ s with sec := { s.sec with sessions := s.sec.sessions.filter fun x => x.id != id } }).sessionEvent p 2).spdmSay p (.endSession id)) s

/-- SPDM_FRAGMENT (R436): a message of channel 128 + p; one that breaks the order, or grows beyond 64 KiB, discards what is being
assembled. -/
def State.spdmFragment (s : State) (p n : Nat) (first last : Bool) (data : List Byte) : State :=
  let cur := s.sec.assembling.find? fun x => x.part == p
  let rest := s.sec.assembling.filter fun x => x.part != p
  let s1 := { s with sec := { s.sec with assembling := rest } }
  let body := ((cur.map SpdmPartial.bytes).getD []) ++ data.take n
  if n = 0 ∨ 52 < n ∨ data.length < n ∨ first = cur.isSome ∨ 65536 < body.length then s1.spdmSay p (.error spdmInvalid)
  else if last then { s1 with sec := { s1.sec with received := s1.sec.received ++ [(p, body)] } }
  else { s1 with sec := { s1.sec with assembling := rest ++ [⟨p, body⟩] } }
def execSpdmFragment (p n : Nat) (first last : Bool) (data : List Byte) (s : State) : Host.Outcome State Fault Refusal :=
  spdmCmd p (fun s => s.spdmFragment p n first last data) s

/-- IDE_KM (R443): keys of the link stream (0) or of a selective stream (1 to 8), which may be limited to one function. -/
def State.ideKm (s : State) (p id stream : Nat) (limit : Option Nat) : State :=
  if 8 < stream then s.spdmRefuse p
  else
    let e := (stream, (if p = 0 then limit.getD wholeDevice else p), p != 0)
    ({ s with sec := { s.sec with ide := (s.sec.ide.filter fun (x : Nat × Nat × Bool) => x.1 != stream) ++ [e] } }).spdmSay p (.vendor id)
def execIdeKm (p id stream : Nat) (limit : Option Nat) (s : State) : Host.Outcome State Fault Refusal :=
  spdmCmd p (inSession p id fun s => s.ideKm p id stream limit) s

/-! ## Tenant commands (R425, R437, R447, Table 13.8) -/

/-- A vendor-defined command of a tenant: inside its session, on an owned device, and not of partition 0. -/
def tenantCmd (p id : Nat) (f : State → Option State) (s : State) : Host.Outcome State Fault Refusal :=
  spdmCmd p (inSession p id fun s =>
    if p = 0 ∨ !s.isOwned then s.spdmRefuse p
    else match f s with
      | some s1 => s1.spdmSay p (.vendor id)
      | none => s.spdmRefuse p) s

/-- SLOT 0 to 7, and 8 for STORAGE. -/
def storageSlot : Nat := 8

/-- KEY_IMPORT. -/
def State.keyImport (s : State) (p slot : Nat) (key : List Byte) : Option State :=
  if storageSlot < slot ∨ key.length ≠ 32 then none
  else
    let keep := s.sec.keys.filter fun k => !(k.part == p && k.slot == slot)
    let s1 := { s with sec := { s.sec with keys := keep ++ [⟨p, slot, key, 0⟩] } }
    some (if slot = storageSlot then s1.setBit Fld.SEC_SEAL1_SEALED p true else s1)
def execKeyImport (p id slot : Nat) (key : List Byte) (s : State) : Host.Outcome State Fault Refusal := tenantCmd p id (fun s => s.keyImport p slot key) s

/-- KEY_DELETE: STORAGE of a SEALED partition is not deleted. -/
def State.keyDelete (s : State) (p slot : Nat) : Option State :=
  if storageSlot < slot ∨ (slot = storageSlot ∧ s.isSealed p) then none
  else
    let s1 := { s with sec := { s.sec with keys := s.sec.keys.filter fun k => !(k.part == p && k.slot == slot) } }
    some (if slot = storageSlot then s1.setBit Fld.SEC_SEAL1_SEALED p false else s1)
def execKeyDelete (p id slot : Nat) (s : State) : Host.Outcome State Fault Refusal := tenantCmd p id (fun s => s.keyDelete p slot) s

/-- POLICY_SET: refused while SEALED, and where the text segments lie outside the partition. -/
def State.policySet (s : State) (x : Policy) : Option State :=
  if s.isSealed x.part ∨ 2 < x.aperture ∨ s.getF (Fld.PRT_STATE_HBM_GIB x.part) < x.textFirst + x.textCount then none
  else some { s with sec := { s.sec with policies := (s.sec.policies.filter fun y => y.part != x.part) ++ [x] } }
def execPolicySet (p id first count aperture : Nat) (netExpose migrate : Bool) (s : State) : Host.Outcome State Fault Refusal :=
  tenantCmd p id (fun s => s.policySet ⟨p, first, count, aperture, netExpose, migrate⟩) s

/-- The text segments of a policy, measured. -/
def State.measureText (s : State) (x : Policy) : List Byte := Config.sha384 (s.hbmRead x.part (x.textFirst * gib) (x.textCount * gib))

/-- SEAL (R425): a storage key, a policy, and no logical array that runs or waits, on an array or (DEDUCED) switched out of one. -/
def State.sealPart (s : State) (p : Nat) : Option State :=
  match s.policy p with
  | none => none
  | some x =>
    if s.isSealed p ∨ (s.keyOf p storageSlot).isNone ∨ !s.arraysStopped p ∨
      s.parked.any (fun k => k.id.part == p && (k.state == stRunning || k.state == stWaiting)) then none
    else
      let s1 := { s with sec := { s.sec with seals := (s.sec.seals.filter fun (r : SealRecord) => r.part != p) ++ [SealRecord.mk p (s.measureText x) x] } }
      let s2 := (s1.setBit Fld.SEC_SEAL0_SEALED p true).setBit Fld.SEC_CONSENT1_EXPLICIT p false
      some (s2.raise srcSinter p clsInfo 0xA003 0 [w p, 1])
def execSeal (p id : Nat) (s : State) : Host.Outcome State Fault Refusal := tenantCmd p id (fun s => s.sealPart p) s

/-- CONSENT (R447): the digest of the armed token. -/
def State.consent (s : State) (p digest : Nat) : Option State :=
  if s.sec.token.any fun t => decide (t.digest = digest) then some (s.setBit Fld.SEC_CONSENT1_EXPLICIT p true) else none
def execConsent (p id digest : Nat) (s : State) : Host.Outcome State Fault Refusal := tenantCmd p id (fun s => s.consent p digest) s

end Sys2Proof.Machine
end

