-- ==== Sys2Proof/Machine/Firmware.lean ====
section
/-! DEFINITION. Firmware images, updates, boots, recovery downloads, and the calls of area 0xC (R486 to R500, R503, R504, R507, Table 15.8). -/
namespace Sys2Proof.Machine

/-! ## Boots (R491, R492, R494) -/

/-- A slot that was PENDING becomes ACTIVE; what its firmware migrated has its old copies retained. -/
def State.activate (s : State) (i : Nat) : State :=
  let im := (s.slotImage i).getD FwImage.shipped
  let j := 1 - i
  let s1 := if s.slotState j = slActive then s.setFwSlot j slValid (s.slotTries j) else s
  let s2 := s1.setFwSlot i slActive 0
  let s3 := s2.raise srcSinter wholeDevice clsInfo 0xC002 0 [w i, w im.version, if im.sinterChanged then 1 else 0]
  if im.migrates = 0 then s3
  else
    let s4 := ({ s3 with fw := { s3.fw with retained := im.migrates } }).setF Fld.FW_STATUS_UNCONFIRMED 1
    s4.raise srcFumarole wholeDevice clsInfo 0xC004 0 [w im.migrates, w (s4.getF Fld.FW_STATUS_LOSSY)]

/-- A fall back: the old copies are put back, and FW_FALLBACK says what failed. -/
def State.fallBack (s : State) (failed booted cause : Nat) : State :=
  let s1 := ({ s with fw := { s.fw with retained := 0 } }).setFs [(Fld.FW_STATUS_UNCONFIRMED, 0), (Fld.FW_STATUS_LOSSY, 0)]
  s1.raise srcSinter wholeDevice clsInfo 0xC003 0 [w failed, w booted, w cause]

/-- BOOT_OK: the slot's TRIES return to 0; a warm firmware reset ends with FIRMWARE_RESTARTED (R473). -/
def State.bootOk (s : State) : State :=
  match s.fw.boot with
  | none => s
  | some b =>
    let s1 := { s with fw := { s.fw with boot := none } }
    let s2 := if s1.slotState b.slot = slPending then s1.activate b.slot else s1.setFwSlot b.slot (s1.slotState b.slot) 0
    let s3 := s2.setF Fld.FW_STATUS_BOOTED b.slot
    let s4 := match b.fallback with
      | some f => s3.fallBack f.1 b.slot f.2
      | none => s3
    if b.warm then
      (partNumbers.filter s4.partActive).foldl (fun s p => s.notice p 1 []) { s4 with pow := { s4.pow with warm := false } }
    else s4
def execBootOk (s : State) : Host.Outcome State Fault Refusal := live s <| .next s.bootOk

/-- BOOT_TIMEOUT: no BOOT_OK within the bound of the reset. -/
def execBootTimeout (s : State) : Host.Outcome State Fault Refusal := live s <| .next (s.bootFailed 1)
/-- BOOT_TRAP: a fumarole core has stopped on an unrecoverable trap before BOOT_OK. -/
def execBootTrap (s : State) : Host.Outcome State Fault Refusal := live s <| .next (s.bootFailed 2)

/-! ## Slots -/

/-- The header fields of the image in a slot; their order is not given (DESIGN CHOICE): VERSION, SVN, MIN_STEPPING, DIGEST. -/
def State.headerBytes (s : State) (i : Nat) : List Byte := match s.slotImage i with
  | some im => toLe 4 im.version ++ toLe 1 im.svn ++ toLe 2 im.minStepping ++ toLe 48 im.digest
  | none => List.replicate 55 0
def fwRegs : List Nat := [Reg.FW_STATUS, Reg.FW_SLOT0, Reg.FW_SLOT1, Reg.FW_SVN_MIN, Reg.FW_POLICY, Reg.FW_LOCK]

/-- SVC_FW_QUERY: the FW registers and the header fields of both slots. -/
def execSvcFwQuery (c : Caller) (buf : Nat) (s : State) : Host.Outcome State Fault Refusal :=
  svcCmd 0x0C01 false c (fun s =>
    let (s1, ws) := s.readWords fwRegs
    s1.toBuffer c.part buf 2 (wordBytes ws ++ s.headerBytes 0 ++ s.headerBytes 1) []) s

/-- The slot that is not ACTIVE; where neither is, the one that did not boot. -/
def State.inactiveSlot (s : State) : Nat :=
  if s.slotState 0 = slActive then 1 else if s.slotState 1 = slActive then 0 else 1 - s.getF Fld.FW_STATUS_BOOTED

/-- A slot is erased and being programmed. -/
def State.slotOpen (s : State) (i : Nat) : State := ((s.putImage i none).setFwSlot i slWriting 0).setF Fld.FW_STATUS_BUSY 1
/-- A slot that is left EMPTY. -/
def State.slotEmpty (s : State) (i : Nat) : State := ((s.putImage i none).setFwSlot i slEmpty 0).setF Fld.FW_STATUS_BUSY 0
/-- A slot that holds an image and is PENDING. -/
def State.slotPend (s : State) (i : Nat) (im : FwImage) : State := ((s.putImage i (some im)).setFwSlot i slPending 0).setF Fld.FW_STATUS_BUSY 0

/-- SVC_FW_UPDATE (R490): the checks, then the inactive slot is WRITING until it is programmed. -/
def State.fwUpdate (s : State) (im : FwImage) (ap : Option Approval) : State × SvcOut :=
  let busy (i : Nat) : Bool := s.slotState i == slWriting || s.slotState i == slPending
  if busy 0 || busy 1 then (s, .state)
  else match s.imageCheck im ap with
    | some k => (s, .invalid k)
    | none => (s.slotOpen s.inactiveSlot, .waits (.fwWrite s.inactiveSlot im))
def execSvcFwUpdate (c : Caller) (im : FwImage) (ap : Option Approval) (s : State) : Host.Outcome State Fault Refusal :=
  svcCmd 0x0C02 true c (fun s => s.fwUpdate im ap) s

/-- Step 4 of an update. -/
def State.fwWritten (s : State) (i : Nat) (im : FwImage) : State :=
  (s.slotPend i im).raise srcSinter wholeDevice clsInfo 0xC001 0 [w i, w im.version, w im.svn]

/-- SVC_FW_CANCEL: a PENDING slot is EMPTY. -/
def State.fwCancel (s : State) : State × SvcOut :=
  match ([0, 1] : List Nat).find? fun i => s.slotState i == slPending with
  | some i => (s.slotEmpty i, .ok [])
  | none => (s, .state)
def execSvcFwCancel (c : Caller) (s : State) : Host.Outcome State Fault Refusal := svcCmd 0x0C03 true c (fun s => s.fwCancel) s

/-- SVC_FW_CONFIRM (R489, R493): the only call that blows SVN fuses. -/
def State.fwConfirm (s : State) (c : Caller) (sig : Option Signed) : State × SvcOut :=
  match ([0, 1] : List Nat).find? fun i => s.slotState i == slActive with
  | none => (s, .state)
  | some i =>
    let done (s : State) : State :=
      let svn := ((s.slotImage i).map FwImage.svn).getD 0
      ({ s with fw := { s.fw with retained := 0 } }).setFs [(Fld.FW_SVN_MIN_MIN, max s.svnMin (min svn 64)), (Fld.FW_STATUS_UNCONFIRMED, 0)]
    if !s.isOwned then (done s, .ok [])
    else match s.ownerOk c sig false with
      | (s1, true) => (done s1, .ok [])
      | (s1, false) => (s1, .denied)
def execSvcFwConfirm (c : Caller) (sig : Option Signed) (s : State) : Host.Outcome State Fault Refusal :=
  svcCmd 0x0C04 true c (fun s => s.fwConfirm c sig) s

/-- SVC_FW_POLICY_SET: signed by the owner. -/
def State.fwPolicy (s : State) (c : Caller) (sig : Signed) (minVersion : Nat) (approval : Bool) : State × SvcOut :=
  if !s.isOwned then s.wrongState c.part
  else if 2 ^ 32 ≤ minVersion then (s, .invalid 3)
  else match s.ownerOk c (some sig) false with
    | (s1, true) => (s1.setFs [(Fld.FW_POLICY_MIN_VERSION, minVersion), (Fld.FW_POLICY_REQUIRE_APPROVAL, if approval then 1 else 0)], .ok [])
    | (s1, false) => (s1, .denied)
def execSvcFwPolicySet (c : Caller) (sig : Signed) (minVersion : Nat) (approval : Bool) (s : State) : Host.Outcome State Fault Refusal :=
  svcCmd 0x0C05 true c (fun s => s.fwPolicy c sig minVersion approval) s

/-! ## Recovery mode (R497 to R500) -/

/-- Recovery mode by command: RESET_N first, and the ROM then waits for an image. -/
def State.recoverByCommand (s : State) : State :=
  let s1 := s.wholeReset 2 true
  let s2 := ({ s1 with pow := { s1.pow with locked := true, startedAt := s1.time } }).crtStart
  s2.enterRecovery

/-- SVC_FW_RECOVERY: OK is queued at once; the device enters recovery mode when the reply has been taken. -/
def State.fwRecovery (s : State) (c : Caller) (sig : Option Signed) : State × SvcOut :=
  if s.lifecycle = lcDecommissioned then s.wrongState c.part
  else if !s.isOwned then (s.reply c 0x0C06 svOk [], .waits .replied)
  else match s.ownerOk c sig false with
    | (s1, true) => (s1.reply c 0x0C06 svOk [], .waits .replied)
    | (s1, false) => (s1, .denied)
def execSvcFwRecovery (c : Caller) (sig : Option Signed) (s : State) : Host.Outcome State Fault Refusal :=
  svcCmd 0x0C06 true c (fun s => s.fwRecovery c sig) s

/-- A slot in recovery mode holds an image that passed: the ROM performs RESET_N to boot it. -/
def State.recovered (s : State) (path i version : Nat) : State :=
  (s.selfReset 2).raise srcSinter wholeDevice clsInfo 0xC005 0 [w path, w i, w version]

/-- The end of a download: the image that its bytes spell is checked (R488). -/
def State.rcvVerify (s : State) (d : Download) (im : FwImage) : State × Option Nat :=
  let s1 := { s with fw := { s.fw with download := none } }
  let bad := if d.got ≠ d.length then some 1 else s.imageCheck im none
  match bad with
  | some k => (s1.slotEmpty d.slot, some k)
  | none => (s1.slotPend d.slot im, none)

/-- A download begins on a path: the target slot is erased. -/
def State.rcvOpen (s : State) (path len : Nat) : State :=
  let i := s.recoverySlot
  let s1 := s.slotOpen i
  { s1 with fw := { s1.fw with download := some ⟨path, i, len, 0, []⟩ } }
/-- Another path's download is in progress. -/
def State.rcvTaken (s : State) (path : Nat) : Bool := s.fw.download.any fun d => d.path != path
def State.rcvMine (s : State) (path : Nat) : Option Download := s.fw.download.filter fun d => d.path == path
def imageLength (n : Nat) : Bool := decide (512 ≤ n) && decide (n ≤ 67108864)
def State.rcvAppend (s : State) (d : Download) (l : List Byte) : State :=
  { s with fw := { s.fw with download := some { d with got := d.got + l.length, data := d.data ++ l } } }

/-- The path of R500 is offered. -/
def State.cartridgePath (s : State) : Bool := s.crtState == crBound && s.sec.groupKey.isSome
/-- The newest image of the recovery image area. -/
def newestImage (l : List (Nat × FwImage)) : Option FwImage :=
  (l.foldl (fun (b : Option (Nat × FwImage)) e => match b with
    | some x => if x.1 < e.1 then some e else b
    | none => some e) none).map Prod.snd
/-- At entry, once the cartridge is BOUND, the ROM tries the newest image (R500). -/
def State.cartridgeRecovery (s : State) : State :=
  if s.inRecovery && s.fw.download.isNone && s.cartridgePath then
    match s.crt.drive.bind fun d => newestImage d.images with
    | none => s
    | some im =>
      let i := s.recoverySlot
      if (s.imageCheck im none).isSome then s.slotEmpty i else (s.slotPend i im).recovered 3 i im.version
  else s

/-- CARTRIDGE_AUTH_COMPLETE. -/
def execCartridgeAuthComplete (s : State) : Host.Outcome State Fault Refusal := live s <|
  match s.crt.drive with
  | none => .next s
  | some d => if s.crtState ≠ crAuth then .next s else .next (s.crtAuthEnd d).cartridgeRecovery

/-! ### Over PCIe (R498) -/

/-- The ROM replies on channel 192. -/
def State.rcvReply (s : State) (code tag status : Nat) (words : List Word32) : State :=
  s.queueReply { part := 0, dev := s.ownDev, sinter := true, code := code, tag := tag, status := status, words := words, fails := 0 }
/-- A message of the four that the ROM serves; outside recovery mode its CODE is unknown to the sinter. -/
def rcvCmd (code tag : Nat) (f : State → State) (s : State) : Host.Outcome State Fault Refusal := live s <|
  if s.inRecovery then .next (f s)
  else if s.level = lvStarting ∨ s.pow.warm then .next s
  else .next (s.rcvReply code tag svUnknownCall [])

/-- RCV_BEGIN. -/
def execRcvBegin (tag len : Nat) (s : State) : Host.Outcome State Fault Refusal :=
  rcvCmd 0x0C80 tag (fun s =>
    if s.rcvTaken 1 then s.rcvReply 0x0C80 tag svState []
    else if !imageLength len then s.rcvReply 0x0C80 tag svInvalid [1]
    else (s.rcvOpen 1 len).rcvReply 0x0C80 tag svOk []) s
/-- RCV_DATA: any OFFSET but the next one changes nothing. -/
def execRcvData (tag off count : Nat) (data : List Byte) (s : State) : Host.Outcome State Fault Refusal :=
  rcvCmd 0x0C81 tag (fun s => match s.rcvMine 1 with
    | none => s.rcvReply 0x0C81 tag svState []
    | some d =>
      if off ≠ d.got then s.rcvReply 0x0C81 tag svInvalid [1]
      else if count = 0 ∨ 48 < count ∨ data.length < count ∨ d.length < off + count then s.rcvReply 0x0C81 tag svInvalid [2]
      else (s.rcvAppend d (data.take count)).rcvReply 0x0C81 tag svOk []) s
/-- RCV_END: the reply gives the result; an image that passes is booted once the reply has been taken. -/
def execRcvEnd (tag : Nat) (im : FwImage) (s : State) : Host.Outcome State Fault Refusal :=
  rcvCmd 0x0C82 tag (fun s => match s.rcvMine 1 with
    | none => s.rcvReply 0x0C82 tag svState []
    | some d => match s.rcvVerify d im with
      | (s1, some k) => s1.rcvReply 0x0C82 tag svInvalid [w k]
      | (s1, none) =>
        let s2 := s1.rcvReply 0x0C82 tag svOk []
        { s2 with acc := { s2.acc with calls := s2.acc.calls ++ [⟨⟨0, tag, false, false⟩, 0x0C82, none, [], some .replied⟩] } }) s
/-- RCV_STATUS: FW_STATUS, both slots, the next OFFSET, and whether the cartridge path is offered. -/
def execRcvStatus (tag : Nat) (s : State) : Host.Outcome State Fault Refusal :=
  rcvCmd 0x0C83 tag (fun s =>
    let next := ((s.rcvMine 1).map Download.got).getD 0
    s.rcvReply 0x0C83 tag svOk (s.reg1 Reg.FW_STATUS ++ s.reg2 Reg.FW_SLOT0 ++ s.reg2 Reg.FW_SLOT1 ++ w2 (dw next) ++
      [if s.cartridgePath then 1 else 0])) s

/-! ### Recovery frames (R499) -/

/-- The bytes of a REPLY (Table 15.4): the header in network byte order, STATUS, three zero bytes, NEXT, and the rest.  The byte order of
what follows the header is not given: network byte order too (DESIGN CHOICE). -/
def RcvReply.bytes (r : RcvReply) : List Byte :=
  toBe 4 0x50595243 ++ toBe 1 1 ++ toBe 1 0x81 ++ toBe 2 (12 + r.extra.length) ++ toBe 4 r.seq ++ toBe 4 0 ++ toBe 8 0 ++
  toBe 1 r.status ++ List.replicate 3 0 ++ toBe 8 r.next ++ r.extra
/-- A REPLY leaves on port 0 of vent 0 in queue 7. -/
def State.frameReply (s : State) (status seq : Nat) (extra : List Byte) : State :=
  let r : RcvReply := ⟨status, seq, ((s.rcvMine 2).map Download.got).getD 0, extra⟩
  ({ s with fw := { s.fw with recoveryOut := s.fw.recoveryOut ++ [r] } }).fwSend (FwFrame.mk 0 0 11 false (max 64 (18 + r.bytes.length)) none 0)
/-- What the REPLY to QUERY holds besides: the registers of RCV_STATUS, the first 16 bytes of the DeviceID digest, and the nonce. -/
def State.queryExtra (s : State) (nonce : Nat) : List Byte :=
  toBe 4 (s.reg Reg.FW_STATUS).toNat ++ toBe 8 (s.reg Reg.FW_SLOT0).toNat ++ toBe 8 (s.reg Reg.FW_SLOT1).toNat ++
  toBe 16 s.deviceDigest ++ toBe 16 nonce

/-- RECOVERY_QUERY: status, identity and a fresh nonce. -/
def execRecoveryQuery (seq : Nat) (s : State) : Host.Outcome State Fault Refusal := live s <|
  .next (s.freshNonce.2.frameReply svOk seq (s.queryExtra s.freshNonce.1))
/-- Frames that act in recovery mode only. -/
def frameCmd (f : State → State) (s : State) : Host.Outcome State Fault Refusal := live s <|
  if s.inRecovery then .next (f s) else .next s
/-- RECOVERY_BEGIN. -/
def execRecoveryBegin (seq len : Nat) (s : State) : Host.Outcome State Fault Refusal :=
  frameCmd (fun s =>
    if s.rcvTaken 2 then s.frameReply svState seq []
    else if !imageLength len then s.frameReply svInvalid seq []
    else (s.rcvOpen 2 len).frameReply svOk seq []) s
/-- RECOVERY_DATA: a frame whose OFFSET is not NEXT is answered with NEXT and otherwise ignored. -/
def execRecoveryData (seq off : Nat) (data : List Byte) (s : State) : Host.Outcome State Fault Refusal :=
  frameCmd (fun s => match s.rcvMine 2 with
    | none => s.frameReply svState seq []
    | some d =>
      if off ≠ d.got then s.frameReply svOk seq []
      else if 8192 < data.length ∨ d.length < off + data.length then s.frameReply svInvalid seq []
      else (s.rcvAppend d data).frameReply svOk seq []) s
/-- RECOVERY_END. -/
def execRecoveryEnd (seq : Nat) (im : FwImage) (s : State) : Host.Outcome State Fault Refusal :=
  frameCmd (fun s => match s.rcvMine 2 with
    | none => s.frameReply svState seq []
    | some d => match s.rcvVerify d im with
      | (s1, some _) => s1.frameReply svInvalid seq []
      | (s1, none) => (s1.frameReply svOk seq []).recovered 2 d.slot im.version) s

/-- ENTER_RECOVERY: signed by the owner in OWNED. -/
def execEnterRecovery (seq : Nat) (sig : Option Signed) (s : State) : Host.Outcome State Fault Refusal := live s <|
  if s.lifecycle = lcDecommissioned then .next ((s.authFailed 0 4).frameReply svState seq [])
  else
    let r := if s.isOwned then s.ownerOk ⟨0, 0, false, false⟩ sig false else (s, true)
    if r.2 then .next (r.1.frameReply svOk seq []).recoverByCommand
    else .next (r.1.frameReply svDenied seq [])

/-- GROUP_RECORD: signed by the owner; firmware applies the record at start-up (R391). -/
def execGroupRecord (seq : Nat) (sig : Signed) (g : GroupRecord) (s : State) : Host.Outcome State Fault Refusal := live s <|
  if !s.isOwned then .next ((s.authFailed 0 4).frameReply svState seq [])
  else match s.checkSigned 0 sig .owner with
    | (s1, true) => .next (({ s1 with fw := { s1.fw with group := some g } }).frameReply svOk seq [])
    | (s1, false) => .next (s1.frameReply svDenied seq [])

/-! ## The cartridge's calls (R500, R503, R504, R507) -/

def crtRegs : List Nat := [Reg.CRT_STATUS, Reg.CRT_ID, Reg.CRT_WRITTEN, Reg.CRT_BIND, Reg.CRT_ERR, Reg.CRT_CFG, Reg.CRT_LOCK]
/-- The sizes of the areas of Table 15.6 in bytes. -/
def State.areaTable (s : State) : List Nat :=
  let own := s.getF Fld.LOG_AREA_OWN_GB * 10 ^ 9
  let mir := s.getF Fld.LOG_AREA_MIRROR_GB * 10 ^ 9
  [2 ^ 20, 128 * 2 ^ 20, own, mir, 1875000000 * 4096 - (129 * 2 ^ 20 + own + mir)]
/-- SVC_CRT_QUERY: the CRT registers, the area table and the retained snapshots, into a buffer. -/
def execSvcCrtQuery (c : Caller) (buf : Nat) (s : State) : Host.Outcome State Fault Refusal :=
  svcCmd 0x0C07 false c (fun s =>
    let (s1, ws) := s.readWords crtRegs
    let snaps := s.log.kept.flatMap fun x => toLe 8 x.id ++ toLe 8 x.scope ++ toLe 8 x.step ++ toLe 8 x.lsn
    s1.toBuffer c.part buf 2 (wordBytes ws ++ s.areaTable.flatMap (toLe 8) ++ snaps) [w s.log.kept.length]) s

/-- SVC_CRT_BIND: a BLANK, FOREIGN or ORIGIN cartridge is sanitized and bound. -/
def State.svcBind (s : State) : State × SvcOut :=
  match s.crt.drive, s.sec.groupKey with
  | some d, some k => if s.isOwned && (s.crtState == crBlank || s.crtState == crForeign || s.crtState == crOrigin) then (s.crtBind d k, .ok []) else (s, .state)
  | _, _ => (s, .state)
def execSvcCrtBind (c : Caller) (s : State) : Host.Outcome State Fault Refusal := svcCmd 0x0C08 true c (fun s => s.svcBind) s

/-- SVC_CRT_ERASE: signed by the owner; the cartridge is sanitized and BLANK. -/
def State.svcErase (s : State) (c : Caller) (sig : Signed) : State × SvcOut :=
  if !s.isOwned then s.wrongState c.part
  else if s.crt.drive.isNone || decide (s.crtState < crBlank) || s.crtState == crFaulty then (s, .state)
  else match s.ownerOk c (some sig) false with
    | (s1, true) => (s1.crtBlank true, .ok [])
    | (s1, false) => (s1, .denied)
def execSvcCrtErase (c : Caller) (sig : Signed) (s : State) : Host.Outcome State Fault Refusal := svcCmd 0x0C09 true c (fun s => s.svcErase c sig) s

/-- Nothing of the logger is in flight, and no snapshot drains. -/
def State.crtIdle (s : State) : Bool := (s.log.blocks.all fun b => b.written || !s.crtWritable) && s.log.snap.isNone
/-- The cartridge may be pulled: no write is issued any more. -/
def State.ejectEnd (s : State) : State := ({ s with crt := { s.crt with ejected := true } }).crtSync
/-- SVC_CRT_EJECT. -/
def State.crtEject (s : State) : State × SvcOut :=
  if s.crt.drive.isNone then (s, .state) else if s.crtIdle then (s.ejectEnd, .ok []) else (s, .waits .eject)
def execSvcCrtEject (c : Caller) (s : State) : Host.Outcome State Fault Refusal := svcCmd 0x0C0A true c (fun s => s.crtEject) s

/-- SVC_CRT_STAGE: an image that passes R488 goes into the older copy of the recovery image area; refused from refusal point 3 on. -/
def State.crtStage (s : State) (im : FwImage) (ap : Option Approval) : State × SvcOut :=
  match s.crt.drive with
  | none => (s, .state)
  | some d =>
    if !s.crtWritable || decide (3 ≤ driveLevel d) then (s, .state)
    else match s.imageCheck im ap with
      | some k => (s, .invalid k)
      | none =>
        let top := (d.images.map Prod.fst).foldl max 0
        let rest := if d.images.length < 2 then d.images else d.images.filter fun e => e.1 == top
        ({ s with crt := { s.crt with drive := some { d with images := rest ++ [(top + 1, im)] } } }, .ok [])
def execSvcCrtStage (c : Caller) (im : FwImage) (ap : Option Approval) (s : State) : Host.Outcome State Fault Refusal :=
  svcCmd 0x0C0B true c (fun s => s.crtStage im ap) s

end Sys2Proof.Machine
end

