-- ==== Sys2Proof/Machine/SvcVent.lean ====
section
/-! DEFINITION. Service calls of area 0x8: vents, MACsec, PTP and the wake detector (Table 11.6, R359 to R363, R373 to R380, R383). -/
namespace Sys2Proof.Machine

/-! ## SVC_VNT_SET -/

/-- Every port of a vent's mode is UP. -/
def State.ventUp (s : State) (v : Nat) : Bool := (List.range (s.ventPorts v)).all fun n => s.portUp v n
def State.ventsUp (s : State) (l : List Nat) : Bool := l.all s.ventUp

/-- VNT_STATUS of vents. -/
def State.ventWords (s : State) (l : List Nat) : List Word32 := l.flatMap fun v => s.reg1 (Reg.VNT_STATUS v)

/-- One vent: ENABLE goes to 0, the registers are written, the next hops resolved, and ENABLE goes to 1.  At the basic level VNT_LOCK is
then set. -/
def State.ventSet (s : State) (x : VentSetup) : State :=
  let v := x.vent
  let s1 := s.ventEnable v false
  let y (a : Word32) : Word64 := a.setWidth 64
  let (s2, _) := (s1.ventCtl v (x.ctl.toNat % 64)).svcWrites [(Reg.VNT_MAC_ADDR v, x.mac), (Reg.VNT_MAC_CFG v, y x.macCfg), (Reg.VNT_IP4 v, y x.ip4),
    (Reg.VNT_IP6_HI v, x.ip6Hi), (Reg.VNT_IP6_LO v, x.ip6Lo)] []
  let (s3, _) := s2.svcWrites ((x.thresh.filter fun e => decide (e.1 < 8)).map fun e => (Reg.VNT_TXQ_THRESH v e.1, y e.2)) []
  let s4 := (List.range 4).foldl (fun s n => match x.hops.getD n none with
    | some m => s.setFs [(Fld.VNT_NEXTHOP_MAC v n, m), (Fld.VNT_NEXTHOP_VALID v n, 1)]
    | none => s.setF (Fld.VNT_NEXTHOP_VALID v n) 0) s3
  let s5 := s4.ventEnable v true
  if Config.basicLevel then s5.setF (Fld.VNT_LOCK_LOCK v) 1 else s5

/-- SVC_VNT_SET completes when every port is UP, or after 1 s. -/
def execSvcVntSet (c : Caller) (l : List VentSetup) (s : State) : Host.Outcome State Fault Refusal :=
  svcCmd 0x0801 true c (fun s =>
    if !(l.all fun x => decide (x.vent < 16)) then (s, .invalid 2)
    else if l.any fun x => s.flag (Fld.VNT_LOCK_LOCK x.vent) then (s, .state)
    else
      let s1 := l.foldl (fun s x => s.ventSet x) s
      let vs := l.map VentSetup.vent
      if s1.ventsUp vs then (s1, .ok (s1.ventWords vs)) else (s1, .waits (.vent vs (s1.time + 1000000000)))) s

/-! ## SVC_VNT_QUERY -/

/-- The registers that a query returns of a vent: VNT_STATUS, VNT_SEC_STATUS, underruns by queue, the counters of each port in the order
of their offsets, and the lanes. -/
def ventCounters (v : Nat) : List Nat :=
  [Reg.VNT_STATUS v, Reg.VNT_SEC_STATUS v] ++ ((List.range 8).map fun q => Reg.VNT_TXQ_UNDERRUN v q) ++
  ((List.range 4).flatMap fun n => (List.range 8).map fun i => Reg.VNT_TX_FRAMES v n + 8 * i) ++ ((List.range 4).map fun l => Reg.VNT_LANE_STAT v l)

def execSvcVntQuery (c : Caller) (vs : List Nat) (buf : Nat) (s : State) : Host.Outcome State Fault Refusal :=
  svcCmd 0x0802 true c (fun s =>
    if !(vs.all fun v => decide (v < 16)) then (s, .invalid 2)
    else
      let (s1, ws) := s.readWords (vs.flatMap ventCounters)
      if s.bufOk c.part buf (4 * ws.length) then s1.toBuffer c.part buf 3 (wordBytes ws) [] else (s, .invalid 3)) s

/-! ## SVC_VNT_MACSEC_SET -/

/-- SVC_VNT_MACSEC_SET: MKA runs from then on; `saks` are the ports whose partner has answered it when the call completes, with the
association number agreed. -/
def execSvcVntMacsecSet (c : Caller) (v : Nat) (cfg : BitVec 32) (saks : List (Nat × Nat)) (s : State) : Host.Outcome State Fault Refusal :=
  svcCmd 0x0803 true c (fun s =>
    if 16 ≤ v then (s, .invalid 2)
    else if s.flag (Fld.VNT_LOCK_LOCK v) || !(s.vent v).cak then (s, .state)
    else if !(saks.all fun e => decide (e.1 < s.ventPorts v)) then (s, .invalid 4)
    else
      let on := s.flag (Fld.VNT_CTL_ENABLE v)
      let s1 := if on then s.ventEnable v false else s
      let (s2, r) := s1.svcWrites [(Reg.VNT_SEC_CFG v, cfg.setWidth 64)] []
      let s3 := saks.foldl (fun s e => s.installSak v e.1 e.2) (s2.modVent v fun x => { x with mka := true })
      (if on then s3.ventEnable v true else s3, r)) s

/-! ## SVC_PTP_SET, SVC_VNT_WAKE_SET -/

/-- SVC_PTP_SET: the latencies of the PMD, which the manual does not give, are free values. -/
def execSvcPtpSet (c : Caller) (v port transport domain : Nat) (s : State) : Host.Outcome State Fault Refusal :=
  svcCmd 0x0804 true c (fun s =>
    let others := (List.range 16).filter fun u => u != v && s.flag (Fld.VNT_PTP_CFG_SOURCE u)
    if 16 ≤ v then (s, .invalid 2)
    else if s.ventPorts v ≤ port then (s, .invalid 3)
    else if 2 < transport then (s, .invalid 4)
    else if 256 ≤ domain then (s, .invalid 5)
    else if s.flag (Fld.VNT_LOCK_LOCK v) || others.any fun u => s.flag (Fld.VNT_LOCK_LOCK u) then (s, .state)
    else
      let (lat, s1) := s.draw
      let s2 := others.foldl (fun s u => s.setF (Fld.VNT_PTP_CFG_SOURCE u) 0) s1
      let s3 := s2.setFs [(Fld.VNT_PTP_LAT_TX_LAT v, fieldOf lat 16 16), (Fld.VNT_PTP_LAT_RX_LAT v, fieldOf lat 0 16), (Fld.VNT_PTP_CFG_EN v, 1),
        (Fld.VNT_PTP_CFG_SOURCE v, 1), (Fld.VNT_PTP_CFG_PORT v, port)]
      ({ s3 with eth := { s3.eth with ptp := some (transport, domain) } }, .ok [])) s

def execSvcVntWakeSet (c : Caller) (cfg times : BitVec 32) (s : State) : Host.Outcome State Fault Refusal :=
  svcCmd 0x0805 true c (fun s => s.svcWrites [(Reg.VNT_WAKE_CFG, cfg.setWidth 64), (Reg.VNT_WAKE_TIMES, times.setWidth 64)] []) s

end Sys2Proof.Machine
end

