-- ==== Sys2Proof/Machine/SvcPower.lean ====
section
/-! DEFINITION. Service calls of area 0xB: clocks, power, resets and freeze (Table 14.9, R460 to R464, R469, R472, R473, R483). -/
namespace Sys2Proof.Machine

/-- EFF of islands, as words. -/
def State.effWords (s : State) (l : List Nat) : List Word32 := l.map fun i => w (s.getF (Fld.CLK_ISL_FREQ_EFF i))

/-- SVC_CLK_SET: REQ of the named islands; each EFF goes into the caller's buffer. -/
def State.clkSet (s : State) (p : Nat) (l : List (Nat × Nat)) (buf : Nat) : State × SvcOut :=
  if l.any fun e => decide (36 ≤ e.1) || decide (2048 ≤ e.2) then (s, .invalid 2)
  else if !s.bufOk p buf (4 * l.length) then (s, .invalid 3)
  else
    let s1 := l.foldl (fun s e => (s.setF (Fld.CLK_ISL_FREQ_REQ e.1) e.2).syncFreq e.1) s
    s1.toBuffer p buf 3 (wordBytes (s1.effWords (l.map Prod.fst))) []

def execSvcClkSet (c : Caller) (l : List (Nat × Nat)) (buf : Nat) (s : State) : Host.Outcome State Fault Refusal :=
  svcCmd 0x0B01 true c (fun s => s.clkSet c.part l buf) s

/-- Every domain of a list agrees with the EN asked for. -/
def State.gatesAgree (s : State) (l : List (Nat × Bool × Bool)) : Bool := l.all fun e => s.domainRuns e.1 == e.2.2

/-- SVC_CLK_GATE: an island that holds mappings is refused; the call completes when CLK_GATE_STAT agrees. -/
def State.clkGate (s : State) (l : List (Nat × Bool)) : State × SvcOut :=
  if l.any fun e => !gateable e.1 then (s, .invalid 2)
  else if l.any fun e => !e.2 && decide (e.1 < 36) && s.islandMapped e.1 then (s, .state)
  else
    let k := l.map fun e => (e.1, s.gateEn e.1, e.2)
    let s1 := l.foldl (fun s e => s.gateAsk e.1 e.2) s
    if s1.gatesAgree k then (s1, .ok []) else (s1, .waits (.gate k))

def execSvcClkGate (c : Caller) (l : List (Nat × Bool)) (s : State) : Host.Outcome State Fault Refusal :=
  svcCmd 0x0B02 true c (fun s => s.clkGate l) s

/-- SVC_PWR_SET: CAP and AUTO_IDLE; COOLING and the thresholds before PWR_LOCK is set. -/
def State.pwrSet (s : State) (cap : Nat) (autoIdle : Bool) (therm : Option (Bool × BitVec 32)) : State × SvcOut :=
  if 65536 ≤ cap then (s, .invalid 2)
  else if therm.isSome && s.locked Reg.PWR_CFG then (s, .state)
  else
    let s1 := s.setFs [(Fld.PWR_CFG_CAP, cap), (Fld.PWR_CFG_AUTO_IDLE, if autoIdle then 1 else 0)]
    match therm with
    | none => (s1, .ok [])
    | some (liquid, t) => (s1.setFs [(Fld.PWR_CFG_COOLING, if liquid then 1 else 0), (Fld.PWR_THERM_CFG_T_CRIT, bits t.toNat 16 8),
        (Fld.PWR_THERM_CFG_T_THROTTLE, bits t.toNat 8 8), (Fld.PWR_THERM_CFG_T_WARN, bits t.toNat 0 8)], .ok [])

def execSvcPwrSet (c : Caller) (cap : Nat) (autoIdle : Bool) (therm : Option (Bool × BitVec 32)) (s : State) : Host.Outcome State Fault Refusal :=
  svcCmd 0x0B03 true c (fun s => s.pwrSet cap autoIdle therm) s

/-- The islands of a partition's logical arrays, in the order of the arrays. -/
def State.islandsOf (s : State) (p : Nat) : List Nat :=
  (List.range (s.getF (Fld.PRT_STATE_LARRAYS p))).filterMap fun l => (s.physOf p l).map fun n => n / 4

/-- SVC_PWR_QUERY: power, ceilings, temperatures, energy and frequencies for partition 0, EFF alone for another. -/
def State.pwrQuery (s : State) (p buf : Nat) : State × SvcOut :=
  if p = 0 then
    let (s1, ws) := s.readWords ([Reg.PWR_STATUS, Reg.PWR_CEIL, Reg.PWR_TEMP, Reg.PWR_ENERGY] ++ (List.range 36).map fun i => Reg.CLK_ISL_FREQ i)
    s1.toBuffer p buf 2 (wordBytes ws) []
  else s.toBuffer p buf 2 (wordBytes (s.effWords (s.islandsOf p))) []

def execSvcPwrQuery (c : Caller) (buf : Nat) (s : State) : Host.Outcome State Fault Refusal :=
  svcCmd 0x0B04 false c (fun s => s.pwrQuery c.part buf) s

/-- Every accepted record up to an LSN is durable. -/
def State.durableUpTo (s : State) (lsn : Nat) : Bool := s.log.records.all fun r => decide (lsn < r.lsn) || !s.notDurable r.lsn

/-- SVC_PWR_DORMANT (R469): partition 0 is the only partition, no plume slot is in use and no step bank enabled. -/
def State.pwrDormant (s : State) : State × SvcOut :=
  if !s.allFree || (List.range 64).any (fun k => s.flag (Fld.PLM_OWNER_VALID k)) || (List.range 4).any (fun j => s.flag (Fld.PRF_STEP_CFG_ENABLE j))
  then (s, .state)
  else (s, .waits (.dormant ((s.log.records.getLast?.map LogRecord.lsn).getD 0) (s.time + 1000000000)))

def execSvcPwrDormant (c : Caller) (s : State) : Host.Outcome State Fault Refusal :=
  svcCmd 0x0B05 true c (fun s => s.pwrDormant) s

/-- The island removes power from every rail but its own; the link goes down with it. -/
def State.enterDormant (s : State) : State :=
  let s1 := s.pcieDown
  { s1 with pow := { s1.pow with state := .dormant, armed := false } }

/-- SVC_RST_ARRAY (R472): completes when STATE is IDLE. -/
def State.rstArray (s : State) (n : Nat) : State × SvcOut :=
  if 144 ≤ n then (s, .invalid 2)
  else if s.arrState n = stRetired then (s, .state)
  else
    let s1 := s.arrayResetReq n
    if s1.pow.resetWait.contains n then (s1, .waits (.arrayReset n)) else (s1, .ok [])

def execSvcRstArray (c : Caller) (n : Nat) (s : State) : Host.Outcome State Fault Refusal :=
  svcCmd 0x0B06 true c (fun s => s.rstArray n) s

/-- SVC_RST_VENT: completes when the vent's ports are UP, or after 1 s. -/
def State.rstVent (s : State) (v : Nat) : State × SvcOut :=
  if 16 ≤ v then (s, .invalid 2) else (s.ventReset v, .waits (.vent [v] (s.time + 1000000000)))

def execSvcRstVent (c : Caller) (v : Nat) (s : State) : Host.Outcome State Fault Refusal :=
  svcCmd 0x0B07 true c (fun s => s.rstVent v) s

/-- SVC_RST_WARM: OK is queued at once; the reset follows when the reply has been taken. -/
def execSvcRstWarm (c : Caller) (s : State) : Host.Outcome State Fault Refusal :=
  svcCmd 0x0B08 true c (fun s => (s.reply c 0x0B08 svOk [], .waits .replied)) s

/-- SVC_FRZ_SET: in PORT mode vent 0 is UP; the lock is set if asked. -/
def State.frzSet (s : State) (cfg : Word32) (mac ipHi ipLo : Word64) (lock : Bool) : State × SvcOut :=
  if cfg.getLsbD 31 && !s.ventUp 0 then (s, .state)
  else
    let (s1, r) := s.svcWrites [(Reg.FRZ_CFG, cfg.setWidth 64), (Reg.FRZ_DEST_MAC, mac), (Reg.FRZ_DEST_IP_HI, ipHi), (Reg.FRZ_DEST_IP_LO, ipLo)] []
    if lock && r == .ok [] then (s1.setF Fld.FRZ_LOCK_LOCK 1, r) else (s1, r)

def execSvcFrzSet (c : Caller) (cfg : BitVec 32) (mac ipHi ipLo : BitVec 64) (lock : Bool) (s : State) : Host.Outcome State Fault Refusal :=
  svcCmd 0x0B09 true c (fun s => s.frzSet cfg mac ipHi ipLo lock) s

end Sys2Proof.Machine
end

