-- ==== Sys2Proof/Machine/Calls.lean ====
section
/-! DEFINITION. Calls from their taking to their reply: forwarding, the end of calls that wait, aborts, and the posting of replies (R13, R393,
R411 to R419, R435). -/
namespace Sys2Proof.Machine

/-! ## Taking a call (R415, R416, R419) -/

/-- The last call of each area of Table 12.10, and of the tables of areas 0xA to 0xC. -/
def areaLast (area : Nat) : Nat :=
  match area with
  | 0x0 => 3 | 0x1 => 3 | 0x2 => 0xC | 0x3 => 7 | 0x4 => 5 | 0x5 => 6 | 0x6 => 5 | 0x7 => 0xC | 0x8 => 5 | 0x9 => 0xD | 0xA => 0xB | 0xB => 9
  | 0xC => 0xB | _ => 0
/-- A code of the catalogue. -/
def knownCall (code : Nat) : Bool := decide (1 ≤ code % 256) && decide (code % 256 ≤ areaLast (code / 256))

/-- A peer has a VALID path entry. -/
def State.hasPath (s : State) (d : Nat) : Bool := vents.any fun v => (s.path d v).valid
/-- A device is unreachable: the head's table says so, or every path is DOWN. -/
def State.deviceGone (s : State) (d : Nat) : Bool :=
  (s.devTable.any fun e => e.dev == d && e.state == 2) || !(vents.any fun v => (s.path d v).valid && (s.path d v).state != stDown)

/-- An answer to a call that is not performed, from the unit that took it. -/
def State.answerCall (s : State) (c : Caller) (sinter : Bool) (code status : Nat) (words : List Word32) : State :=
  if c.session then s.reply c code status words
  else s.queueReply { part := c.part, dev := s.ownDev, sinter, code, tag := c.tag, status, words, fails := 0 }

/-- A message leaves for another device. -/
def State.forwardWords (s : State) (target : Nat) (words : List Word32) : State :=
  { s with host := { s.host with forwards := s.host.forwards ++ [(target, words)] } }

/-- The head forwards a call to another device (R393). -/
def State.forwardCall (s : State) (c : Caller) (sinter : Bool) (code target : Nat) (words : List Word32) : State :=
  if !s.hasPath target then s.answerCall c sinter code svUnreachable []
  else if 16 ≤ (s.callsOf c.part).length then s.answerCall c sinter code svBusy []
  else if s.acc.calls.any (Call.is c.part c.tag c.forwarded) then s.answerCall c sinter code svInvalid [0]
  else ({ s with acc := { s.acc with calls := s.acc.calls ++ [Call.mk c code (some target) [] none] } }).forwardWords target words

/-- A call as it is taken: an unknown CODE is answered, a call that names another device is forwarded; any other is performed by the row
of its own name. -/
def State.takeCall (s : State) (c : Caller) (sinter : Bool) (known : Nat → Bool) (words : List Word32) : State :=
  let w0 := (words.getD 0 0).toNat
  let w1 := (words.getD 1 0).toNat
  let code := bits w0 0 16
  let target := bits w1 16 8
  if !known code then s.answerCall c sinter code svUnknownCall []
  else if bits w0 16 1 = 1 ∧ target ≠ s.ownDev then s.forwardCall c sinter code target words
  else s

/-- Codes of a channel to the fumarole, and of one to the sinter: its calls, fragments, and in recovery mode the ROM's messages. -/
def fumaroleCode (code : Nat) : Bool := knownCall code && code / 256 != 0xA
def State.sinterCode (s : State) (p code : Nat) : Bool :=
  (knownCall code && code / 256 == 0xA) || code == 0x0A00 || (s.inRecovery && p == 0 && decide (0x0C80 ≤ code) && decide (code ≤ 0x0C83))

/-- The receiver of a channel is at work. -/
def State.receives (s : State) (c : Nat) : Bool := s.level != lvStarting && !s.pow.warm && (decide (128 ≤ c) || !s.inRecovery)

/-- MBX_TAKE: the receiver takes the message of a channel; a function does so by writing ACK. -/
def State.takeMessage (s : State) (c : Nat) : State :=
  if !chanFromFn c then s.chanWrite (.fn (chanFn c)) c 0x48 1
  else if !s.receives c || s.mbx c != mbPosted then s
  else
    let p := chanFn c
    let words := (List.range (s.getF (Fld.MBX_CTL_LEN c))).map fun i => (s.reg (Reg.MBX_DATA c i)).setWidth 32
    let sinter := decide (128 ≤ c)
    (s.mbxTake c).takeCall ⟨p, bits (words.getD 1 0).toNat 0 16, false, false⟩ sinter (if sinter then s.sinterCode p else fumaroleCode) words
def execMbxTake (c : Nat) (s : State) : Host.Outcome State Fault Refusal := live s <|
  if 256 ≤ c then .fault (.noSuchUnit c) else .next (s.takeMessage c)

/-- MBX_TIMEOUT_EXPIRY (R412, R416): a message that has not been taken within MBX_TIMEOUT is aborted with reason 2; in STARTING the time does
not run for channels to the fumarole. -/
def execMbxTimeoutExpiry (c : Nat) (s : State) : Host.Outcome State Fault Refusal := live s <|
  if 256 ≤ c then .fault (.noSuchUnit c)
  else if (c < 64 ∧ s.level = lvStarting) ∨ s.time < Sparse.get natDefault s.host.postedAt c + max 1 (s.getF Fld.MBX_TIMEOUT_MS) * 10 ^ 6 then .next s
  else if chanFromFn c then .next (s.mbxAbort c 2)
  else .next (s.abortTo c 2 true)

/-- CALL (R435): a service call of a partition inside its session. -/
def execCall (p id : Nat) (words : List (BitVec 32)) (s : State) : Host.Outcome State Fault Refusal :=
  spdmCmd p (inSession p id fun s =>
    if p = 0 ∨ !s.isOwned then s.spdmRefuse p
    else s.takeCall ⟨p, bits (words.getD 1 0).toNat 0 16, true, false⟩ true knownCall words) s

/-! ## The end of calls that wait -/

/-- What a waiting call has come to: its status and words, or a further wait, or nothing yet. -/
inductive Progress where
  | waiting
  | again (x : CallWait)
  | done (status : Nat) (words : List Word32)
  deriving DecidableEq, Repr

def Progress.ofOut : SvcOut → Progress
  | .reply st ws => .done st ws
  | .waits x => .again x

/-- Once an array has stopped, the rest of a call follows. -/
def State.onceStopped (s : State) (n : Nat) (f : State → State × SvcOut) : State × Progress :=
  if s.arrSettled n then let (s1, r) := f s; (s1, .ofOut r) else (s, .waiting)

/-- Done once a condition holds. -/
def State.onceDone (s : State) (b : Bool) (f : State → State) (words : State → List Word32) : State × Progress :=
  if b then (f s, .done svOk (words s)) else (s, .waiting)

/-- A plume's join has succeeded, or ended without success. -/
def State.joinProgress (s : State) (k : Nat) : State × Progress :=
  if !s.plmActive k then (s, .done svState [])
  else if (s.plume k).awaited.isEmpty then (s, .done svOk (s.reg1 (Reg.PLM_STATUS k)))
  else (s, .waiting)

/-- A snapshot is durable, or has been abandoned. -/
def State.snapProgress (s : State) (id : Nat) : State × Progress :=
  if s.log.kept.any fun x => x.id == id then (s, .done svOk (w2 (dw id)))
  else if s.log.snap.any fun x => x.id == id then (s, .waiting)
  else (s, .done svState [])

/-- A destruction: the partition's reset, then its end. -/
def State.destroyProgress (s : State) (p : Nat) : State × Progress :=
  if s.partState p = psFree then (s, .done svOk [])
  else if s.partState p = psActive then (s.destroyBegin p, .waiting)
  else (s, .waiting)

/-- The release erase goes on once every partition is gone. -/
def State.eraseProgress (s : State) (next : Nat) : State × Progress :=
  if s.allFree then (s.eraseEnd next, .done svOk [])
  else ((partNumbers.filter fun p => p != 0 && s.partActive p).foldl (fun s p => s.destroyBegin p) s, .waiting)

/-- How far a call that waits has come. -/
def State.progress (s : State) (c : Call) (x : CallWait) : State × Progress :=
  match x with
  | .arrayStop n => s.onceStopped n fun s => s.stopReply n
  | .arrayDump n => s.onceStopped n fun s => s.dumpReply n
  | .arrayScrub n => s.onceStopped n fun s => (s.ocScrub n, .ok [])
  | .accReserve p l n first count go =>
    s.onceDone (s.accQuiet n || (s.onArrayNow p l).isNone) (fun s => s.accReserveEnd p l n first count go) fun _ => []
  | .peer d until' => s.onceDone (s.peerAllUp d || decide (until' ≤ s.time)) id fun s => [w (s.pathMask d)]
  | .plume k => s.joinProgress k
  | .reshard _ left => s.onceDone (left == 0) id fun _ => []
  | .snap id' => s.snapProgress id'
  | .snapStop id' scope step t0 arrays =>
    if arrays.all s.arrSettled then (s.snapCopy id' scope step t0 arrays, .again (.snap id')) else (s, .waiting)
  | .refill _ _ _ _ _ => (s, .waiting)
  | .refillNext k lost spare step f paths arrays =>
    if s.refillPlace (s.plume k).desc lost = .queued then (s, .waiting)
    else let (s1, r) := s.refill c.caller.part k lost spare step f paths arrays; (s1, .ofOut r)
  | .reset 0 => s.onceDone (s.arraysStopped 0) State.resetZero fun _ => []
  | .reset p => s.onceDone (s.partActive p) id fun _ => []
  | .destroy p => s.destroyProgress p
  | .grant g => if s.partActive g.part then let (s1, r) := s.partGrant g; (s1, .ofOut r) else (s, .waiting)
  | .gate l => s.onceDone (s.gatesAgree l) id fun _ => []
  | .dormant lsn until' => s.onceDone (s.durableUpTo lsn || decide (until' ≤ s.time)) State.enterDormant fun _ => []
  | .vent vs until' => s.onceDone (s.ventsUp vs || decide (until' ≤ s.time)) id fun s => s.ventWords vs
  | .eject => s.onceDone s.crtIdle State.ejectEnd fun _ => []
  | .append n => s.onceDone (decide (n < Sparse.get natDefault s.log.appended c.caller.part)) id fun _ => []
  | .fwWrite slot im => s.onceDone true (fun s => s.fwWritten slot im) fun _ => []
  | .arrayReset n => s.onceDone (!s.pow.resetWait.contains n) id fun _ => []
  | .erase next => s.eraseProgress next
  | .crypt imp dst src len key nonce aad tag =>
    let (s1, st, ws) := s.cryptEnd c.caller.part imp dst src len key nonce aad tag
    (s1, .done st ws)
  | .replied => (s, .waiting)
  | .failed => (s, .done svState [])

/-- The reply of a call is on its way or lies in its channel. -/
def State.replyOut (s : State) (c : Call) : Bool :=
  (s.host.replies ++ s.host.inChannel ++ s.host.retry).any fun r => r.part == c.caller.part && r.tag == c.caller.tag && r.code == c.code

/-- What a call asked for once its reply has been taken: a warm firmware reset, recovery mode, or the boot of a recovered image. -/
def State.afterReply (s : State) (c : Call) : State :=
  let s1 := { s with acc := { s.acc with calls := s.acc.calls.filter fun x => !decide (x = c) } }
  if c.code = 0x0B08 then s1.warmRequest
  else if c.code = 0x0C06 then s1.recoverByCommand
  else match ([0, 1] : List Nat).find? fun i => s1.slotState i == slPending with
    | some i => s1.recovered 1 i ((s1.slotImage i).getD FwImage.shipped).version
    | none => s1

/-- One call settles: it replies if what it waited for has come; a forwarded one fails with its target. -/
def State.settleCall (s : State) (c : Call) : State :=
  if !s.acc.calls.any fun x => decide (x = c) then s
  else match c.wait with
    | none => if c.target.any s.deviceGone then s.endCall c svUnreachable [] else s
    | some .replied => if s.replyOut c then s else s.afterReply c
    | some x => match s.progress c x with
      | (s1, .waiting) => s1
      | (s1, .again y) =>
        { s1 with acc := { s1.acc with calls := s1.acc.calls.map fun (z : Call) => if z = c then { z with wait := some y } else z } }
      | (s1, .done st ws) => s1.endCall c st ws

/-- Destructions whose arrays have stopped end. -/
def State.settleDestroy (s : State) : State :=
  partNumbers.foldl (fun s p => if p ≠ 0 ∧ s.partState p = psDestroying ∧ s.arraysStopped p then s.destroyEnd p else s) s

/-- A warm firmware reset that was held while a slot was WRITING begins (R490). -/
def State.settleWarm (s : State) : State :=
  if s.pow.warmHeld && !s.slotWriting then ({ s with pow := { s.pow with warmHeld := false } }).warmRequest else s

/-- A device of the group has failed while a snapshot was under way: it is abandoned, and stopped arrays run on (R345). -/
def State.settleSnap (s : State) : State :=
  if !s.log.snapLost then s
  else
    let s0 := { s with log := { s.log with snapLost := false } }
    (s0.acc.calls.filter Call.takesSnap).foldl (fun (s : State) c => match c.wait with
      | some (.snapStop id' _ _ _ arrays) =>
        (((s.setFs [(Fld.LOG_SNAP_STATE, 0), (Fld.LOG_SNAP_SCOPE, 0)]).snapFailed id' 3).runOn arrays).endCall c svState []
      | _ => (s.snapAbandon 3).endCall c svState []) s0

/-- Firmware goes on with everything that waited. -/
def State.settle (s : State) : State :=
  let s1 := s.settleResets.settleDestroy.settleSnap
  (s1.acc.calls.foldl (fun s c => s.settleCall c) s1).settleWarm

/-! ## Replies (R415, R416) -/

/-- The words of a reply or notice. -/
def Reply.toWords (r : Reply) : List Word32 :=
  let l := [BitVec.ofNat 32 (r.code % 65536 + r.status % 256 * 65536 + r.dev % 256 * 16777216), BitVec.ofNat 32 (r.tag % 65536)] ++ r.words.take 14
  l ++ List.replicate (8 - l.length) 0

/-- Post a message to a function: its words, LEN and GO. -/
def State.postReply (s : State) (c : Nat) (r : Reply) : State :=
  let ws := r.toWords
  let s1 := ws.zipIdx.foldl (fun s e => s.setReg (Reg.MBX_DATA c e.2) (e.1.setWidth 64)) s
  let s2 := (s1.setF (Fld.MBX_CTL_LEN c) ws.length).mbxGo c
  { s2 with host := { s2.host with inChannel := s2.host.inChannel ++ [r] } }

/-- The next reply of a channel is posted, a REPLIES_LOST notice before all others; one that cannot be delivered waits. -/
def State.postNext (s : State) (p : Nat) (sinter : Bool) : State :=
  let c := replyChannel sinter p
  let lost := Sparse.get natDefault s.host.lost c
  if s.mbx c = mbPosted then s
  else match s.mbxBar c with
    | some r => if lost = 0 ∧ !(s.host.replies.any fun x => x.part == p && x.sinter == sinter) then s
      else s.setFs [(Fld.MBX_STATUS_STATE c, mbRefused), (Fld.MBX_STATUS_REASON c, r)]
    | none =>
      if lost ≠ 0 then
        let s1 := { s with host := { s.host with lost := Sparse.set natDefault s.host.lost c 0 } }
        let n : Reply := { part := p, dev := 0, sinter, code := 0, tag := 0, status := 0, words := [2, w lost], fails := 0 }
        (s1.raise (if sinter then srcSinter else srcFumarole) p clsInfo 0x9003 0 [w p, w lost]).postReply c n
      else match s.host.replies.find? fun x => x.part == p && x.sinter == sinter with
        | none => s
        | some r => ({ s with host := { s.host with replies := s.host.replies.erase r } }).postReply c r

/-- The unit that posts a reply is at work. -/
def State.posts (s : State) (sinter : Bool) : Bool := s.level != lvStarting && !s.pow.warm && (sinter || !s.inRecovery)

/-- REPLY_POST. -/
def execReplyPost (p : Nat) (sinter : Bool) (s : State) : Host.Outcome State Fault Refusal := live s <|
  if 64 ≤ p then .fault (.noSuchUnit p)
  else if !s.posts sinter then .next s
  else .next (s.settle.postNext p sinter)

/-- A forwarded call that a reply from its target ends. -/
def State.forwarded (s : State) (p tag : Nat) : Option Call :=
  s.acc.calls.find? fun c => c.caller.part == p && c.caller.tag == tag && (c.target.isSome || match c.wait with
    | some (.refill _ _ _ _ _) => true
    | some (.reshard _ _) => true
    | _ => false)

/-- FORWARDED_REPLY (R393): a reply of another device; one whose call is gone is discarded.  The members of a re-shard and the spare of a
refill answer firmware's own forwarded calls in the same way. -/
def State.forwardedReply (s : State) (p tag status : Nat) (words : List Word32) : State :=
  match s.forwarded p tag with
  | none => s
  | some c =>
    let setWait (y : CallWait) : State :=
      { s with acc := { s.acc with calls := s.acc.calls.map fun (z : Call) => if z = c then { z with wait := some y } else z } }
    match c.target, c.wait with
    | some d, _ =>
      let s1 := { s with acc := { s.acc with calls := s.acc.calls.filter fun x => !decide (x = c) } }
      if c.caller.session then s1.reply c.caller c.code status words
      else (s1.queueReply { part := p, dev := d, sinter := c.code / 256 == 0xA, code := c.code, tag, status, words, fails := 0 }).releaseHeld
    | none, some (.reshard id left) => if status = svOk then setWait (.reshard id (left - 1)) else setWait .failed
    | none, some (.refill dev spare target t0 k) =>
      if status = svOk then (s.refillEnd p dev spare target t0 k).endCall c svOk [] else s.endCall c svState []
    | none, _ => s
def execForwardedReply (p tag status : Nat) (words : List (BitVec 32)) (s : State) : Host.Outcome State Fault Refusal := live s <|
  if 64 ≤ p then .fault (.noSuchUnit p) else .next (s.forwardedReply p tag status words)

/-! ## SVC_CALL_ABORT (R13, R417) -/

/-- What an abort that wins does to a call that waits; `none` where the call cannot be aborted. -/
def State.abortWait (s : State) (c : Call) (x : CallWait) : Option State :=
  match x with
  | .arrayStop n => some (s.modArr n fun a => { a with stopBit := false })
  | .arrayScrub n =>
    let (x, s1) := s.draw
    some (((s1.modArr n fun a => { a with progs := [none, none, none, none] }).clearOc n (s.ocFirst n)
      (x.toNat % (s.ocSize n / 64 + 1) * 64)).setF (Fld.ARR_VEC_STATUS_BOUND n) 0)
  | .reshard id _ => some ((List.range 64).foldl (fun s k =>
      if (s.plume k).armed.any fun z => z.id == id then s.modPlume k fun p => { p with armed := none } else s) s)
  | .snap _ => some (s.snapAbandon 4)
  | .refill _ _ _ _ _ => some s
  | .refillNext _ _ _ _ _ _ _ => some s
  | .gate l => some (l.foldl (fun s e => s.gateAsk e.1 e.2.1) s)
  | .dormant _ _ => some s
  | .eject => some s
  | .fwWrite slot _ => some (s.slotEmpty slot)
  | .crypt _ dst _ len _ _ _ _ => some (s.cryptAbort c.caller.part dst len)
  | .snapStop id' _ _ _ arrays =>
    let s1 := (s.setFs [(Fld.LOG_SNAP_STATE, 0), (Fld.LOG_SNAP_SCOPE, 0)]).snapFailed id' 4
    some (s1.runOn arrays)
  | _ => none

/-- The reply to a call with this TAG is complete: it waits to be posted, lies in its channel, goes back in a session or to the head that
forwarded the call. -/
def State.replyMade (s : State) (p tag : Nat) : Bool :=
  ((s.host.replies ++ s.host.inChannel ++ s.host.retry ++ s.host.back).any fun r => r.part == p && r.tag == tag && r.code != 0) ||
  s.sec.replies.any fun e => e.1 == p && match e.2 with
    | .call _ r => r.tag == tag
    | _ => false

/-- The abort of a call by its TAG.  Of a call whose completion software has taken nothing is kept: its TAG is unknown (DESIGN CHOICE:
R13 and R417 do not say how long a TAG is remembered). -/
def State.callAbort (s : State) (p tag : Nat) : State × SvcOut :=
  let s1 := s.settle
  match s1.acc.calls.find? fun c => c.caller.part == p && c.caller.tag == tag with
  | none =>
    if s1.replyMade p tag then (s1, .reply svComplete [])
    else (s1, .reply svUnknownTag [])
  | some c =>
    match c.wait with
    | none => (s1, .waits .replied)
    | some x => match s1.abortWait c x with
      | some s2 => (s2.endCall c svAborted [], .ok [])
      | none => (s1, .reply svNotAbortable [])

/-- The abort of a forwarded call is forwarded in the same way (R393). -/
def State.passAbort (s : State) (c : Caller) (tag : Nat) : State :=
  match s.acc.calls.find? fun x => x.is c.part c.tag c.forwarded && x.code == 0x090A && x.wait == some .replied with
  | none => s
  | some a =>
    match (s.acc.calls.find? fun x => x.is c.part tag c.forwarded && x.wait.isNone).bind Call.target with
    | none => s
    | some d =>
      ({ s with acc := { s.acc with calls := s.acc.calls.map fun (z : Call) => if z = a then { z with target := some d, wait := none } else z }
      }).forwardWords d [w (0x090A + 2 ^ 16), w (c.tag % 65536 + d * 2 ^ 16), w tag]

/-- SVC_CALL_ABORT. -/
def execSvcCallAbort (c : Caller) (tag : Nat) (s : State) : Host.Outcome State Fault Refusal := live s <|
  match svcCmd 0x090A false c (fun s => s.callAbort c.part tag) s with
  | .next s1 => .next (s1.passAbort c tag)
  | r => r

end Sys2Proof.Machine
end

