-- ==== Sys2Proof/Machine/Startup.lean ====
section
/-! DEFINITION. The end of start-up (R15, R44, R45, R211, R356, R391, R430, R475, Table 1.11, Example 14.1). -/
namespace Sys2Proof.Machine

/-! ## Fused-off arrays, the retirement list and failed domains (R356) -/

/-- The retirement list names a unit. -/
def State.listed (s : State) (d sub : Nat) : Bool := s.ret.list.contains (d, sub)

/-- An array that stays out of service: fused off, retired, or on an island that failed its test. -/
def State.arrayOut (s : State) (ok n : Nat) : Bool :=
  decide (1 < Config.fuseArray n) || s.listed (n / 4) (n % 4) || bits ok (n / 4) 1 == 0
/-- Arrays of a quadrant of a kind (0 in service as shipped, 1 spare) that work. -/
def State.working (s : State) (ok q kind : Nat) : Nat :=
  ((List.range 36).filter fun i => Config.fuseArray (36 * q + i) == kind && !s.arrayOut ok (36 * q + i)).length

/-- Arrays are RETIRED, and spares of the quadrant stand in. -/
def State.applyArrays (s : State) (ok : Nat) : State :=
  let out := (List.range 144).filter fun n => s.arrayOut ok n
  let stand (q : Nat) : List Nat :=
    ((List.range 36).map (36 * q + ·) |>.filter fun n => Config.fuseArray n == 1 && !s.arrayOut ok n).take (32 - s.working ok q 0)
  let s1 := out.foldl (fun s n => s.setF (Fld.ARR_STATUS_STATE n) stRetired) { s with ret := { s.ret with used := (List.range 4).flatMap stand } }
  if out.all fun n => decide (1 < Config.fuseArray n) then s1
  else
    let used (q : Nat) : Nat := min (32 - s.working ok q 0) (s.working ok q 1)
    let free := (List.range 4).map fun q => s.working ok q 1 - used q
    s1.setFs [(Fld.TOP_CAPS_ARRAYS_IN_SERVICE, ((List.range 4).map fun q => s.working ok q 0 + used q).sum),
      (Fld.TOP_CAPS_SPARES, free.sum), (Fld.TOP_CAPS_SPARE_MIN_Q, free.foldl min (free.headD 0))]

/-- A stack: retired as a whole, or the pseudo-channels that are retired and the segments that went with them (R210 to R212). -/
def State.applyStack (s : State) (ok st : Nat) : State :=
  let pcs := (List.range 64).filter fun pc => s.listed (36 + st) pc
  let whole := s.listed (36 + st) 0xFF || bits ok (36 + st) 1 == 0 || decide (4 < pcs.length)
  let lose (s : State) (k : Nat) : State :=
    (List.range k).foldl (fun s i => { s with mem := { s.mem with lostSeg := setBool s.mem.lostSeg (64 * st + 63 - i) true } }) s
  if whole then lose (s.setFs [(Fld.HBM_STATUS_RETIRED st, 1), (Fld.TOP_CAPS_HBM_STACKS, s.getF Fld.TOP_CAPS_HBM_STACKS - 1)]) 64
  else if pcs.isEmpty then s
  else
    let map := pcs.foldl (fun m pc => if bits m pc 1 = 1 then m - 2 ^ pc else m) (s.getF (Fld.HBM_PC_MAP_IN_SERVICE st))
    lose (s.setFs [(Fld.HBM_PC_MAP_IN_SERVICE st, map), (Fld.HBM_STATUS_PC_RETIRED st, pcs.length)]) pcs.length

/-- A vent, and its lanes. -/
def State.applyVent (s : State) (ok v : Nat) : State :=
  let lanes := (List.range 4).filter fun l => s.listed (64 + v) l
  let s1 := lanes.foldl (fun s l => (s.setF (Fld.VNT_LANE_STAT_RETIRED v l) 1).setBit (Fld.VNT_STATUS_LANES v) l false) s
  if s.listed (48 + v) 0xFF || bits ok (48 + v) 1 == 0 || bits ok (64 + v) 1 == 0 then s1.setF (Fld.VNT_STATUS_RETIRED v) 1 else s1

/-- A domain is in service (TOP_DOMAIN_OK): it has passed its test and is not retired. -/
def State.inService (s : State) (ok d : Nat) : Bool :=
  bits ok d 1 == 1 &&
  (if d < 36 then true
   else if d < 48 then !s.flag (Fld.HBM_STATUS_RETIRED (d - 36))
   else if d < 64 then !s.flag (Fld.VNT_STATUS_RETIRED (d - 48))
   else if d < 80 then !s.flag (Fld.VNT_STATUS_RETIRED (d - 64))
   else true)
def State.setDomains (s : State) (ok : Nat) : State := (List.range 100).foldl (fun t d => t.domainOk d (s.inService ok d)) s

/-- Steps 11 and 12 of Example 14.1. -/
def State.applyUnits (s : State) (ok : Nat) : State :=
  let s0 := { s with mem := { s.mem with lostSeg := [] } }
  let s1 := s0.applyArrays ok
  let s2 := (List.range 12).foldl (fun s st => s.applyStack ok st) s1
  let s3 := (List.range 16).foldl (fun s v => s.applyVent ok v) s2
  (s3.setDomains ok).syncZero

/-! ## The level (R44, R45, Table 1.11) -/

def State.startLevel (s : State) : Nat :=
  if s.lifecycle = lcDecommissioned ∨ !((List.range 12).any fun i => s.dOk (36 + i)) ∨ !((List.range 36).any s.dOk) ∨
     s.getF Fld.TOP_CAPS_ARRAYS_IN_SERVICE = 0 then lvMinimal
  else if ((List.range 100).all s.dOk) && s.getF Fld.TOP_CAPS_ARRAYS_IN_SERVICE == 128 && (s.ret.list.all fun e => decide (e.1 < 36)) then lvFull
  else lvDegraded

/-! ## What firmware sets up -/

/-- The conduit table (R218) goes into the highest 1 GiB segment that there is, which firmware withholds (DESIGN CHOICE). -/
def State.placeTable (s : State) : State :=
  match ((List.range 768).reverse).find? fun t => !getBool s.mem.lostSeg t with
  | none => s
  | some t => (s.setFs [(Fld.CND_TABLE_BASE_BASE, t * 16), (Fld.CND_TABLE_BASE_ENABLE, 1)]).withhold (t * gib) gib

/-- At the basic level firmware applies the cooling class of its configuration and sets the CLK, PWR, FRZ and HBM locks. -/
def State.basicLocks (s : State) : State :=
  if Config.basicLevel then s.setFs [(Fld.PWR_CFG_COOLING, if Config.liquidCooled then 1 else 0), (Fld.HBM_LOCK_LOCK, 1), (Fld.CLK_LOCK_LOCK, 1), (Fld.PWR_LOCK_LOCK, 1), (Fld.FRZ_LOCK_LOCK, 1)] else s

/-- A release erase that was interrupted is completed first (R430). -/
def State.finishErase (s : State) : State := match s.sec.erase with
  | some next => s.eraseEnd next
  | none => s

/-- Start-up is at its last steps: clocks locked, RESET_N high, and the firmware has booted. -/
def State.startReady (s : State) : Bool :=
  s.pow.state == .starting && s.pow.refclk && s.pow.locked && !s.pow.resetLow && s.fw.boot.isNone && s.level == lvStarting

/-- Messages to the fumarole that were posted in STARTING have their time from now (R416). -/
def State.mailFromNow (s : State) : State :=
  { s with host := { s.host with postedAt := (List.range 64).foldl (fun l c =>
      if s.mbx c = mbPosted then Sparse.set natDefault l c s.time else l) s.host.postedAt } }

/-- Start-up ends: the events of R475 and R476, and the level. -/
def State.startEnd (s0 : State) : State :=
  let s := s0.mailFromNow
  let s1 := { s with pow := { s.pow with state := .running, startupNs := s.time - s.pow.startedAt, heldUs := none } }
  let s2 := match s.pow.heldUs with
    | some us => s1.raise srcPower wholeDevice clsInfo 0xB001 0 [2, w us]
    | none => s1
  s2.setLevel s2.startLevel 0

/-- STARTUP_COMPLETE: `ok` has a bit for each domain that passed its start-up test.  A device whose MINIMAL set is not whole offers no service
(R45): it does not leave STARTING. -/
def execStartupComplete (ok : Nat) (s : State) : Host.Outcome State Fault Refusal := live s <|
  if !s.startReady then .next s
  else
    let s1 := s.finishErase.applyUnits ok
    if !s1.minimalSet then .next s1.minimalCheck
    else
      let s2 := s1.placeTable.basicLocks
      let s3 := match s2.fw.group with
        | some g => s2.applyRecord g
        | none => s2
      .next s3.startEnd

end Sys2Proof.Machine
end

