-- ==== Sys2Proof/Machine/Dispatch.lean ====
section
/-! DEFINITION. What each command does: one arm per constructor. -/
namespace Sys2Proof.Machine

def exec (i : Instr) (s : State) : Host.Outcome State Fault Refusal :=
  match i with
  | .nop n f => Sys2Proof.Machine.execNop n f s
  | .jmp n f => Sys2Proof.Machine.execJmp n f s
  | .jmpr n f => Sys2Proof.Machine.execJmpr n f s
  | .brEq n f => Sys2Proof.Machine.execBrEq n f s
  | .brNe n f => Sys2Proof.Machine.execBrNe n f s
  | .brLt n f => Sys2Proof.Machine.execBrLt n f s
  | .brGe n f => Sys2Proof.Machine.execBrGe n f s
  | .brLtu n f => Sys2Proof.Machine.execBrLtu n f s
  | .brGeu n f => Sys2Proof.Machine.execBrGeu n f s
  | .halt n f => Sys2Proof.Machine.execHalt n f s
  | .brk n f => Sys2Proof.Machine.execBrk n f s
  | .yield n f => Sys2Proof.Machine.execYield n f s
  | .add n f => Sys2Proof.Machine.execAdd n f s
  | .sub n f => Sys2Proof.Machine.execSub n f s
  | .mul n f => Sys2Proof.Machine.execMul n f s
  | .mulh n f => Sys2Proof.Machine.execMulh n f s
  | .and n f => Sys2Proof.Machine.execAnd n f s
  | .or n f => Sys2Proof.Machine.execOr n f s
  | .xor n f => Sys2Proof.Machine.execXor n f s
  | .shl n f => Sys2Proof.Machine.execShl n f s
  | .shr n f => Sys2Proof.Machine.execShr n f s
  | .sra n f => Sys2Proof.Machine.execSra n f s
  | .min n f => Sys2Proof.Machine.execMin n f s
  | .max n f => Sys2Proof.Machine.execMax n f s
  | .minu n f => Sys2Proof.Machine.execMinu n f s
  | .maxu n f => Sys2Proof.Machine.execMaxu n f s
  | .movi n f => Sys2Proof.Machine.execMovi n f s
  | .slt n f => Sys2Proof.Machine.execSlt n f s
  | .sltu n f => Sys2Proof.Machine.execSltu n f s
  | .aadd n f => Sys2Proof.Machine.execAadd n f s
  | .amov n f => Sys2Proof.Machine.execAmov n f s
  | .aset n f => Sys2Proof.Machine.execAset n f s
  | .afab n f => Sys2Proof.Machine.execAfab n f s
  | .smov n f => Sys2Proof.Machine.execSmov n f s
  | .sregRd n f => Sys2Proof.Machine.execSregRd n f s
  | .sregWr n f => Sys2Proof.Machine.execSregWr n f s
  | .vlSet n f => Sys2Proof.Machine.execVlSet n f s
  | .ocLoad n f => Sys2Proof.Machine.execOcLoad n f s
  | .ocStore n f => Sys2Proof.Machine.execOcStore n f s
  | .ocPref n f => Sys2Proof.Machine.execOcPref n f s
  | .ocEvict n f => Sys2Proof.Machine.execOcEvict n f s
  | .vld n f u => Sys2Proof.Machine.execVld n f u s
  | .vst n f => Sys2Proof.Machine.execVst n f s
  | .sld n f u => Sys2Proof.Machine.execSld n f u s
  | .sst n f => Sys2Proof.Machine.execSst n f s
  | .pld n f u => Sys2Proof.Machine.execPld n f u s
  | .pst n f => Sys2Proof.Machine.execPst n f s
  | .mma n f u m => Sys2Proof.Machine.execMma n f u m s
  | .accOpen n f => Sys2Proof.Machine.execAccOpen n f s
  | .accClose n f => Sys2Proof.Machine.execAccClose n f s
  | .accDrain n f => Sys2Proof.Machine.execAccDrain n f s
  | .drainStart n corrected uncorrectable => Sys2Proof.Machine.execDrainStart n corrected uncorrectable s
  | .vadd n f => Sys2Proof.Machine.execVadd n f s
  | .vsub n f => Sys2Proof.Machine.execVsub n f s
  | .vmul n f => Sys2Proof.Machine.execVmul n f s
  | .vfma n f => Sys2Proof.Machine.execVfma n f s
  | .vfms n f => Sys2Proof.Machine.execVfms n f s
  | .vmin n f => Sys2Proof.Machine.execVmin n f s
  | .vmax n f => Sys2Proof.Machine.execVmax n f s
  | .vabs n f => Sys2Proof.Machine.execVabs n f s
  | .vneg n f => Sys2Proof.Machine.execVneg n f s
  | .vand n f => Sys2Proof.Machine.execVand n f s
  | .vor n f => Sys2Proof.Machine.execVor n f s
  | .vxor n f => Sys2Proof.Machine.execVxor n f s
  | .vshl n f => Sys2Proof.Machine.execVshl n f s
  | .vshr n f => Sys2Proof.Machine.execVshr n f s
  | .vsel n f => Sys2Proof.Machine.execVsel n f s
  | .vdup n f => Sys2Proof.Machine.execVdup n f s
  | .vdiv n f => Sys2Proof.Machine.execVdiv n f s
  | .vrcp n f => Sys2Proof.Machine.execVrcp n f s
  | .vsqrt n f => Sys2Proof.Machine.execVsqrt n f s
  | .vrsq n f => Sys2Proof.Machine.execVrsq n f s
  | .vexp2 n f => Sys2Proof.Machine.execVexp2 n f s
  | .vlog2 n f => Sys2Proof.Machine.execVlog2 n f s
  | .vcmpEq n f => Sys2Proof.Machine.execVcmpEq n f s
  | .vcmpLt n f => Sys2Proof.Machine.execVcmpLt n f s
  | .vcmpLe n f => Sys2Proof.Machine.execVcmpLe n f s
  | .perm n f => Sys2Proof.Machine.execPerm n f s
  | .shuf n f => Sys2Proof.Machine.execShuf n f s
  | .pack n f => Sys2Proof.Machine.execPack n f s
  | .unpack n f => Sys2Proof.Machine.execUnpack n f s
  | .bcastRow n f u => Sys2Proof.Machine.execBcastRow n f u s
  | .bcastCol n f u => Sys2Proof.Machine.execBcastCol n f u s
  | .vredSum n f => Sys2Proof.Machine.execVredSum n f s
  | .vredMax n f => Sys2Proof.Machine.execVredMax n f s
  | .vredMin n f => Sys2Proof.Machine.execVredMin n f s
  | .vredAmax n f => Sys2Proof.Machine.execVredAmax n f s
  | .cvt n f => Sys2Proof.Machine.execCvt n f s
  | .cvtT n f u => Sys2Proof.Machine.execCvtT n f u s
  | .eprogLoad n f u => Sys2Proof.Machine.execEprogLoad n f u s
  | .eprogRun n f u => Sys2Proof.Machine.execEprogRun n f u s
  | .scalePick n f => Sys2Proof.Machine.execScalePick n f s
  | .geyInc n f => Sys2Proof.Machine.execGeyInc n f s
  | .geyWait n f => Sys2Proof.Machine.execGeyWait n f s
  | .geyRead n f => Sys2Proof.Machine.execGeyRead n f s
  | .cndPost n f => Sys2Proof.Machine.execCndPost n f s
  | .cndTake n f => Sys2Proof.Machine.execCndTake n f s
  | .put n f => Sys2Proof.Machine.execPut n f s
  | .get n f => Sys2Proof.Machine.execGet n f s
  | .atomAdd n f => Sys2Proof.Machine.execAtomAdd n f s
  | .atomMin n f => Sys2Proof.Machine.execAtomMin n f s
  | .atomMax n f => Sys2Proof.Machine.execAtomMax n f s
  | .atomSwap n f => Sys2Proof.Machine.execAtomSwap n f s
  | .atomCas n f => Sys2Proof.Machine.execAtomCas n f s
  | .fence n f => Sys2Proof.Machine.execFence n f s
  | .groupCommit n => Sys2Proof.Machine.execGroupCommit n s
  | .deferredRelease n => Sys2Proof.Machine.execDeferredRelease n s
  | .transientUpset n => Sys2Proof.Machine.execTransientUpset n s
  | .preemptionRequest n part larray => Sys2Proof.Machine.execPreemptionRequest n part larray s
  | .contextRestore save => Sys2Proof.Machine.execContextRestore save s
  | .arrCtlStart rq n => Sys2Proof.Machine.execArrCtlStart rq n s
  | .arrCtlResume rq n => Sys2Proof.Machine.execArrCtlResume rq n s
  | .arrCtlStop rq n => Sys2Proof.Machine.execArrCtlStop rq n s
  | .arrCtlStep rq n => Sys2Proof.Machine.execArrCtlStep rq n s
  | .arrCtlSave rq n => Sys2Proof.Machine.execArrCtlSave rq n s
  | .autoIdleTimeout isl => Sys2Proof.Machine.execAutoIdleTimeout isl s
  | .registerWrite rq bar0 off width value => Sys2Proof.Machine.execRegisterWrite rq bar0 off width value s
  | .registerReadClearing rq bar0 off width => Sys2Proof.Machine.execRegisterReadClearing rq bar0 off width s
  | .eventRecordPost source dest => Sys2Proof.Machine.execEventRecordPost source dest s
  | .eventCreditTimeout source dest => Sys2Proof.Machine.execEventCreditTimeout source dest s
  | .hbmLineAccess part addr op c => Sys2Proof.Machine.execHbmLineAccess part addr op c s
  | .patrolScrub st line c => Sys2Proof.Machine.execPatrolScrub st line c s
  | .pcRetirementCopyEnd st corrected poisoned => Sys2Proof.Machine.execPcRetirementCopyEnd st corrected poisoned s
  | .geyIncrementApply => Sys2Proof.Machine.execGeyIncrementApply s
  | .geyRegisterWrite rq g which value => Sys2Proof.Machine.execGeyRegisterWrite rq g which value s
  | .geyPostAction g => Sys2Proof.Machine.execGeyPostAction g s
  | .cndCmdPost rq p c => Sys2Proof.Machine.execCndCmdPost rq p c s
  | .cndCmdTake rq p c => Sys2Proof.Machine.execCndCmdTake rq p c s
  | .cndFlushWriteback rq all c => Sys2Proof.Machine.execCndFlushWriteback rq all c s
  | .cndFlushHold rq all c => Sys2Proof.Machine.execCndFlushHold rq all c s
  | .cndFlushRelease rq all c => Sys2Proof.Machine.execCndFlushRelease rq all c s
  | .rmoEntryTake take => Sys2Proof.Machine.execRmoEntryTake take s
  | .rmoComplete id => Sys2Proof.Machine.execRmoComplete id s
  | .zrtFrameSend d v k => Sys2Proof.Machine.execZrtFrameSend d v k s
  | .zrtData v f => Sys2Proof.Machine.execZrtData v f s
  | .zrtAck v f => Sys2Proof.Machine.execZrtAck v f s
  | .zrtOpen v f => Sys2Proof.Machine.execZrtOpen v f s
  | .zrtOpenAck v f => Sys2Proof.Machine.execZrtOpenAck v f s
  | .zrtClose v f => Sys2Proof.Machine.execZrtClose v f s
  | .zrtCloseAck v f => Sys2Proof.Machine.execZrtCloseAck v f s
  | .zrtProbe v f => Sys2Proof.Machine.execZrtProbe v f s
  | .zrtProbeReply v f => Sys2Proof.Machine.execZrtProbeReply v f s
  | .rtoExpiry d v => Sys2Proof.Machine.execRtoExpiry d v s
  | .ackDelayExpiry d v => Sys2Proof.Machine.execAckDelayExpiry d v s
  | .ratePeriodTick d v => Sys2Proof.Machine.execRatePeriodTick d v s
  | .probeIntervalTick d v => Sys2Proof.Machine.execProbeIntervalTick d v s
  | .pathIdleProbe d v => Sys2Proof.Machine.execPathIdleProbe d v s
  | .opTimeoutExpiry id => Sys2Proof.Machine.execOpTimeoutExpiry id s
  | .pathEntryValid d v => Sys2Proof.Machine.execPathEntryValid d v s
  | .pathEntryInvalid d v => Sys2Proof.Machine.execPathEntryInvalid d v s
  | .rs k => Sys2Proof.Machine.execRs k s
  | .ag k => Sys2Proof.Machine.execAg k s
  | .gather k reply => Sys2Proof.Machine.execGather k reply s
  | .ar k => Sys2Proof.Machine.execAr k s
  | .bcast k => Sys2Proof.Machine.execBcast k s
  | .release k => Sys2Proof.Machine.execRelease k s
  | .escrow k => Sys2Proof.Machine.execEscrow k s
  | .permute k z join => Sys2Proof.Machine.execPermute k z join s
  | .wait k => Sys2Proof.Machine.execWait k s
  | .signal k => Sys2Proof.Machine.execSignal k s
  | .flip k => Sys2Proof.Machine.execFlip k s
  | .loop k => Sys2Proof.Machine.execLoop k s
  | .endPlume k => Sys2Proof.Machine.execEndPlume k s
  | .plmCtlStart rq k => Sys2Proof.Machine.execPlmCtlStart rq k s
  | .plmCtlAbort rq k => Sys2Proof.Machine.execPlmCtlAbort rq k s
  | .joinRecord k pos id npos crc => Sys2Proof.Machine.execJoinRecord k pos id npos crc s
  | .plmSegmentArrive k j m rep => Sys2Proof.Machine.execPlmSegmentArrive k j m rep s
  | .reducerAdd k larray => Sys2Proof.Machine.execReducerAdd k larray s
  | .lateDecision k b => Sys2Proof.Machine.execLateDecision k b s
  | .positionStatusRecord k pos b taken rep => Sys2Proof.Machine.execPositionStatusRecord k pos b taken rep s
  | .gatherRequest k pos b version addr => Sys2Proof.Machine.execGatherRequest k pos b version addr s
  | .versionRetire k b => Sys2Proof.Machine.execVersionRetire k b s
  | .plmHopTimeoutExpiry k pos => Sys2Proof.Machine.execPlmHopTimeoutExpiry k pos s
  | .plmAbortNotice k pos => Sys2Proof.Machine.execPlmAbortNotice k pos s
  | .attemptBegin j => Sys2Proof.Machine.execAttemptBegin j s
  | .attemptCommit j => Sys2Proof.Machine.execAttemptCommit j s
  | .attemptAbort j => Sys2Proof.Machine.execAttemptAbort j s
  | .prfStepEnable rq j value => Sys2Proof.Machine.execPrfStepEnable rq j value s
  | .appendDescriptor p => Sys2Proof.Machine.execAppendDescriptor p s
  | .logRecordAccept => Sys2Proof.Machine.execLogRecordAccept s
  | .logBlockWritten => Sys2Proof.Machine.execLogBlockWritten s
  | .mirrorBlockArrive origin first data => Sys2Proof.Machine.execMirrorBlockArrive origin first data s
  | .mirrorAck first => Sys2Proof.Machine.execMirrorAck first s
  | .mirrorTimeout => Sys2Proof.Machine.execMirrorTimeout s
  | .snapshotDrainEnd => Sys2Proof.Machine.execSnapshotDrainEnd s
  | .upsetWindowEnd => Sys2Proof.Machine.execUpsetWindowEnd s
  | .arrayRefill => Sys2Proof.Machine.execArrayRefill s
  | .frameReceive v n f => Sys2Proof.Machine.execFrameReceive v n f s
  | .frameTransmitStart v n buffered => Sys2Proof.Machine.execFrameTransmitStart v n buffered s
  | .transmitUnderrun v n => Sys2Proof.Machine.execTransmitUnderrun v n s
  | .portLinkUp v n failed => Sys2Proof.Machine.execPortLinkUp v n failed s
  | .portLinkDown v n cause errs => Sys2Proof.Machine.execPortLinkDown v n cause errs s
  | .vntEnable rq v on => Sys2Proof.Machine.execVntEnable rq v on s
  | .vntCtlReset rq v => Sys2Proof.Machine.execVntCtlReset rq v s
  | .vntPtpFifoPop rq v => Sys2Proof.Machine.execVntPtpFifoPop rq v s
  | .wakeDetectorArm => Sys2Proof.Machine.execWakeDetectorArm s
  | .wakePatternMatch bursts => Sys2Proof.Machine.execWakePatternMatch bursts s
  | .apertureRead f off len ide => Sys2Proof.Machine.execApertureRead f off len ide s
  | .apertureWrite f off data ide => Sys2Proof.Machine.execApertureWrite f off data ide s
  | .pciGeyInc f g amount => Sys2Proof.Machine.execPciGeyInc f g amount s
  | .pcieConfigRequest f r => Sys2Proof.Machine.execPcieConfigRequest f r s
  | .pcieLinkUp gen width => Sys2Proof.Machine.execPcieLinkUp gen width s
  | .pcieLinkDown => Sys2Proof.Machine.execPcieLinkDown s
  | .perstN => Sys2Proof.Machine.execPerstN s
  | .hotReset => Sys2Proof.Machine.execHotReset s
  | .flr f => Sys2Proof.Machine.execFlr f s
  | .vfEnableClear => Sys2Proof.Machine.execVfEnableClear s
  | .irqCoalesceExpiry f v => Sys2Proof.Machine.execIrqCoalesceExpiry f v s
  | .mbxGo c len words => Sys2Proof.Machine.execMbxGo c len words s
  | .mbxTake c => Sys2Proof.Machine.execMbxTake c s
  | .mbxTimeoutExpiry c => Sys2Proof.Machine.execMbxTimeoutExpiry c s
  | .dblRing rq f bells => Sys2Proof.Machine.execDblRing rq f bells s
  | .replyPost p sinter => Sys2Proof.Machine.execReplyPost p sinter s
  | .forwardedReply p tag status words => Sys2Proof.Machine.execForwardedReply p tag status words s
  | .svcDeviceSet c dev rack => Sys2Proof.Machine.execSvcDeviceSet c dev rack s
  | .svcEventRoute c ring log2 => Sys2Proof.Machine.execSvcEventRoute c ring log2 s
  | .svcDeviceQuery c => Sys2Proof.Machine.execSvcDeviceQuery c s
  | .svcNumQuery c bank clear => Sys2Proof.Machine.execSvcNumQuery c bank clear s
  | .svcNumEventSet c bank mask => Sys2Proof.Machine.execSvcNumEventSet c bank mask s
  | .svcAmaxTableSet c bank base countM1 => Sys2Proof.Machine.execSvcAmaxTableSet c bank base countM1 s
  | .svcArrayLoad c src len dst => Sys2Proof.Machine.execSvcArrayLoad c src len dst s
  | .svcArrayStart c l pc cnd => Sys2Proof.Machine.execSvcArrayStart c l pc cnd s
  | .svcArrayStop c l => Sys2Proof.Machine.execSvcArrayStop c l s
  | .svcArrayResume c l pc => Sys2Proof.Machine.execSvcArrayResume c l pc s
  | .svcArrayQuery c l => Sys2Proof.Machine.execSvcArrayQuery c l s
  | .svcArrayDump c l => Sys2Proof.Machine.execSvcArrayDump c l s
  | .svcAccReserve c p l first count => Sys2Proof.Machine.execSvcAccReserve c p l first count s
  | .svcAccQuery c l => Sys2Proof.Machine.execSvcAccQuery c l s
  | .svcAccDebugRead c l first count buf => Sys2Proof.Machine.execSvcAccDebugRead c l first count buf s
  | .svcEprogCheck c addr => Sys2Proof.Machine.execSvcEprogCheck c addr s
  | .svcOcQuery c l => Sys2Proof.Machine.execSvcOcQuery c l s
  | .svcOcScrub c l => Sys2Proof.Machine.execSvcOcScrub c l s
  | .svcHbmQuery c buf => Sys2Proof.Machine.execSvcHbmQuery c buf s
  | .svcOcReserve c p l first units => Sys2Proof.Machine.execSvcOcReserve c p l first units s
  | .svcCndCreate c kind log2 ring cls notify => Sys2Proof.Machine.execSvcCndCreate c kind log2 ring cls notify s
  | .svcCndDestroy c d => Sys2Proof.Machine.execSvcCndDestroy c d s
  | .svcCndQuery c d => Sys2Proof.Machine.execSvcCndQuery c d s
  | .svcGeySet c g target act0 act1 => Sys2Proof.Machine.execSvcGeySet c g target act0 act1 s
  | .svcGeyQuery c first count buf => Sys2Proof.Machine.execSvcGeyQuery c first count buf s
  | .svcZrtSet c base pool rto limits ack rate group cfg => Sys2Proof.Machine.execSvcZrtSet c base pool rto limits ack rate group cfg s
  | .svcZrtPeerSet c d l => Sys2Proof.Machine.execSvcZrtPeerSet c d l s
  | .svcZrtPeerQuery c d buf => Sys2Proof.Machine.execSvcZrtPeerQuery c d buf s
  | .svcRmoSubmit c opc fmt len fabric loc operand compare cw => Sys2Proof.Machine.execSvcRmoSubmit c opc fmt len fabric loc operand compare cw s
  | .svcRmoAbort c d tag buf => Sys2Proof.Machine.execSvcRmoAbort c d tag buf s
  | .svcPlmCreate c quadrant desc => Sys2Proof.Machine.execSvcPlmCreate c quadrant desc s
  | .svcPlmStart c k step deadline hop => Sys2Proof.Machine.execSvcPlmStart c k step deadline hop s
  | .svcPlmAbort c k => Sys2Proof.Machine.execSvcPlmAbort c k s
  | .svcPlmQuery c k first count buf => Sys2Proof.Machine.execSvcPlmQuery c k first count buf s
  | .svcPlmDestroy c k => Sys2Proof.Machine.execSvcPlmDestroy c k s
  | .svcPlmReshard c k ring lost arrays => Sys2Proof.Machine.execSvcPlmReshard c k ring lost arrays s
  | .svcStepBankSet c p => Sys2Proof.Machine.execSvcStepBankSet c p s
  | .svcStepConfig c cfg gey mark end0 end1 step => Sys2Proof.Machine.execSvcStepConfig c cfg gey mark end0 end1 step s
  | .svcStepAbort c => Sys2Proof.Machine.execSvcStepAbort c s
  | .svcStepQuery c first count buf => Sys2Proof.Machine.execSvcStepQuery c first count buf s
  | .svcAmaxQuery c first count buf => Sys2Proof.Machine.execSvcAmaxQuery c first count buf s
  | .svcLogSet c ctl area buf stage prot thr0 thr1 window => Sys2Proof.Machine.execSvcLogSet c ctl area buf stage prot thr0 thr1 window s
  | .svcLogAppend c type len addr => Sys2Proof.Machine.execSvcLogAppend c type len addr s
  | .svcLogRead c first last origin buf cap => Sys2Proof.Machine.execSvcLogRead c first last origin buf cap s
  | .svcBuddySet c k buf => Sys2Proof.Machine.execSvcBuddySet c k buf s
  | .svcProtSet c base count => Sys2Proof.Machine.execSvcProtSet c base count s
  | .svcSnapTake c scope group => Sys2Proof.Machine.execSvcSnapTake c scope group s
  | .svcSnapAbort c => Sys2Proof.Machine.execSvcSnapAbort c s
  | .svcRefill c k lost spare step f paths arrays => Sys2Proof.Machine.execSvcRefill c k lost spare step f paths arrays s
  | .svcShadowRestore c ranges agree halves => Sys2Proof.Machine.execSvcShadowRestore c ranges agree halves s
  | .svcReplaySet c range buf => Sys2Proof.Machine.execSvcReplaySet c range buf s
  | .svcRetireQuery c buf => Sys2Proof.Machine.execSvcRetireQuery c buf s
  | .svcRetireClear c domain sub => Sys2Proof.Machine.execSvcRetireClear c domain sub s
  | .svcVntSet c l => Sys2Proof.Machine.execSvcVntSet c l s
  | .svcVntQuery c vs buf => Sys2Proof.Machine.execSvcVntQuery c vs buf s
  | .svcVntMacsecSet c v cfg saks => Sys2Proof.Machine.execSvcVntMacsecSet c v cfg saks s
  | .svcPtpSet c v port transport domain => Sys2Proof.Machine.execSvcPtpSet c v port transport domain s
  | .svcVntWakeSet c cfg times => Sys2Proof.Machine.execSvcVntWakeSet c cfg times s
  | .svcPartCreate c image => Sys2Proof.Machine.execSvcPartCreate c image s
  | .svcPartDestroy c p => Sys2Proof.Machine.execSvcPartDestroy c p s
  | .svcPartReset c p => Sys2Proof.Machine.execSvcPartReset c p s
  | .svcPartQuery c p buf => Sys2Proof.Machine.execSvcPartQuery c p buf s
  | .svcPartGrant c g => Sys2Proof.Machine.execSvcPartGrant c g s
  | .svcQosSet c p array hbm vent cnd sched => Sys2Proof.Machine.execSvcQosSet c p array hbm vent cnd sched s
  | .svcIrqSet c maxCount maxDelay vector => Sys2Proof.Machine.execSvcIrqSet c maxCount maxDelay vector s
  | .svcGroupSet c l => Sys2Proof.Machine.execSvcGroupSet c l s
  | .svcGroupQuery c buf => Sys2Proof.Machine.execSvcGroupQuery c buf s
  | .svcCallAbort c tag => Sys2Proof.Machine.execSvcCallAbort c tag s
  | .svcPerfSet c copy => Sys2Proof.Machine.execSvcPerfSet c copy s
  | .svcPerfQuery c p => Sys2Proof.Machine.execSvcPerfQuery c p s
  | .svcDblSet c mask clear => Sys2Proof.Machine.execSvcDblSet c mask clear s
  | .svcSecQuery c buf => Sys2Proof.Machine.execSvcSecQuery c buf s
  | .svcSecNonce c => Sys2Proof.Machine.execSvcSecNonce c s
  | .svcSecOwn c v => Sys2Proof.Machine.execSvcSecOwn c v s
  | .svcSecRelease c sig => Sys2Proof.Machine.execSvcSecRelease c sig s
  | .svcSecLifecycle c target owner mehrop => Sys2Proof.Machine.execSvcSecLifecycle c target owner mehrop s
  | .svcSecGroupKey c sig key => Sys2Proof.Machine.execSvcSecGroupKey c sig key s
  | .svcSecCakSet c sig vs => Sys2Proof.Machine.execSvcSecCakSet c sig vs s
  | .svcSecImport c slot src dst len nonce aad tag => Sys2Proof.Machine.execSvcSecImport c slot src dst len nonce aad tag s
  | .svcSecExport c slot src dst len aad => Sys2Proof.Machine.execSvcSecExport c slot src dst len aad s
  | .svcSecDebugArm c t => Sys2Proof.Machine.execSvcSecDebugArm c t s
  | .svcSecDebugDisarm c => Sys2Proof.Machine.execSvcSecDebugDisarm c s
  | .getVersion p => Sys2Proof.Machine.execGetVersion p s
  | .getCapabilities p => Sys2Proof.Machine.execGetCapabilities p s
  | .negotiateAlgorithms p => Sys2Proof.Machine.execNegotiateAlgorithms p s
  | .getDigests p => Sys2Proof.Machine.execGetDigests p s
  | .getCertificate p slot => Sys2Proof.Machine.execGetCertificate p slot s
  | .challenge p slot => Sys2Proof.Machine.execChallenge p slot s
  | .getMeasurements p id index => Sys2Proof.Machine.execGetMeasurements p id index s
  | .keyExchange p => Sys2Proof.Machine.execKeyExchange p s
  | .finish p id valid owner => Sys2Proof.Machine.execFinish p id valid owner s
  | .heartbeat p id => Sys2Proof.Machine.execHeartbeat p id s
  | .keyUpdate p id => Sys2Proof.Machine.execKeyUpdate p id s
  | .endSession p id => Sys2Proof.Machine.execEndSession p id s
  | .spdmFragment p n first last data => Sys2Proof.Machine.execSpdmFragment p n first last data s
  | .ideKm p id stream limit => Sys2Proof.Machine.execIdeKm p id stream limit s
  | .keyImport p id slot key => Sys2Proof.Machine.execKeyImport p id slot key s
  | .keyDelete p id slot => Sys2Proof.Machine.execKeyDelete p id slot s
  | .policySet p id first count aperture netExpose migrate => Sys2Proof.Machine.execPolicySet p id first count aperture netExpose migrate s
  | .seal p id => Sys2Proof.Machine.execSeal p id s
  | .consent p id digest => Sys2Proof.Machine.execConsent p id digest s
  | .call p id words => Sys2Proof.Machine.execCall p id words s
  | .svcClkSet c l buf => Sys2Proof.Machine.execSvcClkSet c l buf s
  | .svcClkGate c l => Sys2Proof.Machine.execSvcClkGate c l s
  | .svcPwrSet c cap autoIdle therm => Sys2Proof.Machine.execSvcPwrSet c cap autoIdle therm s
  | .svcPwrQuery c buf => Sys2Proof.Machine.execSvcPwrQuery c buf s
  | .svcPwrDormant c => Sys2Proof.Machine.execSvcPwrDormant c s
  | .svcRstArray c n => Sys2Proof.Machine.execSvcRstArray c n s
  | .svcRstVent c v => Sys2Proof.Machine.execSvcRstVent c v s
  | .svcRstWarm c => Sys2Proof.Machine.execSvcRstWarm c s
  | .svcFrzSet c cfg mac ipHi ipLo lock => Sys2Proof.Machine.execSvcFrzSet c cfg mac ipHi ipLo lock s
  | .rstArrayGo rq n => Sys2Proof.Machine.execRstArrayGo rq n s
  | .rstVentGo rq v => Sys2Proof.Machine.execRstVentGo rq v s
  | .rstWarmKey rq key => Sys2Proof.Machine.execRstWarmKey rq key s
  | .frzCtlTrigger rq => Sys2Proof.Machine.execFrzCtlTrigger rq s
  | .clkGateWrite rq k value => Sys2Proof.Machine.execClkGateWrite rq k value s
  | .gateTakeEffect d => Sys2Proof.Machine.execGateTakeEffect d s
  | .powerOnReset tj => Sys2Proof.Machine.execPowerOnReset tj s
  | .startupComplete ok => Sys2Proof.Machine.execStartupComplete ok s
  | .v54Fail us => Sys2Proof.Machine.execV54Fail us s
  | .resetN ns tj => Sys2Proof.Machine.execResetN ns tj s
  | .freezeN ns stays => Sys2Proof.Machine.execFreezeN ns stays s
  | .wakeN us => Sys2Proof.Machine.execWakeN us s
  | .refclkPresent => Sys2Proof.Machine.execRefclkPresent s
  | .refclkLoss => Sys2Proof.Machine.execRefclkLoss s
  | .refclkReturn heldUs => Sys2Proof.Machine.execRefclkReturn heldUs s
  | .trimMeasurement trim err => Sys2Proof.Machine.execTrimMeasurement trim err s
  | .ptpLock ns => Sys2Proof.Machine.execPtpLock ns s
  | .powerSample p1 p100 energy => Sys2Proof.Machine.execPowerSample p1 p100 energy s
  | .thermalSample sensor tj hbm => Sys2Proof.Machine.execThermalSample sensor tj hbm s
  | .thermalTrip tj => Sys2Proof.Machine.execThermalTrip tj s
  | .readoutDatagram => Sys2Proof.Machine.execReadoutDatagram s
  | .extest cells => Sys2Proof.Machine.execExtest cells s
  | .idcode => Sys2Proof.Machine.execIdcode s
  | .samplePreload cells => Sys2Proof.Machine.execSamplePreload cells s
  | .rdoutStatus => Sys2Proof.Machine.execRdoutStatus s
  | .rdoutStream k => Sys2Proof.Machine.execRdoutStream k s
  | .bypass => Sys2Proof.Machine.execBypass s
  | .tapPrivate code => Sys2Proof.Machine.execTapPrivate code s
  | .trstN => Sys2Proof.Machine.execTrstN s
  | .entdaa addr => Sys2Proof.Machine.execEntdaa addr s
  | .setdasa static addr => Sys2Proof.Machine.execSetdasa static addr s
  | .rstdaa => Sys2Proof.Machine.execRstdaa s
  | .getpid addr => Sys2Proof.Machine.execGetpid addr s
  | .getbcr addr => Sys2Proof.Machine.execGetbcr addr s
  | .getdcr addr => Sys2Proof.Machine.execGetdcr addr s
  | .getstatus addr => Sys2Proof.Machine.execGetstatus addr s
  | .getmxds addr => Sys2Proof.Machine.execGetmxds addr s
  | .i3cPrivateWrite addr data => Sys2Proof.Machine.execI3cPrivateWrite addr data s
  | .i3cPrivateRead addr k => Sys2Proof.Machine.execI3cPrivateRead addr k s
  | .i3cWindowUpdate => Sys2Proof.Machine.execI3cWindowUpdate s
  | .bootOk => Sys2Proof.Machine.execBootOk s
  | .bootTimeout => Sys2Proof.Machine.execBootTimeout s
  | .bootTrap => Sys2Proof.Machine.execBootTrap s
  | .svcFwQuery c buf => Sys2Proof.Machine.execSvcFwQuery c buf s
  | .svcFwUpdate c im ap => Sys2Proof.Machine.execSvcFwUpdate c im ap s
  | .svcFwCancel c => Sys2Proof.Machine.execSvcFwCancel c s
  | .svcFwConfirm c sig => Sys2Proof.Machine.execSvcFwConfirm c sig s
  | .svcFwPolicySet c sig minVersion approval => Sys2Proof.Machine.execSvcFwPolicySet c sig minVersion approval s
  | .svcFwRecovery c sig => Sys2Proof.Machine.execSvcFwRecovery c sig s
  | .rcvBegin tag len => Sys2Proof.Machine.execRcvBegin tag len s
  | .rcvData tag off count data => Sys2Proof.Machine.execRcvData tag off count data s
  | .rcvEnd tag im => Sys2Proof.Machine.execRcvEnd tag im s
  | .rcvStatus tag => Sys2Proof.Machine.execRcvStatus tag s
  | .recoveryQuery seq => Sys2Proof.Machine.execRecoveryQuery seq s
  | .recoveryBegin seq len => Sys2Proof.Machine.execRecoveryBegin seq len s
  | .recoveryData seq off data => Sys2Proof.Machine.execRecoveryData seq off data s
  | .recoveryEnd seq im => Sys2Proof.Machine.execRecoveryEnd seq im s
  | .enterRecovery seq sig => Sys2Proof.Machine.execEnterRecovery seq sig s
  | .groupRecord seq sig g => Sys2Proof.Machine.execGroupRecord seq sig g s
  | .svcCrtQuery c buf => Sys2Proof.Machine.execSvcCrtQuery c buf s
  | .svcCrtBind c => Sys2Proof.Machine.execSvcCrtBind c s
  | .svcCrtErase c sig => Sys2Proof.Machine.execSvcCrtErase c sig s
  | .svcCrtEject c => Sys2Proof.Machine.execSvcCrtEject c s
  | .svcCrtStage c im ap => Sys2Proof.Machine.execSvcCrtStage c im ap s
  | .cartridgeInsert d => Sys2Proof.Machine.execCartridgeInsert d s
  | .cartridgeAuthComplete => Sys2Proof.Machine.execCartridgeAuthComplete s
  | .cartridgeRemove => Sys2Proof.Machine.execCartridgeRemove s
  | .cartridgeCommandFail status lba => Sys2Proof.Machine.execCartridgeCommandFail status lba s
  | .lifePoll used units readOnly => Sys2Proof.Machine.execLifePoll used units readOnly s
  | .reseedEnd => Sys2Proof.Machine.execReseedEnd s
  | .transferComplete n x => Sys2Proof.Machine.execTransferComplete n x s
  | .lastAccumulatorUpdate n => Sys2Proof.Machine.execLastAccumulatorUpdate n s
  | .drainComplete n => Sys2Proof.Machine.execDrainComplete n s
  | .resetNRelease => Sys2Proof.Machine.execResetNRelease s
  | .perstNDeassert => Sys2Proof.Machine.execPerstNDeassert s
  | .stackPhyOrControllerFailure st => Sys2Proof.Machine.execStackPhyOrControllerFailure st s

end Sys2Proof.Machine
end

