-- ==== Sys2Proof/Machine/Tick.lean ====
section
/-! DEFINITION. What passes with device time while no command is at hand (R85, R409, R458). -/
namespace Sys2Proof.Machine

/-- An array runs the context on it: the cycles of its island's clock count. -/
def State.cycling (s : State) (n : Nat) : Bool :=
  (s.arrState n == stRunning || s.arrState n == stWaiting) && s.domainRuns (n / 4)

/-- A nanosecond's array cycles of one array: CYCLES of its context, and the usage counters of its partition (R409); how many pass
is a free value. -/
def State.cycleArray (s : State) (n : Nat) : State :=
  if s.cycling n then
    let k := Config.arrayCycles n s.time
    let id := s.ident n
    let s1 := s.modArr n fun a => { a with ctx := { a.ctx with cycles := a.ctx.cycles + k } }
    let s2 := s1.incF (Fld.PRT_USE_ARRAY_COUNT id.part) k
    if id.bubble then s2.incF (Fld.PRT_USE_LENT_COUNT id.part) k else s2
  else s

/-- The five usage counters of a partition, as SVC_PERF_SET has them copied. -/
def State.useBytes (s : State) (p : Nat) : List Byte :=
  [Reg.PRT_USE_ARRAY p, Reg.PRT_USE_HBM p, Reg.PRT_USE_VENT p, Reg.PRT_USE_CND p, Reg.PRT_USE_LENT p].flatMap fun r =>
    toLe 8 (s.reg r).toNat

/-- A periodic copy that is due is made, and the next one is set. -/
def State.copyUse (s : State) (c : PerfCopy) : State :=
  if s.time < c.next then s
  else
    let s1 := if s.hbmRangeOk c.part c.addr 40 then s.hbmWrite c.part c.addr (s.useBytes c.part) else s
    { s1 with acc := { s1.acc with perf := s1.acc.perf.map fun (x : PerfCopy) => if x = c then PerfCopy.mk c.part c.addr c.period (c.next + c.period) else x } }

/-- What firmware and the units go on with of themselves: stops that are due, lent arrays that are wanted back, plumes, blocks for a
mirror, and expert writes that no call holds back any more. -/
def State.goOn (s : State) : State :=
  let s1 := s.settleStops.pokeStops
  let s2 := if s1.parked.isEmpty then s1 else (List.range 144).foldl State.reclaim s1
  ((List.range 64).foldl State.plmTick s2).mirrorSend.ackSend.releaseHeld

/-- One nanosecond of device time passes while the clocks run; while they are stopped nothing does (DESIGN CHOICE, log entry 1). -/
def State.tick (s : State) : State :=
  if s.alive then
    let s1 := { s with time := s.time + 1 }
    let s2 := (List.range 144).foldl State.cycleArray s1
    (s2.acc.perf.foldl State.copyUse s2).goOn
  else s

end Sys2Proof.Machine
end

