-- ==== Sys2Proof/WellFormed.lean ====
section
/-! DEFINITION. Well-formed commands: every unit that a command names is one that the device has (Tables 1.2 and 1.4, R243, R270,
R304, R396, R410). -/
namespace Sys2Proof

/-- The unit numbers of a command are within the device: 144 arrays, 36 islands, 12 stacks, 16 vents of up to 4 ports, 64 partitions
and as many functions and plume slots, 4 step banks, 100 clock domains, 256 devices and channels, 65,536 geysers, 1,048,576 conduits. -/
def Instr.wf : Instr → Bool
  | .nop n _ => decide (n < 144)
  | .jmp n _ => decide (n < 144)
  | .jmpr n _ => decide (n < 144)
  | .brEq n _ => decide (n < 144)
  | .brNe n _ => decide (n < 144)
  | .brLt n _ => decide (n < 144)
  | .brGe n _ => decide (n < 144)
  | .brLtu n _ => decide (n < 144)
  | .brGeu n _ => decide (n < 144)
  | .halt n _ => decide (n < 144)
  | .brk n _ => decide (n < 144)
  | .yield n _ => decide (n < 144)
  | .add n _ => decide (n < 144)
  | .sub n _ => decide (n < 144)
  | .mul n _ => decide (n < 144)
  | .mulh n _ => decide (n < 144)
  | .and n _ => decide (n < 144)
  | .or n _ => decide (n < 144)
  | .xor n _ => decide (n < 144)
  | .shl n _ => decide (n < 144)
  | .shr n _ => decide (n < 144)
  | .sra n _ => decide (n < 144)
  | .min n _ => decide (n < 144)
  | .max n _ => decide (n < 144)
  | .minu n _ => decide (n < 144)
  | .maxu n _ => decide (n < 144)
  | .movi n _ => decide (n < 144)
  | .slt n _ => decide (n < 144)
  | .sltu n _ => decide (n < 144)
  | .aadd n _ => decide (n < 144)
  | .amov n _ => decide (n < 144)
  | .aset n _ => decide (n < 144)
  | .afab n _ => decide (n < 144)
  | .smov n _ => decide (n < 144)
  | .sregRd n _ => decide (n < 144)
  | .sregWr n _ => decide (n < 144)
  | .vlSet n _ => decide (n < 144)
  | .ocLoad n _ => decide (n < 144)
  | .ocStore n _ => decide (n < 144)
  | .ocPref n _ => decide (n < 144)
  | .ocEvict n _ => decide (n < 144)
  | .vld n _ _ => decide (n < 144)
  | .vst n _ => decide (n < 144)
  | .sld n _ _ => decide (n < 144)
  | .sst n _ => decide (n < 144)
  | .pld n _ _ => decide (n < 144)
  | .pst n _ => decide (n < 144)
  | .mma n _ _ _ => decide (n < 144)
  | .accOpen n _ => decide (n < 144)
  | .accClose n _ => decide (n < 144)
  | .accDrain n _ => decide (n < 144)
  | .drainStart n _ _ => decide (n < 144)
  | .vadd n _ => decide (n < 144)
  | .vsub n _ => decide (n < 144)
  | .vmul n _ => decide (n < 144)
  | .vfma n _ => decide (n < 144)
  | .vfms n _ => decide (n < 144)
  | .vmin n _ => decide (n < 144)
  | .vmax n _ => decide (n < 144)
  | .vabs n _ => decide (n < 144)
  | .vneg n _ => decide (n < 144)
  | .vand n _ => decide (n < 144)
  | .vor n _ => decide (n < 144)
  | .vxor n _ => decide (n < 144)
  | .vshl n _ => decide (n < 144)
  | .vshr n _ => decide (n < 144)
  | .vsel n _ => decide (n < 144)
  | .vdup n _ => decide (n < 144)
  | .vdiv n _ => decide (n < 144)
  | .vrcp n _ => decide (n < 144)
  | .vsqrt n _ => decide (n < 144)
  | .vrsq n _ => decide (n < 144)
  | .vexp2 n _ => decide (n < 144)
  | .vlog2 n _ => decide (n < 144)
  | .vcmpEq n _ => decide (n < 144)
  | .vcmpLt n _ => decide (n < 144)
  | .vcmpLe n _ => decide (n < 144)
  | .perm n _ => decide (n < 144)
  | .shuf n _ => decide (n < 144)
  | .pack n _ => decide (n < 144)
  | .unpack n _ => decide (n < 144)
  | .bcastRow n _ _ => decide (n < 144)
  | .bcastCol n _ _ => decide (n < 144)
  | .vredSum n _ => decide (n < 144)
  | .vredMax n _ => decide (n < 144)
  | .vredMin n _ => decide (n < 144)
  | .vredAmax n _ => decide (n < 144)
  | .cvt n _ => decide (n < 144)
  | .cvtT n _ _ => decide (n < 144)
  | .eprogLoad n _ _ => decide (n < 144)
  | .eprogRun n _ _ => decide (n < 144)
  | .scalePick n _ => decide (n < 144)
  | .geyInc n _ => decide (n < 144)
  | .geyWait n _ => decide (n < 144)
  | .geyRead n _ => decide (n < 144)
  | .cndPost n _ => decide (n < 144)
  | .cndTake n _ => decide (n < 144)
  | .put n _ => decide (n < 144)
  | .get n _ => decide (n < 144)
  | .atomAdd n _ => decide (n < 144)
  | .atomMin n _ => decide (n < 144)
  | .atomMax n _ => decide (n < 144)
  | .atomSwap n _ => decide (n < 144)
  | .atomCas n _ => decide (n < 144)
  | .fence n _ => decide (n < 144)
  | .groupCommit n => decide (n < 144)
  | .deferredRelease n => decide (n < 144)
  | .transientUpset n => decide (n < 144)
  | .preemptionRequest n _ _ => decide (n < 144)
  | .contextRestore save => decide (save.array < 144)
  | .arrCtlStart _ n => decide (n < 144)
  | .arrCtlResume _ n => decide (n < 144)
  | .arrCtlStop _ n => decide (n < 144)
  | .arrCtlStep _ n => decide (n < 144)
  | .arrCtlSave _ n => decide (n < 144)
  | .autoIdleTimeout isl => decide (isl < 36)
  | .registerWrite _ _ _ _ _ => true
  | .registerReadClearing _ _ _ _ => true
  | .eventRecordPost _ _ => true
  | .eventCreditTimeout _ _ => true
  | .hbmLineAccess part _ _ _ => decide (part < 64)
  | .patrolScrub st _ _ => decide (st < 12)
  | .pcRetirementCopyEnd st _ _ => decide (st < 12)
  | .geyIncrementApply => true
  | .geyRegisterWrite _ g which _ => decide (g < 65536) && decide (which < 4)
  | .geyPostAction g => decide (g < 65536)
  | .cndCmdPost _ p _ => decide (p < 64)
  | .cndCmdTake _ p _ => decide (p < 64)
  | .cndFlushWriteback _ _ _ => true
  | .cndFlushHold _ _ _ => true
  | .cndFlushRelease _ _ _ => true
  | .rmoEntryTake take => decide (take.conduit < 1048576) && take.upsets.all fun x => decide (x.line < 98304)
  | .rmoComplete _ => true
  | .zrtFrameSend d v _ => decide (d < 256) && decide (v < 16)
  | .zrtData v f => decide (v < 16) && decide (f.src < 256)
  | .zrtAck v f => decide (v < 16) && decide (f.src < 256)
  | .zrtOpen v f => decide (v < 16) && decide (f.src < 256)
  | .zrtOpenAck v f => decide (v < 16) && decide (f.src < 256)
  | .zrtClose v f => decide (v < 16) && decide (f.src < 256)
  | .zrtCloseAck v f => decide (v < 16) && decide (f.src < 256)
  | .zrtProbe v f => decide (v < 16) && decide (f.src < 256)
  | .zrtProbeReply v f => decide (v < 16) && decide (f.src < 256)
  | .rtoExpiry d v => decide (d < 256) && decide (v < 16)
  | .ackDelayExpiry d v => decide (d < 256) && decide (v < 16)
  | .ratePeriodTick d v => decide (d < 256) && decide (v < 16)
  | .probeIntervalTick d v => decide (d < 256) && decide (v < 16)
  | .pathIdleProbe d v => decide (d < 256) && decide (v < 16)
  | .opTimeoutExpiry _ => true
  | .pathEntryValid d v => decide (d < 256) && decide (v < 16)
  | .pathEntryInvalid d v => decide (d < 256) && decide (v < 16)
  | .rs k => decide (k < 64)
  | .ag k => decide (k < 64)
  | .gather k _ => decide (k < 64)
  | .ar k => decide (k < 64)
  | .bcast k => decide (k < 64)
  | .release k => decide (k < 64)
  | .escrow k => decide (k < 64)
  | .permute k _ _ => decide (k < 64)
  | .wait k => decide (k < 64)
  | .signal k => decide (k < 64)
  | .flip k => decide (k < 64)
  | .loop k => decide (k < 64)
  | .endPlume k => decide (k < 64)
  | .plmCtlStart _ k => decide (k < 64)
  | .plmCtlAbort _ k => decide (k < 64)
  | .joinRecord k _ _ _ _ => decide (k < 64)
  | .plmSegmentArrive k _ _ _ => decide (k < 64)
  | .reducerAdd k _ => decide (k < 64)
  | .lateDecision k _ => decide (k < 64)
  | .positionStatusRecord k _ _ _ _ => decide (k < 64)
  | .gatherRequest k _ _ _ _ => decide (k < 64)
  | .versionRetire k _ => decide (k < 64)
  | .plmHopTimeoutExpiry k _ => decide (k < 64)
  | .plmAbortNotice k _ => decide (k < 64)
  | .attemptBegin j => decide (j < 4)
  | .attemptCommit j => decide (j < 4)
  | .attemptAbort j => decide (j < 4)
  | .prfStepEnable _ j _ => decide (j < 4)
  | .appendDescriptor p => decide (p < 64)
  | .logRecordAccept => true
  | .logBlockWritten => true
  | .mirrorBlockArrive _ _ _ => true
  | .mirrorAck _ => true
  | .mirrorTimeout => true
  | .snapshotDrainEnd => true
  | .upsetWindowEnd => true
  | .arrayRefill => true
  | .frameReceive v n _ => decide (v < 16) && decide (n < 4)
  | .frameTransmitStart v n _ => decide (v < 16) && decide (n < 4)
  | .transmitUnderrun v n => decide (v < 16) && decide (n < 4)
  | .portLinkUp v n _ => decide (v < 16) && decide (n < 4)
  | .portLinkDown v n _ _ => decide (v < 16) && decide (n < 4)
  | .vntEnable _ v _ => decide (v < 16)
  | .vntCtlReset _ v => decide (v < 16)
  | .vntPtpFifoPop _ v => decide (v < 16)
  | .wakeDetectorArm => true
  | .wakePatternMatch _ => true
  | .apertureRead f _ _ _ => decide (f < 64)
  | .apertureWrite f _ _ _ => decide (f < 64)
  | .pciGeyInc f _ _ => decide (f < 64)
  | .pcieConfigRequest f _ => decide (f < 64)
  | .pcieLinkUp _ _ => true
  | .pcieLinkDown => true
  | .perstN => true
  | .hotReset => true
  | .flr f => decide (f < 64)
  | .vfEnableClear => true
  | .irqCoalesceExpiry f _ => decide (f < 64)
  | .mbxGo c _ _ => decide (c < 256)
  | .mbxTake c => decide (c < 256)
  | .mbxTimeoutExpiry c => decide (c < 256)
  | .dblRing _ f _ => decide (f < 64)
  | .replyPost p _ => decide (p < 64)
  | .forwardedReply p _ _ _ => decide (p < 64)
  | .svcDeviceSet c _ _ => decide (c.part < 64)
  | .svcEventRoute c _ _ => decide (c.part < 64)
  | .svcDeviceQuery c => decide (c.part < 64)
  | .svcNumQuery c _ _ => decide (c.part < 64)
  | .svcNumEventSet c _ _ => decide (c.part < 64)
  | .svcAmaxTableSet c _ _ _ => decide (c.part < 64)
  | .svcArrayLoad c _ _ _ => decide (c.part < 64)
  | .svcArrayStart c _ _ _ => decide (c.part < 64)
  | .svcArrayStop c _ => decide (c.part < 64)
  | .svcArrayResume c _ _ => decide (c.part < 64)
  | .svcArrayQuery c _ => decide (c.part < 64)
  | .svcArrayDump c _ => decide (c.part < 64)
  | .svcAccReserve c _ _ _ _ => decide (c.part < 64)
  | .svcAccQuery c _ => decide (c.part < 64)
  | .svcAccDebugRead c _ _ _ _ => decide (c.part < 64)
  | .svcEprogCheck c _ => decide (c.part < 64)
  | .svcOcQuery c _ => decide (c.part < 64)
  | .svcOcScrub c _ => decide (c.part < 64)
  | .svcHbmQuery c _ => decide (c.part < 64)
  | .svcOcReserve c _ _ _ _ => decide (c.part < 64)
  | .svcCndCreate c _ _ _ _ _ => decide (c.part < 64)
  | .svcCndDestroy c _ => decide (c.part < 64)
  | .svcCndQuery c _ => decide (c.part < 64)
  | .svcGeySet c _ _ _ _ => decide (c.part < 64)
  | .svcGeyQuery c _ _ _ => decide (c.part < 64)
  | .svcZrtSet c _ _ _ _ _ _ _ _ => decide (c.part < 64)
  | .svcZrtPeerSet c _ _ => decide (c.part < 64)
  | .svcZrtPeerQuery c _ _ => decide (c.part < 64)
  | .svcRmoSubmit c _ _ _ _ _ _ _ _ => decide (c.part < 64)
  | .svcRmoAbort c _ _ _ => decide (c.part < 64)
  | .svcPlmCreate c _ _ => decide (c.part < 64)
  | .svcPlmStart c _ _ _ _ => decide (c.part < 64)
  | .svcPlmAbort c _ => decide (c.part < 64)
  | .svcPlmQuery c _ _ _ _ => decide (c.part < 64)
  | .svcPlmDestroy c _ => decide (c.part < 64)
  | .svcPlmReshard c _ _ _ _ => decide (c.part < 64)
  | .svcStepBankSet c _ => decide (c.part < 64)
  | .svcStepConfig c _ _ _ _ _ _ => decide (c.part < 64)
  | .svcStepAbort c => decide (c.part < 64)
  | .svcStepQuery c _ _ _ => decide (c.part < 64)
  | .svcAmaxQuery c _ _ _ => decide (c.part < 64)
  | .svcLogSet c _ _ _ _ _ _ _ _ => decide (c.part < 64)
  | .svcLogAppend c _ _ _ => decide (c.part < 64)
  | .svcLogRead c _ _ _ _ _ => decide (c.part < 64)
  | .svcBuddySet c _ _ => decide (c.part < 64)
  | .svcProtSet c _ _ => decide (c.part < 64)
  | .svcSnapTake c _ _ => decide (c.part < 64)
  | .svcSnapAbort c => decide (c.part < 64)
  | .svcRefill c _ _ _ _ _ _ _ => decide (c.part < 64)
  | .svcShadowRestore c _ _ _ => decide (c.part < 64)
  | .svcReplaySet c _ _ => decide (c.part < 64)
  | .svcRetireQuery c _ => decide (c.part < 64)
  | .svcRetireClear c _ _ => decide (c.part < 64)
  | .svcVntSet c _ => decide (c.part < 64)
  | .svcVntQuery c _ _ => decide (c.part < 64)
  | .svcVntMacsecSet c _ _ _ => decide (c.part < 64)
  | .svcPtpSet c _ _ _ _ => decide (c.part < 64)
  | .svcVntWakeSet c _ _ => decide (c.part < 64)
  | .svcPartCreate c _ => decide (c.part < 64)
  | .svcPartDestroy c _ => decide (c.part < 64)
  | .svcPartReset c _ => decide (c.part < 64)
  | .svcPartQuery c _ _ => decide (c.part < 64)
  | .svcPartGrant c _ => decide (c.part < 64)
  | .svcQosSet c _ _ _ _ _ _ => decide (c.part < 64)
  | .svcIrqSet c _ _ _ => decide (c.part < 64)
  | .svcGroupSet c _ => decide (c.part < 64)
  | .svcGroupQuery c _ => decide (c.part < 64)
  | .svcCallAbort c _ => decide (c.part < 64)
  | .svcPerfSet c _ => decide (c.part < 64)
  | .svcPerfQuery c _ => decide (c.part < 64)
  | .svcDblSet c _ _ => decide (c.part < 64)
  | .svcSecQuery c _ => decide (c.part < 64)
  | .svcSecNonce c => decide (c.part < 64)
  | .svcSecOwn c _ => decide (c.part < 64)
  | .svcSecRelease c _ => decide (c.part < 64)
  | .svcSecLifecycle c _ _ _ => decide (c.part < 64)
  | .svcSecGroupKey c _ _ => decide (c.part < 64)
  | .svcSecCakSet c _ _ => decide (c.part < 64)
  | .svcSecImport c _ _ _ _ _ _ _ => decide (c.part < 64)
  | .svcSecExport c _ _ _ _ _ => decide (c.part < 64)
  | .svcSecDebugArm c _ => decide (c.part < 64)
  | .svcSecDebugDisarm c => decide (c.part < 64)
  | .getVersion p => decide (p < 64)
  | .getCapabilities p => decide (p < 64)
  | .negotiateAlgorithms p => decide (p < 64)
  | .getDigests p => decide (p < 64)
  | .getCertificate p _ => decide (p < 64)
  | .challenge p _ => decide (p < 64)
  | .getMeasurements p _ _ => decide (p < 64)
  | .keyExchange p => decide (p < 64)
  | .finish p _ _ _ => decide (p < 64)
  | .heartbeat p _ => decide (p < 64)
  | .keyUpdate p _ => decide (p < 64)
  | .endSession p _ => decide (p < 64)
  | .spdmFragment p _ _ _ _ => decide (p < 64)
  | .ideKm p _ _ _ => decide (p < 64)
  | .keyImport p _ _ _ => decide (p < 64)
  | .keyDelete p _ _ => decide (p < 64)
  | .policySet p _ _ _ _ _ _ => decide (p < 64)
  | .seal p _ => decide (p < 64)
  | .consent p _ _ => decide (p < 64)
  | .call p _ _ => decide (p < 64)
  | .svcClkSet c _ _ => decide (c.part < 64)
  | .svcClkGate c _ => decide (c.part < 64)
  | .svcPwrSet c _ _ _ => decide (c.part < 64)
  | .svcPwrQuery c _ => decide (c.part < 64)
  | .svcPwrDormant c => decide (c.part < 64)
  | .svcRstArray c _ => decide (c.part < 64)
  | .svcRstVent c _ => decide (c.part < 64)
  | .svcRstWarm c => decide (c.part < 64)
  | .svcFrzSet c _ _ _ _ _ => decide (c.part < 64)
  | .rstArrayGo _ n => decide (n < 144)
  | .rstVentGo _ v => decide (v < 16)
  | .rstWarmKey _ _ => true
  | .frzCtlTrigger _ => true
  | .clkGateWrite _ k _ => decide (k < 4)
  | .gateTakeEffect d => decide (d < 100)
  | .powerOnReset _ => true
  | .startupComplete _ => true
  | .v54Fail _ => true
  | .resetN _ _ => true
  | .freezeN _ _ => true
  | .wakeN _ => true
  | .refclkPresent => true
  | .refclkLoss => true
  | .refclkReturn _ => true
  | .trimMeasurement _ _ => true
  | .ptpLock _ => true
  | .powerSample _ _ _ => true
  | .thermalSample _ _ _ => true
  | .thermalTrip _ => true
  | .readoutDatagram => true
  | .extest _ => true
  | .idcode => true
  | .samplePreload _ => true
  | .rdoutStatus => true
  | .rdoutStream _ => true
  | .bypass => true
  | .tapPrivate _ => true
  | .trstN => true
  | .entdaa _ => true
  | .setdasa _ _ => true
  | .rstdaa => true
  | .getpid _ => true
  | .getbcr _ => true
  | .getdcr _ => true
  | .getstatus _ => true
  | .getmxds _ => true
  | .i3cPrivateWrite _ _ => true
  | .i3cPrivateRead _ _ => true
  | .i3cWindowUpdate => true
  | .bootOk => true
  | .bootTimeout => true
  | .bootTrap => true
  | .svcFwQuery c _ => decide (c.part < 64)
  | .svcFwUpdate c _ _ => decide (c.part < 64)
  | .svcFwCancel c => decide (c.part < 64)
  | .svcFwConfirm c _ => decide (c.part < 64)
  | .svcFwPolicySet c _ _ _ => decide (c.part < 64)
  | .svcFwRecovery c _ => decide (c.part < 64)
  | .rcvBegin _ _ => true
  | .rcvData _ _ _ _ => true
  | .rcvEnd _ _ => true
  | .rcvStatus _ => true
  | .recoveryQuery _ => true
  | .recoveryBegin _ _ => true
  | .recoveryData _ _ _ => true
  | .recoveryEnd _ _ => true
  | .enterRecovery _ _ => true
  | .groupRecord _ _ _ => true
  | .svcCrtQuery c _ => decide (c.part < 64)
  | .svcCrtBind c => decide (c.part < 64)
  | .svcCrtErase c _ => decide (c.part < 64)
  | .svcCrtEject c => decide (c.part < 64)
  | .svcCrtStage c _ _ => decide (c.part < 64)
  | .cartridgeInsert _ => true
  | .cartridgeAuthComplete => true
  | .cartridgeRemove => true
  | .cartridgeCommandFail _ _ => true
  | .lifePoll _ _ _ => true
  | .reseedEnd => true
  | .transferComplete n _ => decide (n < 144)
  | .lastAccumulatorUpdate n => decide (n < 144)
  | .drainComplete n => decide (n < 144)
  | .resetNRelease => true
  | .perstNDeassert => true
  | .stackPhyOrControllerFailure st => decide (st < 12)

end Sys2Proof
end

