-- ==== Sys2Proof/Safety.lean ====
section
/-! DEFINITION. The terms in which the statements are made: what counts as a safe run, when an array issues an instruction, when
firmware performs a call, and what a command leaves alone. -/
namespace Sys2Proof.Machine

/-! ## Runs -/

/-- The command answers a next state. -/
def Completes (i : Instr) (s : State) : Prop := ∃ t, exec i s = .next t

/-- The register store, HBM, the operand caches and accumulator memory are in canonical form: listed addresses rise strictly, and no
listed value is what its address reads as unlisted, so equal stores are equal data. -/
def State.Canonical (s : State) : Prop :=
  Sparse.wf resetReg s.regs = true ∧ Memory.wf s.mem.hbm = true ∧ Memory.wf s.mem.oc = true ∧ Memory.wf s.mem.acc = true

/-! ## Instructions of an array -/

/-- Array `n` runs, may start or continue a group with one instruction more, and fetches without a fault, at its program counter, the word of
this instruction, which passes the checks of its encoding; no retirement of the array is due. -/
def State.issues (s : State) (n : Nat) (sp : OpSpec) (f : Fields) (extra : Bool) : Bool :=
  s.alive && decide (n < 144) && s.arrState n == stRunning && s.domainRuns (n / 4) && (s.arr n).mayIssue &&
  ((s.arr n).cur.all fun g => decide (g.count < 32)) && (s.fetchFault n).isNone && s.fetchWord n == f.word sp.cls sp.op &&
  wordKnown (f.word sp.cls sp.op) && (issueCheck sp f extra).isNone && !s.retireDue n

/-- The group that an instruction with GE as given leaves: the open one, or with GE = 1 the last that has ended. -/
def Arr.groupAfter (a : Arr) (ge : Bool) : Option Group := if ge then a.done.getLast? else a.cur
/-- What the group that an instruction issues into has deferred so far, buffered so far, and how many bytes that is. -/
def Arr.deferredNow (a : Arr) : List Deferred := match a.cur with | some g => g.deferred | none => []
def Arr.bytesNow (a : Arr) : Nat := match a.cur with | some g => g.wbytes | none => 0
/-- No stop and no switch is asked of the array, and it has no group open: nothing follows a completion in it. -/
def Arr.undisturbed (a : Arr) : Bool := a.stopReq.isNone && !a.stopBit && a.switchReq.isNone && a.cur.isNone && a.released.isEmpty

/-- Nothing outside array `n` differs but the cycles that its vector engine counts. -/
def OnlyArray (n : Nat) (s t : State) : Prop :=
  (∀ m, m ≠ n → t.arr m = s.arr m) ∧ (∀ r, r ≠ Reg.ARR_VEC_BUSY n → t.reg r = s.reg r) ∧
  t = { s with arrays := t.arrays, regs := t.regs }

/-! ## Register commands -/

/-- The requester may write the whole register at `reg` and the write takes effect now: the unit runs, the offset holds a register of
that width in a block that is not gated, a function reaches the device and no service call owns the block, and no half of the register
is held (R7 to R12, R387). -/
def State.writable (s : State) (rq : Requester) (reg width : Nat) : Bool :=
  s.alive && (match s.verdict rq reg width with | .ok _ r .whole => r == reg | _ => false) &&
  (s.acc.halves.all fun l => !l.is rq reg) &&
  (match rq with | .fn f => s.hostReach f && !s.fnBarred f false reg && !s.blockOwned reg | _ => true)

/-- Nothing but register `r` of the device differs. -/
def OnlyReg (r : Nat) (s t : State) : Prop := (∀ q, q ≠ r → t.reg q = s.reg q) ∧ t = { s with regs := t.regs }

/-! ## Service calls -/

/-- The areas of calls that are served at MINIMAL. -/
def minimalAreas : List Nat := [0x0, 0x9, 0xA, 0xC]

/-- Firmware performs a call of a caller now: the device and the level serve its area, its partition is ACTIVE, a session that it names is
established, fewer than 16 calls of the partition are in progress and none has the call's TAG; and the call is one of partition 0 where
`zero` says that only partition 0 may make it (R12, R13, R45, R415 to R417). -/
def State.admits (s : State) (code : Nat) (zero : Bool) (c : Caller) : Bool :=
  s.alive && decide (c.part < 64) && s.serves code && s.partActive c.part && (!c.session || (s.callSession c.part).isSome) &&
  (s.level != lvMinimal || minimalAreas.contains (code / 256)) && decide ((s.callsOf c.part).length < 16) &&
  !(s.acc.calls.any (Call.is c.part c.tag c.forwarded)) && (!zero || c.part == 0)

end Sys2Proof.Machine

namespace Sys2Proof

/-! ## Commands that reach the device while its clocks are stopped -/

/-- The commands that the AON island, the contacts, the TAP, the I3C target, the port of a read-out or a wake detector serves, whatever
the clocks of the die do (R378, R456, R470, R476, R482, R483, R521, R523 to R525). -/
def Instr.clockless : Instr → Bool
  | .portLinkUp .. => true
  | .portLinkDown .. => true
  | .wakeDetectorArm .. => true
  | .wakePatternMatch .. => true
  | .perstN .. => true
  | .perstNDeassert .. => true
  | .powerOnReset .. => true
  | .v54Fail .. => true
  | .resetN .. => true
  | .resetNRelease .. => true
  | .freezeN .. => true
  | .wakeN .. => true
  | .refclkPresent .. => true
  | .refclkLoss .. => true
  | .refclkReturn .. => true
  | .trimMeasurement .. => true
  | .thermalTrip .. => true
  | .readoutDatagram .. => true
  | .tapPrivate .. => true
  | .entdaa .. => true
  | .setdasa .. => true
  | .rstdaa .. => true
  | .getpid .. => true
  | .getbcr .. => true
  | .getdcr .. => true
  | .getstatus .. => true
  | .getmxds .. => true
  | .i3cPrivateWrite .. => true
  | .i3cPrivateRead .. => true
  | .i3cWindowUpdate .. => true
  | .extest .. => true
  | .idcode .. => true
  | .samplePreload .. => true
  | .rdoutStatus .. => true
  | .rdoutStream .. => true
  | .bypass .. => true
  | .trstN .. => true
  | _ => false

end Sys2Proof
end

