-- ==== Sys2Proof/Certificates/Slice0/Obligations.lean ====
section
/-! DEFINITION. The statements for the provers. -/
open Sys2Proof Sys2Proof.Machine Sys2Proof.Num

/-! ## The block as a whole -/

/-- A step takes the command at the front of the queue and runs it on the state with the queue's rest. -/
def Obligations.StepRunsFrontCommand : Prop :=
  ∀ (c : Instr) (rest : List Instr) (s : State), s.pending = c :: rest → step s = exec c { s with pending := rest }

/-- On an empty queue device time passes (the model's choice, log entry 1): while the clocks run, one nanosecond; the queue stays empty, the
operand caches and every array that runs no context stay as they are, and each array that runs one counts its cycles; and then what is due goes on.
While the clocks are stopped, nothing changes. -/
def Obligations.IdleStepIsTick : Prop :=
  ∀ s : State, s.pending = [] → (∀ n, n < 144 → (s.ident n).part < 64) →
    (s.alive = false → step s = .next s) ∧
    (s.alive = true → ∃ t : State, step s = .next t.goOn ∧ t.time = s.time + 1 ∧ t.pending = [] ∧ t.mem.oc = s.mem.oc ∧
      (∀ n, s.cycling n = false ∨ 144 ≤ n → t.arr n = s.arr n) ∧
      (∀ n, n < 144 → s.cycling n = true →
        t.arr n = { s.arr n with ctx := { (s.arr n).ctx with cycles := (s.arr n).ctx.cycles + Config.arrayCycles n (s.time + 1) } }))

/-- After power-on reset every register reads its reset value, HBM, the operand caches and accumulator memory are empty and every store
is in canonical form, no command waits, every array is as the model's initial array, no event waits, and the device is STARTING with the
clocks of the die stopped (R4, R472, R475). -/
def Obligations.ResetState : Prop :=
  (∀ r, State.reset.reg r = resetReg r) ∧ State.reset.mem.hbm = [] ∧ State.reset.mem.oc = [] ∧ State.reset.mem.acc = [] ∧
  State.reset.Canonical ∧ State.reset.pending = [] ∧ (∀ n, State.reset.arr n = Arr.initial) ∧ State.reset.streams = [] ∧
  State.reset.pow.state = .starting ∧ State.reset.alive = false

/-- Every command that names units the device has answers a next state, in every state of the machine: nothing that hardware, software
or a peer can do ends a run, but a private TAP instruction on a device that obeys it. -/
def Obligations.WellFormedCommandsComplete : Prop :=
  ∀ (i : Instr) (s : State), i.wf = true →
    (∀ code, i = .tapPrivate code → ¬(s.tapUp = true ∧ 0x80 ≤ code ∧ code ≤ 0xFE ∧ s.privateAllowed = true)) → Completes i s

/-- The only fault is a command that names a unit the device does not have, and the only refusal a private TAP instruction. -/
def Obligations.StopsAreNamed : Prop :=
  ∀ (i : Instr) (s : State),
    (∀ e, exec i s = .fault e → i.wf = false ∧ ∃ n, e = .noSuchUnit n) ∧
    (∀ e, exec i s = .refused e → e = .privateTap ∧ ∃ code, i = .tapPrivate code ∧ 0x80 ≤ code ∧ code ≤ 0xFE)

/-- While the clocks of the die are stopped (off, dormant, held, frozen, or starting without REFCLK), no command that a unit of the
die would carry out changes anything. -/
def Piece.StoppedClocksKeepState : Prop :=
  ∀ (i : Instr) (s : State), i.wf = true → i.clockless = false → s.alive = false → exec i s = .next s

/-- A stopped device stays stopped: from a state whose clocks are stopped and in which only commands of units of the die wait, every
step leaves all but the queue as it was, and the queue shorter. -/
def Piece.StoppedDeviceStaysStopped : Prop :=
  ∀ s : State, s.alive = false → (∀ i ∈ s.pending, i.wf = true ∧ i.clockless = false) →
    ∃ t, step s = .next t ∧ t = { s with pending := s.pending.tail } ∧ t.alive = false ∧
      (∀ i ∈ t.pending, i.wf = true ∧ i.clockless = false)

/-- Every step keeps the stores in canonical form: the registers, HBM, the operand caches and accumulator memory, from every state that
has it, whatever command waits. -/
def Obligations.StoresStayCanonical : Prop := ∀ s t : State, s.Canonical → step s = .next t → t.Canonical
/-! ## Runen: scalars, addresses, special registers, control -/

/-- An operation of class INT: its constructor, its OP (Table 3.7), and what R105 gives it. -/
structure IntRow where
  instr : Nat → Fields → Instr
  op : Nat
  fn : Word64 → Word64 → Word64

/-- The two-source operations of class INT as R105 gives them. -/
def intRows : List IntRow :=
  [⟨.add, 0x00, fun x y => x + y⟩, ⟨.sub, 0x01, fun x y => x - y⟩, ⟨.mul, 0x02, fun x y => x * y⟩,
   ⟨.mulh, 0x03, fun x y => BitVec.ofInt 64 (x.toInt * y.toInt / 2 ^ 64)⟩, ⟨.and, 0x04, fun x y => x &&& y⟩,
   ⟨.or, 0x05, fun x y => x ||| y⟩, ⟨.xor, 0x06, fun x y => x ^^^ y⟩, ⟨.shl, 0x07, fun x y => x <<< (y.toNat % 64)⟩,
   ⟨.shr, 0x08, fun x y => x >>> (y.toNat % 64)⟩, ⟨.sra, 0x09, fun x y => x.sshiftRight (y.toNat % 64)⟩,
   ⟨.min, 0x0A, fun x y => if x.slt y then x else y⟩, ⟨.max, 0x0B, fun x y => if x.slt y then y else x⟩,
   ⟨.minu, 0x0C, fun x y => if x.ult y then x else y⟩, ⟨.maxu, 0x0D, fun x y => if x.ult y then y else x⟩,
   ⟨.slt, 0x0F, fun x y => if x.slt y then 1 else 0⟩, ⟨.sltu, 0x10, fun x y => if x.ult y then 1 else 0⟩]

/-- A scalar operation of R105 that issues writes its result, of A and of B or the immediate, to D and moves on by one instruction;
no other register of the context, no memory, no register of the device and no other array changes.  A write to s0 is discarded. -/
def Piece.ScalarOperationResult : Prop :=
  ∀ r ∈ intRows, ∀ (n : Nat) (f : Fields) (s : State), s.issues n (intSpec r.op) f (immFormOk f) = true →
    ∃ t, exec (r.instr n f) s = .next t ∧
      (t.arr n).ctx = (s.arr n).ctx.sset f.d.toNat
        (r.fn ((s.arr n).ctx.sget f.a.toNat) (if f.mod.getLsbD 0 then f.imm else (s.arr n).ctx.sget f.b.toNat)) ∧
      (t.arr n).pc = (s.arr n).pc + 16 ∧ OnlyArray n s t

/-- s0 always reads 0 and p0 all ones; a write to either is discarded, and a write to any other scalar, address, vector or predicate
register is what it then reads, with every other register of the file as before (Table 3.1). -/
def Piece.ContextRegisterFiles : Prop :=
  ∀ (c : Ctx) (r k : Nat) (v : Word64) (x : VReg) (p : PReg),
    c.sget 0 = 0 ∧ c.pget 0 = BitVec.allOnes 1024 ∧ c.sset 0 v = c ∧ c.pset 0 p = c ∧
    (c.sset r v).sget k = (if k = r ∧ r ≠ 0 then v else c.sget k) ∧
    (c.aset r v).aget k = (if k = r then v else c.aget k) ∧
    (c.vset r x).vget k = (if k = r then x else c.vget k) ∧
    (c.pset r p).pget k = (if k = r ∧ r ≠ 0 then p else c.pget k)

/-- MOVI, AADD, AMOV, ASET, AFAB, SMOV and SREG_RD write their one destination, with the value that R105 and R85 give, and nothing
else. -/
def Piece.MoveAndAddressResult : Prop :=
  ∀ (n : Nat) (f : Fields) (s : State),
    let c := (s.arr n).ctx
    let done (i : Instr) (c' : Ctx) : Prop :=
      ∃ t, exec i s = .next t ∧ (t.arr n).ctx = c' ∧ (t.arr n).pc = (s.arr n).pc + 16 ∧ OnlyArray n s t
    (s.issues n { intSpec 0x0E with a := .none, b := .none } f true = true → done (.movi n f) (c.sset f.d.toNat f.imm)) ∧
    (s.issues n (adrSpec 0x00 .ad .ad .s .none 1 (BitVec.allOnes 64)) f (immFormOk f) = true →
      done (.aadd n f) (c.aset (regNo f.d) (c.aget (regNo f.a) + if f.mod.getLsbD 0 then f.imm else c.sget f.b.toNat))) ∧
    (s.issues n (adrSpec 0x01 .ad .sa .none .none 0 0) f true = true →
      done (.amov n f) (c.aset (regNo f.d) (if isA f.a.toNat then c.aget (regNo f.a) else c.sget (regNo f.a)))) ∧
    (s.issues n (adrSpec 0x02 .ad .none .none .none 0 (BitVec.allOnes 64)) f true = true → done (.aset n f) (c.aset (regNo f.d) f.imm)) ∧
    (s.issues n (adrSpec 0x03 .ad .ad .s .s 0 0) f true = true →
      done (.afab n f) (c.aset (regNo f.d) (fabricOf (c.aget (regNo f.a)) (c.sget f.b.toNat) (c.sget f.c.toNat)))) ∧
    (s.issues n (adrSpec 0x04 .s .ad .none .none 0 0) f true = true → done (.smov n f) (c.sset f.d.toNat (c.aget (regNo f.a)))) ∧
    (s.issues n (srgSpec 0x00 .s .none 0xFF) f (sregOk f) = true →
      done (.sregRd n f) (c.sset f.d.toNat (sregRead s n f.imm.toNat)))

/-- SREG_WR writes VL (within 1 to 256), VFILL, SR_SEED with SR_CTR set to 0, RMO_CND, clears the NSTAT bits given, and leaves every
read-only special register alone; VL_SET sets VL to the smaller of its source and 256 and returns it (R85, R167, Table 3.2). -/
def Piece.SpecialRegisterWrite : Prop :=
  ∀ (n : Nat) (f : Fields) (s : State),
    let c := (s.arr n).ctx
    let v := c.sget f.a.toNat
    let done (i : Instr) (c' : Ctx) : Prop :=
      ∃ t, exec i s = .next t ∧ (t.arr n).ctx = c' ∧ (t.arr n).pc = (s.arr n).pc + 16 ∧ t.mem = s.mem ∧ (∀ m, m ≠ n → t.arr m = s.arr m)
    (s.issues n (srgSpec 0x01 .none .s 0xFF) f (sregOk f) = true →
      (f.imm = 0x01 → 1 ≤ v.toNat → v.toNat ≤ 256 → done (.sregWr n f) { c with vl := v.toNat }) ∧
      (f.imm = 0x02 → done (.sregWr n f) { c with vfill := v.setWidth 32 }) ∧
      (f.imm = 0x03 → done (.sregWr n f) { c with srSeed := v, srCtr := 0 }) ∧
      (f.imm = 0x05 → done (.sregWr n f) { c with nstat := c.nstat &&& ~~~ (v.setWidth 32) }) ∧
      (f.imm = 0x0A → done (.sregWr n f) { c with rmoCnd := v.toNat % 2 ^ 20 }) ∧
      (f.imm ∉ [0x01#64, 0x02#64, 0x03#64, 0x05#64, 0x0A#64] → done (.sregWr n f) c)) ∧
    (s.issues n (srgSpec 0x02 .s .s 0) f true = true → v ≠ 0 →
      done (.vlSet n f) ({ c with vl := min v.toNat 256 }.sset f.d.toNat (dw (min v.toNat 256))))

/-- A conditional branch: its constructor, its OP, and the condition R106 gives. -/
structure BranchRow where
  instr : Nat → Fields → Instr
  op : Nat
  cond : Word64 → Word64 → Bool

/-- The conditional branches as R106 gives them. -/
def branchRows : List BranchRow :=
  [⟨.brEq, 0x03, fun x y => x == y⟩, ⟨.brNe, 0x04, fun x y => x != y⟩, ⟨.brLt, 0x05, fun x y => x.slt y⟩,
   ⟨.brGe, 0x06, fun x y => !x.slt y⟩, ⟨.brLtu, 0x07, fun x y => x.ult y⟩, ⟨.brGeu, 0x08, fun x y => !x.ult y⟩]

/-- A branch that issues COMPLETES (exec answers a next state): it ends its group and goes to its target, IMM instructions of 16 bytes from
itself, where its condition holds, and to the next instruction otherwise; JMP always goes to its target, and JMPR to the address in its scalar; no
register and no memory changes (R106).  Said of JMP, JMPR, BR.EQ, BR.NE, BR.LT, BR.GE, BR.LTU and BR.GEU. -/
def Piece.BranchTarget : Prop :=
  ∀ (n : Nat) (f : Fields) (s : State),
    let c := (s.arr n).ctx
    let target := (dw (s.arr n).pc + f.imm * 16).toNat
    let goes (t : State) (pc : Nat) : Prop := (t.arr n).pc = pc ∧ (t.arr n).ctx = c ∧ (t.arr n).cur = none ∧
      (∃ g, (t.arr n).done = (s.arr n).done ++ [g]) ∧ OnlyArray n s t
    (∀ r ∈ branchRows, s.issues n (ctlSpec r.op .s .s (BitVec.allOnes 64) true) f true = true →
      ∃ t, exec (r.instr n f) s = .next t ∧
        goes t (if r.cond (c.sget f.a.toNat) (c.sget f.b.toNat) then target else (s.arr n).pc + 16)) ∧
    (s.issues n (ctlSpec 0x01 .none .none (BitVec.allOnes 64) true) f true = true →
      ∃ t, exec (.jmp n f) s = .next t ∧ goes t target) ∧
    (s.issues n (ctlSpec 0x02 .s .none 0 true) f true = true → (c.sget f.a.toNat).toNat % 16 = 0 →
      ∃ t, exec (.jmpr n f) s = .next t ∧ goes t (c.sget f.a.toNat).toNat)

/-- NOP completes and only moves on; HALT and BRK complete and end their group, whose commit then stops the array with reason HALT, or BRK and
its code; YIELD completes, ends its group and asks for no stop (R93, R107). -/
def Piece.ControlInstructions : Prop :=
  ∀ (n : Nat) (f : Fields) (s : State),
    let moved (t : State) : Prop := (t.arr n).pc = (s.arr n).pc + 16 ∧ (t.arr n).ctx = (s.arr n).ctx ∧ OnlyArray n s t
    (s.issues n (ctlSpec 0x00 .none .none 0 false) f true = true → ∃ t, exec (.nop n f) s = .next t ∧ moved t) ∧
    (s.issues n (ctlSpec 0x09 .none .none 0 true) f true = true →
      ∃ t g, exec (.halt n f) s = .next t ∧ moved t ∧ (t.arr n).cur = none ∧ (t.arr n).done = (s.arr n).done ++ [g] ∧ g.onCommit = some .halt) ∧
    (s.issues n (ctlSpec 0x0A .none .none 0xFFFF true) f true = true →
      ∃ t g, exec (.brk n f) s = .next t ∧ moved t ∧ (t.arr n).cur = none ∧ (t.arr n).done = (s.arr n).done ++ [g] ∧
        g.onCommit = some (.brk f.imm.toNat)) ∧
    (s.issues n (ctlSpec 0x0B .none .none 0 true) f true = true →
      ∃ t g, exec (.yield n f) s = .next t ∧ moved t ∧ (t.arr n).cur = none ∧ (t.arr n).done = (s.arr n).done ++ [g])
/-! ## Runen: operand cache and HBM -/

/-- An operand-cache transfer: its constructor, its OP, and its kind (R108). -/
structure XferRow where
  instr : Nat → Fields → Instr
  op : Nat
  kind : XferKind

def xferRows : List XferRow := [⟨.ocLoad, 0x00, .load⟩, ⟨.ocStore, 0x01, .store⟩, ⟨.ocPref, 0x02, .pref⟩, ⟨.ocEvict, 0x03, .evict⟩]

/-- An operand-cache transfer whose row length, row count, alignments, ranges and interlock are as R108 and Table 3.13 ask is
deferred to its group's commit with those parameters, and moves nothing before: memory, registers and the other arrays stay (R97). -/
def Piece.TransferIsDeferred : Prop :=
  ∀ r ∈ xferRows, ∀ (n : Nat) (f : Fields) (s : State),
    let c := (s.arr n).ctx
    let p := (s.ident n).part
    let toOc := r.kind == .load || r.kind == .pref
    let d := c.aget (regNo f.d)
    let a := c.aget (regNo f.a)
    let row := (c.sget f.b.toNat).toNat
    let stride := c.sget f.c.toNat
    let rows := f.imm.toNat
    let oc := if toOc then d else a
    let hb := if toOc then a else d
    let phys := s.ocFirst n + oc.toNat
    s.issues n (ocxSpec r.op) f true = true → row ≠ 0 → row % 64 = 0 → 1 ≤ rows → rows ≤ 4096 → d.toNat % 64 = 0 → a.toNat % 64 = 0 →
    (1 < rows → stride.toNat % 64 = 0) → oc.toNat + row * rows ≤ s.ocSize n →
    (∀ x ∈ rowAddrs hb stride rows, localKind x = .hbm ∧ s.hbmRangeOk p x row = true ∧ (toOc = false → s.textHit p x row = false)) →
    (s.arr n).access (if toOc then [] else [(phys, row * rows)]) (if r.kind == .store then [] else [(phys, row * rows)]) = .ok →
    ∃ t g, exec (r.instr n f) s = .next t ∧ (t.arr n).groupAfter f.ge = some g ∧
      g.deferred = (s.arr n).deferredNow ++ [.xfer { kind := r.kind, part := p, oc := phys, hbm := hb.toNat, row, stride := stride.toNat, rows }] ∧
      (t.arr n).ctx = (s.arr n).ctx ∧ t.mem = s.mem ∧ (∀ m, m ≠ n → t.arr m = s.arr m)

/-- The HBM address of line `k` of row `i` of a transfer. -/
def Sys2Proof.Machine.Xfer.lineAddr (x : Xfer) (i k : Nat) : Nat := (dw x.hbm + dw i * dw x.stride + dw (64 * k)).toNat

/-- When a transfer into the operand cache completes, each of its lines holds the bytes of the HBM line it came from and HBM is as it was;
when one to HBM completes, the mapped range that its row names holds the bytes of its operand-cache range, which OC.EVICT leaves zero; and the
transfer has left the range table (R108, R120).  The lines' tags match, no error is met, and nothing that a completion may set off is due on the
array. -/
def Piece.TransferMovesLines : Prop :=
  ∀ (n j : Nat) (x : Xfer) (u : List LineUpset) (s : State), n < 144 → s.alive = true → s.Canonical → (s.arr n).undisturbed = true → s.retireDue n = false →
    (s.arr n).xfers[j]? = some x → x.row % 64 = 0 → x.hbm % 64 = 0 → x.oc % 64 = 0 → x.stride % 64 = 0 →
    x.oc + x.row * x.rows ≤ ocBytes → x.part < 64 → (x.kind = .load ∨ x.kind = .pref ∨ u = []) →
    (∀ i k, i < x.rows → k < x.row / 64 → s.hbmBadTag x.part (x.lineAddr i k) 64 = false) →
    ∃ t, exec (.transferComplete n ⟨j, u⟩) s = .next t ∧ (t.arr n).xfers = (s.arr n).xfers.eraseIdx j ∧
      (x.kind = .load ∨ x.kind = .pref →
        t.mem.hbm = s.mem.hbm ∧
        ∀ i k, i < x.rows → k < x.row / 64 →
          t.ocRead n (x.oc + i * x.row + 64 * k) 64 = s.hbmRead x.part (x.lineAddr i k) 64) ∧
      (x.kind = .store ∨ x.kind = .evict → x.rows = 1 → s.hbmRangeOk x.part x.hbm x.row = true → x.hbm + x.row < 2 ^ 64 →
        t.hbmRead x.part x.hbm x.row = s.ocRead n x.oc x.row ∧
        (x.kind = .store → t.mem.oc = s.mem.oc) ∧ (x.kind = .evict → t.ocRead n x.oc x.row = List.replicate x.row 0))

/-- VLD, SLD and PLD of an aligned, unpoisoned range of the reservation that no transfer claims write their destination with the bytes
that the array sees there: VLD in the active lanes only, SLD zero- or sign-extended from its size, PLD whole (R109, R119, R168). -/
def Piece.LoadResult : Prop :=
  ∀ (n : Nat) (f : Fields) (s : State),
    let c := (s.arr n).ctx
    let x := c.aget (regNo f.a) + f.imm
    let phys := s.ocFirst n + x.toNat
    let sz := 2 ^ (f.mod.toNat % 4)
    let ready (len align : Nat) : Prop := x.toNat % align = 0 ∧ x.toNat + len ≤ s.ocSize n ∧ (s.arr n).access [(phys, len)] [] = .ok ∧
      s.ocViewPoison n phys len = none
    (s.issues n (vlsSpec 0x00 .v .none 0 true) f true = true → c.vl ≤ 256 → ready (c.vl * 4) 64 →
      ∃ t v, exec (.vld n f []) s = .next t ∧ (t.arr n).ctx = c.vset (regNo f.d) v ∧ t.mem = s.mem ∧
        ∀ l, l < 256 → elem v 32 l =
          if l < c.vl ∧ predOn (c.pget f.pred.toNat) f.pn 32 l = true then ofLe (s.ocView n (phys + 4 * l) 4)
          else elem (c.vget (regNo f.d)) 32 l) ∧
    (s.issues n (vlsSpec 0x02 .s .none 7 false) f true = true → ready sz sz →
      ∃ t, exec (.sld n f []) s = .next t ∧ t.mem = s.mem ∧ (t.arr n).ctx = c.sset f.d.toNat
        (if f.mod.getLsbD 2 then BitVec.ofInt 64 (signed (8 * sz) (ofLe (s.ocView n phys sz))) else dw (ofLe (s.ocView n phys sz)))) ∧
    (s.issues n (vlsSpec 0x04 .p .none 0 false) f true = true → ready 128 64 →
      ∃ t, exec (.pld n f []) s = .next t ∧ t.mem = s.mem ∧
        (t.arr n).ctx = c.pset (regNo f.d) (BitVec.ofNat 1024 (ofLe (s.ocView n phys 128))))

/-- VST, SST and PST buffer their bytes in their group: the array's own instructions then read them there, and read every other
operand-cache byte as before; the operand cache itself changes only at commit (R98, R109, R119). -/
def Piece.StoreIsBuffered : Prop :=
  ∀ (n : Nat) (f : Fields) (s : State),
    let c := (s.arr n).ctx
    let x := c.aget (regNo f.a) + f.imm
    let phys := s.ocFirst n + x.toNat
    let sz := 2 ^ (f.mod.toNat % 4)
    let ready (len align : Nat) : Prop := x.toNat % align = 0 ∧ x.toNat + len ≤ s.ocSize n ∧ (s.arr n).access [] [(phys, len)] = .ok ∧
      (s.arr n).bytesNow + len ≤ 65536
    let done (i : Instr) (at' : State → Prop) (len : Nat) : Prop :=
      ∃ t, exec i s = .next t ∧ t.mem = s.mem ∧ (t.arr n).ctx = c ∧ at' t ∧
        ∀ off k, off + k ≤ phys ∨ phys + len ≤ off → t.ocView n off k = s.ocView n off k
    (s.issues n (vlsSpec 0x01 .none .v 0 true) f true = true → c.vl ≤ 256 → ready (c.vl * 4) 64 →
      done (.vst n f) (fun t => ∀ l, l < c.vl → t.ocView n (phys + 4 * l) 4 =
        if predOn (c.pget f.pred.toNat) f.pn 32 l = true then toLe 4 (elem (c.vget (regNo f.b)) 32 l) else s.ocView n (phys + 4 * l) 4)
        (c.vl * 4)) ∧
    (s.issues n (vlsSpec 0x03 .none .s 3 false) f true = true → ready sz sz →
      done (.sst n f) (fun t => t.ocView n phys sz = toLe sz (c.sget f.b.toNat).toNat) sz) ∧
    (s.issues n (vlsSpec 0x05 .none .p 0 false) f true = true → ready 128 64 →
      done (.pst n f) (fun t => t.ocView n phys 128 = toLe 128 (c.pget (regNo f.b)).toNat) 128)
/-- An instruction's word has its fields at the bits of Table 3.3, and every word is the word of its own fields, so no bit is dropped; in a partition's
program text the word lies in 16 bytes, bits [7:0] lowest, and an array that does not hold it cached fetches it from there (R88). -/
def Obligations.InstructionWord : Prop :=
  (∀ (c o : Nat) (f : Fields), c < 64 → o < 64 →
    let x := (f.word c o).toNat
    bits x 122 6 = c ∧ bits x 116 6 = o ∧ bits x 115 1 = (if f.ge then 1 else 0) ∧ bits x 112 3 = f.pred.toNat ∧
    bits x 111 1 = (if f.pn then 1 else 0) ∧ bits x 96 15 = f.mod.toNat ∧ bits x 88 8 = f.d.toNat ∧ bits x 80 8 = f.a.toNat ∧
    bits x 72 8 = f.b.toNat ∧ bits x 64 8 = f.c.toNat ∧ bits x 0 64 = f.imm.toNat ∧
    wordClass (f.word c o) = c ∧ wordOp (f.word c o) = o ∧ wordFields (f.word c o) = f) ∧
  (∀ w : BitVec 128, (wordFields w).word (wordClass w) (wordOp w) = w) ∧
  (∀ (s : State) (n k : Nat), k < 16 → (s.arr n).cached = none → s.Canonical →
    toLe 1 (bits (s.fetchWord n).toNat (8 * k) 8) = ((s.hbmRead (s.ident n).part (s.arr n).pc 16).drop k).take 1)

/-- A ZRT frame's bytes hold every field of Table 7.7 at its offset, and a segment's every field of Table 7.8, in network byte order; what follows
the header is as long as PAYLOAD_LEN says, a segment's data keep memory order, and its length is a multiple of 8 bytes (R258, R259). -/
def Obligations.ZrtFrameBytes : Prop :=
  (∀ f : ZrtFrame, f.src < 256 → f.dst < 256 → f.svent < 16 → f.rvent < 16 → f.body.sacks ≤ 4 → f.body.toBytes.length < 65536 →
    f.group < 2 ^ 32 → f.epoch < 2 ^ 32 → f.psn < 2 ^ 32 → f.ackPsn < 2 ^ 32 → f.ts < 2 ^ 32 → f.tsEcho < 2 ^ 32 →
    let at' (o k : Nat) : Nat := ofBe ((f.toBytes.drop o).take k)
    at' 0 1 = 16 + f.body.code ∧ bits (at' 1 1) 0 1 = (if f.ecnEcho then 1 else 0) ∧ bits (at' 1 1) 1 1 = (if f.ackNow then 1 else 0) ∧
    bits (at' 1 1) 2 1 = (if f.retx then 1 else 0) ∧ bits (at' 1 1) 3 5 = 0 ∧ at' 2 1 = f.src ∧ at' 3 1 = f.dst ∧
    bits (at' 4 1) 4 4 = f.svent ∧ bits (at' 4 1) 0 4 = f.rvent ∧ at' 5 1 = f.body.sacks ∧ at' 6 2 = f.body.toBytes.length ∧
    at' 8 4 = f.group ∧ at' 12 4 = f.epoch ∧ at' 16 4 = f.psn ∧ at' 20 4 = f.ackPsn ∧ at' 24 4 = f.ts ∧ at' 28 4 = f.tsEcho ∧
    f.toBytes.drop 32 = f.body.toBytes) ∧
  (∀ g : ZrtSeg, g.kind < 256 → g.sub < 256 → g.part < 256 → g.opId < 2 ^ 32 → g.len < 2 ^ 32 → g.off < 2 ^ 32 →
    let at' (o k : Nat) : Nat := ofBe ((g.toBytes.drop o).take k)
    at' 0 1 = g.kind ∧ at' 1 1 = g.sub ∧ at' 2 1 = g.part ∧ bits (at' 3 1) 0 1 = (if g.first then 1 else 0) ∧
    bits (at' 3 1) 1 1 = (if g.last then 1 else 0) ∧ bits (at' 3 1) 2 1 = (if g.marks = [] then 0 else 1) ∧ bits (at' 3 1) 3 5 = 0 ∧
    at' 4 4 = g.opId ∧ at' 8 8 = g.addr.toNat ∧ at' 16 4 = g.len ∧ at' 20 4 = g.off ∧ at' 24 8 = g.operand.toNat ∧
    (g.toBytes.drop 32).take g.data.length = g.data ∧ g.toBytes.length % 8 = 0)
/-! ## Runen: matrix engine and accumulation -/

/-- An instruction of class MMA or ACC may issue, alone in its group and with nothing asked of the array (R97, R99). -/
def accAlone (a : Arr) : Bool := a.undisturbed && a.done.isEmpty && !a.stepping

/-- ACC.OPEN on free lines of the reservation opens its group, whose elements all read zero, and shows it in ARR_ACC_GRP; ACC.CLOSE of
an idle group closes it, and its lines read zero (R111, R143 to R145).
Completion: exec answers a next state, with the effect stated, under hypotheses on the state and the operands alone, for
ACC_OPEN, ACC_CLOSE. -/
def Obligations.AccumulatorOpenAndClose : Prop :=
  ∀ (n : Nat) (f : Fields) (s : State),
    let g := accGrp f
    (accAlone (s.arr n) = true → (s.arr n).acc.length = 8 →
      (let x : AccGroup := { state := 1, shape := accShape f, store := bits f.mod.toNat 4 2, idx := accIdx f, first := immFirst f, count := immCount f,
                             res := s.getF (Fld.ARR_ACC_CFG_RES_FIRST n) }
       s.issues n (accSpec 0x00 .none .none 0x703E 0xFFFFFFFF) f (accShape f != 3) = true → x.idx = s.modeIdx n →
       (s.accGroup n g).state = 0 → x.store ≠ 3 → x.count ≠ 0 → (x.first + x.count) * x.lines ≤ s.getF (Fld.ARR_ACC_CFG_RES_COUNT n) →
       (∀ y ∈ (s.arr n).acc, overlaps x.span.1 x.span.2 y.span.1 y.span.2 = false) → ¬ (x.idx = 1 ∧ x.shape ≠ 0) →
       ∃ t, exec (.accOpen n f) s = .next t ∧ t.accGroup n g = x ∧ t.getF (Fld.ARR_ACC_GRP_STATE n g) = 1 ∧
         (∀ u r, x.first ≤ u → u < x.first + x.count → r < x.rows → t.accRow n (x.rowAt u r) x.store x.cols = List.replicate x.cols 0) ∧
         (t.arr n).ctx = { (s.arr n).ctx with groups := (s.arr n).ctx.groups + 1 } ∧ t.mem.hbm = s.mem.hbm ∧ t.mem.oc = s.mem.oc)) ∧
    (accAlone (s.arr n) = true → (s.arr n).acc.length = 8 →
      (let x := s.accGroup n g
       s.issues n (accSpec 0x01 .none .none 0x7000 0) f true = true → x.state ≠ 0 →
       ((s.arr n).mma.all fun m => m.grp != g) = true → ((s.arr n).drains.all fun d => d.grp != g) = true →
       ∃ t, exec (.accClose n f) s = .next t ∧ t.accGroup n g = AccGroup.closed ∧ t.getF (Fld.ARR_ACC_GRP_STATE n g) = 0 ∧
         (∀ u r, x.first ≤ u → u < x.first + x.count → r < x.rows → t.accRow n (x.rowAt u r) x.store x.cols = List.replicate x.cols 0) ∧
         t.mem.hbm = s.mem.hbm ∧ t.mem.oc = s.mem.oc))

/-- An MMA of formats, K, shape and ranges that R110 allows, into an open group, with clean operands, adds every element's group
sums to that element, in ascending order of k, and changes neither HBM nor the operand cache; it is then in flight until its last update, and
group sums that its check has computed again are counted; with whatever errors it meets, it is carried out (R133 to R138, R147, R148, R156).
Completion: exec answers a next state, with the effect stated, under hypotheses on the state and the operands alone, for
MMA. -/
def Obligations.MmaAccumulates : Prop :=
  ∀ (n : Nat) (f : Fields) (again : List Nat) (s : State),
    let c := (s.arr n).ctx
    let g := accGrp f
    let x := s.accGroup n g
    let shape := accShape f
    let k := (c.sget f.c.toNat).toNat
    let base := s.ocFirst n
    let a := c.aget (regNo f.a)
    let b := c.aget (regNo f.b)
    let sa := bits f.imm.toNat 16 16
    let sb := bits f.imm.toNat 32 16
    let rows := shapeRows shape
    let cols := shapeCols shape
    let ra := mmaRanges (mmaAfmt f) k (base + a.toNat) sa rows
    let rb := mmaRanges (mmaBfmt f) k (base + b.toNat) sb cols
    let units : List Nat := if accIdx f = 1 then (List.range rows).map (immFirst f + ·) else [immFirst f]
    let va := (mmaOperand s n (mmaAfmt f) k (base + a.toNat) sa rows).1
    let vb := (mmaOperand s n (mmaBfmt f) k (base + b.toNat) sb cols).1
    let rowOf (r : Nat) : Nat := if x.idx = 1 then x.rowAt (immFirst f + r) 0 else x.rowAt (immFirst f) r
    s.issues n mmaSpec f (mmaPairOk (mmaAfmt f) (mmaBfmt f) && shape != 3) = true → accAlone (s.arr n) = true → (s.ident n).part < 64 →
    accIdx f = s.modeIdx n → mmaKOk (mmaAfmt f) (mmaBfmt f) k = true → a.toNat % 64 = 0 → b.toNat % 64 = 0 →
    a.toNat + mmaExtent (mmaAfmt f) k sa rows ≤ s.ocSize n → b.toNat + mmaExtent (mmaBfmt f) k sb cols ≤ s.ocSize n →
    x.state = 1 → x.idx = accIdx f → (units.all x.holds) = true → (x.idx = 0 → shape = x.shape) → ¬ (x.idx = 1 ∧ shape = 1) →
    x.store ≤ 2 → ¬ (x.store = 2 ∧ isIntFmt (mmaAfmt f) = false) →
    (s.arr n).access (ra ++ rb) [] = .ok →
    (∀ u m, ∃ t, exec (.mma n f u m) s = .next t ∧ t ≠ s) ∧
    (mmaPoison s n (ra ++ rb) = none →
    ∃ t, exec (.mma n f [] { recomputed := again, permanent := false, corrected := [], uncorrectable := [] }) s = .next t ∧
      t.getF (Fld.ARR_ACC_RECOMP_COUNT n) = min (s.getF (Fld.ARR_ACC_RECOMP_COUNT n) + again.length) (2 ^ (Fld.ARR_ACC_RECOMP_COUNT n).width - 1) ∧
      (∀ r, r < rows → t.accRow n (rowOf r) x.store cols =
        ((s.accRow n (rowOf r) x.store cols).zip vb).map fun e =>
          (mmaElem (groupSize (max (mmaAfmt f) (mmaBfmt f))) k x.store e.1 (va.getD r []) e.2).1 % 2 ^ (8 * storeBytes x.store)) ∧
      (t.arr n).mma = (s.arr n).mma ++ [{ grp := g, first := immFirst f, count := units.length, binary32 := mmaAfmt f == 0 }] ∧
      t.mem.hbm = s.mem.hbm ∧ t.mem.oc = s.mem.oc)

/-- ACC.DRAIN with a valid range, target and stride enters the drain queue behind the drains already there, reading nothing yet
(R111, R148, R149). -/
def Piece.DrainIsQueued : Prop :=
  ∀ (n : Nat) (f : Fields) (s : State) (toOc : Bool) (addr : Nat),
    let c := (s.arr n).ctx
    let x := s.accGroup n (accGrp f)
    let target := bits f.mod.toNat 8 4
    let rm := bits f.mod.toNat 6 2
    let rows := immCount f * x.rows
    let rowBytes := x.cols * (fmtWidth target / 8)
    let stride := bits f.imm.toNat 32 16
    let a := c.aget (regNo f.a)
    let d : Drain := {
      grp := accGrp f, first := immFirst f, count := immCount f, target, rm, sat := f.mod.getLsbD 5, ftz := f.mod.getLsbD 4,
      add := f.mod.getLsbD 3, close := f.mod.getLsbD 2,
      scale := if f.b = 0 then none else some ((c.sget f.b.toNat).setWidth 32), addr, toOc, stride := stride * 64, rows, cols := x.cols,
      seed := c.srSeed, ctr := c.srCtr, started := false
      ahead := (s.arr n).mma.length, held := none }
    s.issues n (accSpec 0x02 .ad .s 0x7FFC 0xFFFFFFFFFFFF) f
      (([0, 1, 2, 10] : List Nat).contains target && (decide (rm ≤ 1) || (rm == 2 && target == 2))) = true →
    accAlone (s.arr n) = true → immCount f ≠ 0 → stride ≠ 0 → ceilDiv rowBytes 64 ≤ stride → a.toNat % 64 = 0 → x.state = 1 →
    (∀ i, i < immCount f → x.holds (immFirst f + i) = true) →
    drainTarget s n (f.mod.getLsbD 3) a ((List.range rows).map fun r => (a.toNat + r * (stride * 64), rowBytes)) = .ok (toOc, addr) →
    (s.arr n).drains.length < 4 → (toOc = true → (s.arr n).rangeCount < 16 ∧ (s.arr n).access [] d.ocRanges = .ok) →
    ∃ t, exec (.accDrain n f) s = .next t ∧ (t.arr n).drains = (s.arr n).drains ++ [d] ∧ t.mem = s.mem ∧
      (t.arr n).ctx.srCtr = (if rm = 2 then c.srCtr + dw (rows * x.cols) else c.srCtr)

/-- The drain at the head of the queue starts when no MMA that it waits for is in flight: with or without CLOSE it is then running, a
drain with CLOSE has closed its group, and each row of a drain into the operand cache holds its elements as they stood before any later MMA,
scaled and converted once;
DRAIN_COMPLETE takes a running drain out of the queue, and LAST_ACCUMULATOR_UPDATE the oldest MMA out of flight (R148 to R155). -/
def Piece.DrainRuns : Prop :=
  ∀ (n : Nat) (s : State), n < 144 → s.alive = true → (s.arr n).undisturbed = true → s.retireDue n = false →
    (s.ident n).part < 64 →
    (∀ (d : Drain) (l : List Drain), (s.arr n).drains = d :: l → d.started = false → d.grp < (s.arr n).acc.length →
      (((s.arr n).mma.take d.ahead).any fun m => m.grp == d.grp && (d.close || m.units.any d.units.contains)) = false →
      let rows := d.held.getD (drainRows s n (s.accGroup n d.grp) d)
      (∀ es ∈ rows, es.length = d.cols) →
      ∃ t, exec (.drainStart n [] []) s = .next t ∧ (t.arr n).drains = { d with started := true } :: l ∧
        (d.close = true → t.accGroup n d.grp = AccGroup.closed) ∧
        (d.toOc = true → d.cols * (fmtWidth d.target / 8) ≤ d.stride → t.mem.hbm = s.mem.hbm ∧
          ∀ r es, rows[r]? = some es → t.ocRead n (d.addr + r * d.stride) (d.cols * (fmtWidth d.target / 8)) =
            (es.zipIdx.flatMap fun e =>
              toLe (fmtWidth d.target / 8) (drainElem d (r * d.cols + e.2) (storedVal (s.accGroup n d.grp).store e.1)).1))) ∧
    (∀ (d : Drain) (l : List Drain), (s.arr n).drains = d :: l → d.started = true →
      ∃ t, exec (.drainComplete n) s = .next t ∧ (t.arr n).drains = l ∧ t.mem = s.mem) ∧
    (∃ t, exec (.lastAccumulatorUpdate n) s = .next t ∧ (t.arr n).mma = (s.arr n).mma.drop 1 ∧ t.mem = s.mem)

/-! ## Numbers -/

/-- Every element of a block whose exponent byte is 0xFF is NaN, whatever its element bits hold; and a block that the device encodes with
that exponent has every element field zero (R53). -/
def Obligations.NanBlocks : Prop :=
  ∀ code : Nat, isBlock code = true →
    (∀ (byte : Nat → Nat) (o k : Nat), byte (o + k / 1024 * groupBytes code + k % 1024 / 16) = 0xFF → blockValue code byte o k = .nan) ∧
    (∀ (rm : RM) (fromTensor : Bool) (t : Nat) (rs : List Nat) (vs : List Val), vs.length = 16 →
      let e := encodeBlock code rm fromTensor t rs vs
      e.1 = 0xFF → blockElemBytes code e.2.1 = List.replicate (blockBytes code) 0)

/-- Flags that are set in a bank: while VALID of NUM_FIRST is 0, NUM_FIRST captures the first flag, the lowest-numbered of several set
together; while VALID is 1 its fields do not change (R79). -/
def Obligations.FirstFlagIsCaptured : Prop :=
  ∀ (source p : Nat) (larray : Option Nat) (kind time : Nat) (f : Word32) (s : State), p < 64 → f ≠ 0 → f.toNat < 2 ^ 11 →
    let t := s.numFlags source p larray kind time f
    (s.flag (Fld.NUM_FIRST_VALID p) = false →
      t.flag (Fld.NUM_FIRST_VALID p) = true ∧ f.getLsbD (t.getF (Fld.NUM_FIRST_FLAG p)) = true ∧
      (∀ i, i < t.getF (Fld.NUM_FIRST_FLAG p) → f.getLsbD i = false) ∧ t.getF (Fld.NUM_FIRST_SOURCE_KIND p) = kind % 2 ^ 8 ∧
      t.getF (Fld.NUM_FIRST_LARRAY p) = (if kind = 3 ∨ kind = 4 then 0 else larray.getD 0) % 2 ^ 7 ∧
      t.getF (Fld.NUM_FIRST_TIME p) = time % 2 ^ 40) ∧
    (s.flag (Fld.NUM_FIRST_VALID p) = true → t.reg (Reg.NUM_FIRST p) = s.reg (Reg.NUM_FIRST p))
/-! ## Runen: vector engine -/

/-- An operation of class VEC that writes a vector register: its constructor, its OP, the register files of B and C, the formats it
takes, what MOD[4] may be, and the result and flags of element `e` at a width (Table 5.2). -/
structure VecRow where
  instr : Nat → Fields → Instr
  op : Nat
  b : Role
  c : Role
  fmts : List Nat
  ok : Fields → Bool
  fn : Ctx → Fields → Nat → Nat → Nat × Flags

/-- Element `e` of A, of B or the scalar that stands for it (R170), and of C. -/
def elemA (c : Ctx) (f : Fields) (wd e : Nat) : Nat := elem (c.vget (regNo f.a)) wd e
def elemB (c : Ctx) (f : Fields) (wd e : Nat) : Nat :=
  if f.mod.getLsbD 4 then (c.sget f.b.toNat).toNat % 2 ^ wd else elem (c.vget (regNo f.b)) wd e
def elemC (c : Ctx) (f : Fields) (wd e : Nat) : Nat := elem (c.vget (regNo f.c)) wd e

/-- An operation of one source, of two and of three. -/
def vecRow1 (instr : Nat → Fields → Instr) (op : Nat) (fmts : List Nat) : VecRow :=
  ⟨instr, op, .none, .none, fmts, fun _ => true, fun c f wd e => vecElem op (vecFmt f) (elemA c f wd e) 0 0⟩
def vecRow2 (instr : Nat → Fields → Instr) (op : Nat) (fmts : List Nat) : VecRow :=
  ⟨instr, op, .sv, .none, fmts, secondOk, fun c f wd e => vecElem op (vecFmt f) (elemA c f wd e) (elemB c f wd e) 0⟩
def vecRow3 (instr : Nat → Fields → Instr) (op : Nat) : VecRow :=
  ⟨instr, op, .sv, .v, [0, 1, 2, 10], secondOk,
   fun c f wd e => vecElem op (vecFmt f) (elemA c f wd e) (elemB c f wd e) (elemC c f wd e)⟩

/-- The operations of Table 5.2 that write a vector register, with the formats that they take. -/
def vecRows : List VecRow :=
  [vecRow2 .vadd 0x00 [0, 1, 2, 10], vecRow2 .vsub 0x01 [0, 1, 2, 10], vecRow2 .vmul 0x02 [0, 1, 2, 10], vecRow3 .vfma 0x03,
   vecRow3 .vfms 0x04, vecRow2 .vmin 0x05 [0, 1, 2, 10], vecRow2 .vmax 0x06 [0, 1, 2, 10], vecRow1 .vabs 0x07 [0, 1, 2, 10],
   vecRow1 .vneg 0x08 [0, 1, 2, 10], vecRow2 .vand 0x09 [0, 1, 2, 10], vecRow2 .vor 0x0A [0, 1, 2, 10], vecRow2 .vxor 0x0B [0, 1, 2, 10],
   vecRow2 .vshl 0x0C [10], vecRow2 .vshr 0x0D [10],
   ⟨.vsel, 0x0E, .sv, .p, [0, 1, 2, 10], secondOk,
    fun c f wd e => (if (c.pget (regNo f.c)).getLsbD (e * (wd / 8)) then elemA c f wd e else elemB c f wd e, 0)⟩,
   ⟨.vdup, 0x0F, .s, .none, [0, 1, 2, 10], fun f => f.mod.getLsbD 4, fun c f wd e => (elemB c f wd e, 0)⟩,
   vecRow2 .vdiv 0x10 [0, 1, 2], vecRow1 .vrcp 0x11 [0, 1, 2], vecRow1 .vsqrt 0x12 [0, 1, 2], vecRow1 .vrsq 0x13 [0, 1, 2],
   vecRow1 .vexp2 0x14 [0, 1, 2], vecRow1 .vlog2 0x15 [0, 1, 2]]

/-- Vector register `v` is `old` with the active elements under VL replaced by `fn`, and `fl` collects the flags of the active elements:
inactive elements and elements beyond VL keep their bits (R166 to R169). -/
def elementwise (c : Ctx) (f : Fields) (wd : Nat) (old v : VReg) (fl : Flags) (fn : Nat → Nat × Flags) : Prop :=
  (∀ e, e < 8192 / wd → elem v wd e =
    if e < elemCount c.vl wd ∧ predOn (c.pget f.pred.toNat) f.pn wd e = true then (fn e).1 % 2 ^ wd else elem old wd e) ∧
  (∀ i, fl.getLsbD i = true ↔ ∃ e, e < elemCount c.vl wd ∧ predOn (c.pget f.pred.toNat) f.pn wd e = true ∧ (fn e).2.getLsbD i = true)

/-- A vector instruction writes `v` and raises `fl` in NSTAT, moves on, and changes nothing else. -/
def writesVector (n : Nat) (f : Fields) (i : Instr) (wd : Nat) (fn : Nat → Nat × Flags) (s : State) : Prop :=
  ∃ t v fl, exec i s = .next t ∧ (t.arr n).ctx = ((s.arr n).ctx.vset (regNo f.d) v).raise fl ∧
    elementwise (s.arr n).ctx f wd ((s.arr n).ctx.vget (regNo f.d)) v fl fn ∧ (t.arr n).pc = (s.arr n).pc + 16 ∧ OnlyArray n s t

/-- Every operation of Table 5.2 that writes a vector register applies its function to the active elements under VL, and leaves the
others as they were. -/
def Piece.VectorOperationResult : Prop :=
  ∀ r ∈ vecRows, ∀ (n : Nat) (f : Fields) (s : State), (s.arr n).ctx.vl ≤ 256 →
    s.issues n (vecSpec r.op .v (if r.op = 0x0F then .none else .v) r.b r.c) f (r.fmts.contains (vecFmt f) && r.ok f) = true →
    writesVector n f (r.instr n f) (fmtWidth (vecFmt f)) (fun e => r.fn (s.arr n).ctx f (fmtWidth (vecFmt f)) e) s

/-- The comparisons of Table 5.2: constructor and OP. -/
def cmpRows : List ((Nat → Fields → Instr) × Nat) := [(.vcmpEq, 0x16), (.vcmpLt, 0x17), (.vcmpLe, 0x18)]

/-- A comparison writes its result into every predicate bit of each active element's bytes and leaves the other bits; a write to p0 is
discarded (R169, Table 5.2). -/
def Piece.VectorComparisonResult : Prop :=
  ∀ r ∈ cmpRows, ∀ (n : Nat) (f : Fields) (s : State),
    let c := (s.arr n).ctx
    let wd := fmtWidth (vecFmt f)
    let res (e : Nat) := vecCmp r.2 (vecFmt f) (elemA c f wd e) (elemB c f wd e)
    c.vl ≤ 256 → s.issues n (vecSpec r.2 .p .v .sv .none) f (([0, 1, 2, 10] : List Nat).contains (vecFmt f) && secondOk f) = true →
    ∃ t p fl, exec (r.1 n f) s = .next t ∧ (t.arr n).ctx = (c.pset (regNo f.d) p).raise fl ∧
      (∀ i, i < 1024 → p.getLsbD i =
        if i / (wd / 8) < elemCount c.vl wd ∧ predOn (c.pget f.pred.toNat) f.pn wd (i / (wd / 8)) = true then (res (i / (wd / 8))).1
        else (c.pget (regNo f.d)).getLsbD i) ∧
      (t.arr n).pc = (s.arr n).pc + 16 ∧ OnlyArray n s t

/-- PERM takes the element of A that B names, or VFILL with LANE_RANGE beyond VL; PACK takes one half of each wider element of A and then
of B; UNPACK widens half-width elements by zeros, by their sign or into the high half; a reversal by SHUF takes A backwards (R175 to R179).
At 8 bits PERM writes the half that MOD[2] chooses, with 16-bit indices. -/
def Piece.PermuteResult : Prop :=
  ∀ (n : Nat) (f : Fields) (s : State),
    let c := (s.arr n).ctx
    let m := f.mod.toNat % 4
    let a (wd e : Nat) : Nat := elem (c.vget (regNo f.a)) wd e
    let b (wd e : Nat) : Nat := elem (c.vget (regNo f.b)) wd e
    c.vl ≤ 256 →
    (s.issues n (vpmSpec 0x00 .v .v .v 7 0) f (m != 3 && (permWidth f == 8 || !f.mod.getLsbD 2)) = true →
      let wd := permWidth f
      let half := if f.mod.getLsbD 2 then 512 else 0
      let ix (e : Nat) : Nat := if wd = 8 then b 16 (e - half) else b wd e
      let on (e : Nat) : Prop := e < elemCount c.vl wd ∧ predOn (c.pget f.pred.toNat) f.pn wd e = true ∧ (wd = 8 → half ≤ e ∧ e < half + 512)
      ∃ t v fl, exec (.perm n f) s = .next t ∧ (t.arr n).ctx = (c.vset (regNo f.d) v).raise fl ∧ (t.arr n).pc = (s.arr n).pc + 16 ∧
        OnlyArray n s t ∧
        (∀ e, e < 8192 / wd →
          (on e → elem v wd e = if ix e < elemCount c.vl wd then a wd (ix e) else c.vfill.toNat % 2 ^ wd) ∧
          (¬ on e → elem v wd e = elem (c.vget (regNo f.d)) wd e)) ∧
        ((∃ e, on e ∧ elemCount c.vl wd ≤ ix e) → fl = Flag.laneRange) ∧ ((∀ e, on e → ix e < elemCount c.vl wd) → fl = 0)) ∧
    (s.issues n (vpmSpec 0x01 .v .v .v 3 0xFFFF000F) f (m != 3 && decide (bits f.imm.toNat 0 4 ≤ 6) && (decide (5 ≤ bits f.imm.toNat 0 4) || bits f.imm.toNat 16 16 == 0)) = true →
      let wd := permWidth f
      let k := elemCount c.vl wd
      let kind := bits f.imm.toNat 0 4
      writesVector n f (.shuf n f) wd (fun e => match shufSource kind k (bits f.imm.toNat 16 16) e with
        | some (second, i) => (if second then b wd i else a wd i, 0)
        | none => (c.vfill.toNat % 2 ^ wd, Flag.laneRange)) s) ∧
    (s.issues n (vpmSpec 0x02 .v .v .v 7 0) f (m == 1 || m == 2) = true →
      let wd := if m = 1 then 16 else 8
      let k := elemCount c.vl (2 * wd)
      writesVector n f (.pack n f) wd (fun e =>
        let x := if e < k then a (2 * wd) e else b (2 * wd) (e - k)
        (if f.mod.getLsbD 2 then x / 2 ^ wd else x % 2 ^ wd, 0)) s) ∧
    (s.issues n (vpmSpec 0x03 .v .v .none 0x1F 0) f (decide (m ≤ 1) && bits f.mod.toNat 3 2 != 3) = true →
      let wd := if m = 0 then 32 else 16
      writesVector n f (.unpack n f) wd (fun e =>
        let x := a (wd / 2) (if f.mod.getLsbD 2 then elemCount c.vl wd + e else e)
        (match bits f.mod.toNat 3 2 with
          | 0 => x
          | 1 => unsigned wd (signed (wd / 2) x)
          | _ => x * 2 ^ (wd / 2), 0)) s)

/-- A broadcast against a tile of rows that are in range, apart and free buffers, for each row and each active element, the register
element combined with the tile element (the row's element for BCAST.COL): the array then reads it there, and every other
operand-cache byte as before (R180, R181). -/
def Piece.BroadcastResult : Prop :=
  ∀ col ∈ [false, true], ∀ (n : Nat) (f : Fields) (s : State),
    let c := (s.arr n).ctx
    let code := f.mod.toNat % 16
    let bop := bits f.mod.toNat 4 3
    let rows := bits f.imm.toNat 0 9
    let stride := bits f.imm.toNat 16 16 * 64
    let wd := fmtWidth code
    let cnt := elemCount c.vl wd
    let rowB := cnt * (wd / 8)
    let d := c.aget (regNo f.d)
    let a := c.aget (regNo f.a)
    let span := (rows - 1) * stride + rowB
    let base := s.ocFirst n
    let rng (x : Nat) := (List.range rows).map fun i => (base + x + i * stride, rowB)
    c.vl ≤ 256 → s.issues n (vpmSpec (if col then 0x05 else 0x04) .ad .ad .v 0x7F 0xFFFF01FF) f
      (([0, 1, 2, 10] : List Nat).contains code && decide (bop ≤ 5)) = true →
    1 ≤ rows → rows ≤ 256 → ceilDiv rowB 64 * 64 ≤ stride → (d = a ∨ overlaps d.toNat span a.toNat span = false) →
    d.toNat % 64 = 0 → a.toNat % 64 = 0 → d.toNat + span ≤ s.ocSize n → a.toNat + span ≤ s.ocSize n →
    (s.arr n).access (if bop = 0 then [] else rng a.toNat) (rng d.toNat) = .ok →
    (∀ i, i < rows → s.ocViewPoison n (base + a.toNat + i * stride) rowB = none) → (s.arr n).bytesNow + rows * rowB ≤ 65536 →
    ∃ t, exec (if col then .bcastCol n f [] else .bcastRow n f []) s = .next t ∧ t.mem = s.mem ∧
      (∀ i e, i < rows → e < cnt →
        t.ocView n (base + d.toNat + i * stride + e * (wd / 8)) (wd / 8) =
          if predOn (c.pget f.pred.toNat) f.pn wd e = true then
            toLe (wd / 8) (bcastElem bop code (ofLe (s.ocView n (base + a.toNat + i * stride + e * (wd / 8)) (wd / 8)))
              (if col then (if i < cnt then elem (c.vget (regNo f.b)) wd i else c.vfill.toNat % 2 ^ wd) else elem (c.vget (regNo f.b)) wd e)).1
          else s.ocView n (base + d.toNat + i * stride + e * (wd / 8)) (wd / 8)) ∧
      (∀ off k, off + k ≤ base + d.toNat ∨ base + d.toNat + span ≤ off → t.ocView n off k = s.ocView n off k)

/-- The reductions: constructor and OP (Table 5.3). -/
def redRows : List ((Nat → Fields → Instr) × Nat) := [(.vredSum, 0x00), (.vredMax, 0x01), (.vredMin, 0x02), (.vredAmax, 0x03)]

/-- A reduction writes the reduction of the active elements, in order, to its scalar, and raises its flags (R174).
Completion: exec answers a next state, with the effect stated, under hypotheses on the state and the operands alone, for
VRED_SUM, VRED_MAX, VRED_MIN, VRED_AMAX. -/
def Obligations.ReductionResult : Prop :=
  ∀ r ∈ redRows, ∀ (n : Nat) (f : Fields) (s : State),
    let c := (s.arr n).ctx
    let wd := fmtWidth (vecFmt f)
    let xs := ((List.range (elemCount c.vl wd)).filter fun e => predOn (c.pget f.pred.toNat) f.pn wd e).map fun e => elemA c f wd e
    s.issues n (vrdSpec r.2) f (([0, 1, 2, 10] : List Nat).contains (vecFmt f)) = true →
    ∃ t, exec (r.1 n f) s = .next t ∧
      (t.arr n).ctx = (c.sset f.d.toNat (reduce r.2 (vecFmt f) xs).1).raise (reduce r.2 (vecFmt f) xs).2 ∧
      (t.arr n).pc = (s.arr n).pc + 16 ∧ OnlyArray n s t

/-- CVT converts the active elements, 32-bit lane by lane, with the rounding, saturation and flushing that MOD asks, and advances SR_CTR by
VL where it rounds stochastically (R64, R183); with CAP on an enabled table it also holds a capture of the source values for commit
(R187). -/
def Piece.RegisterConversionResult : Prop :=
  ∀ (n : Nat) (f : Fields) (s : State),
    let c := (s.arr n).ctx
    let src := cvtSrc f
    let dst := cvtDst f
    let val (i : Nat) : Val := elemValue src (elem (c.vget (regNo f.a)) (fmtWidth src) i)
    let es := (List.range c.vl).filter fun e => predOn (c.pget f.pred.toNat) f.pn 32 e
    c.vl ≤ 256 → s.issues n (cvtSpec 0x00 .v .v .none .none) f
      (pairOk src dst && !isBlock src && !isBlock dst && rmOk (cvtRm f) dst && (cvtCap f || f.imm == 0)) = true →
    (cvtCap f = true → captureCheck s (s.ident n).part f.imm.toNat = none) →
    ∃ t v g, exec (.cvt n f) s = .next t ∧ (t.arr n).groupAfter f.ge = some g ∧
      (t.arr n).ctx.vget (regNo f.d) = v ∧ (t.arr n).ctx.srCtr = (if cvtRm f = 2 then c.srCtr + dw c.vl else c.srCtr) ∧
      (∀ e, e < 8192 / fmtWidth dst → elem v (fmtWidth dst) e =
        if e ∈ es then (convElem dst (rmOf (cvtRm f)) (srBits c.srSeed (c.srCtr + dw e)) (cvtSat f) (cvtFtz f) (val e)).1 % 2 ^ fmtWidth dst
        else elem (c.vget (regNo f.d)) (fmtWidth dst) e) ∧
      (cvtCap f = true → g.captures = ((s.arr n).cur.map Group.captures).getD [] ++ [⟨if s.amaxEnabled (s.ident n).part then some (s.amaxRecordAddr (s.ident n).part f.imm.toNat) else none,
        (captureOf (es.map val)).1, (captureOf (es.map val)).2⟩]) ∧
      OnlyArray n s t
/-! ## Runen: tile conversion, element programs, scales, and what leaves the array -/

/-- CVT.T of a count, of ranges, streams and a capture that pass the checks of R112 buffers the converted tensor: the array then reads each
active element of a target that is no block tensor converted once, and each block of a block tensor encoded from its 16 values, and every
byte outside the target as before; SR_CTR advances by the count where it rounds stochastically (R64, R184, R185). -/
def Piece.TileConversionResult : Prop :=
  ∀ (n : Nat) (f : Fields) (s : State),
    let c := (s.arr n).ctx
    let src := cvtSrc f
    let dst := cvtDst f
    let blk := isBlock src || isBlock dst
    let d := c.aget (regNo f.d)
    let a := c.aget (regNo f.a)
    let cnt := (c.sget f.c.toNat).toNat
    let scale := if f.b = 0 then 0x3F800000 else (c.sget f.b.toNat).toNat % 2 ^ 32
    let sb := tensorBytes src cnt
    let db := tensorBytes dst cnt
    let base := s.ocFirst n
    let byte (i : Nat) : Nat := ((s.ocView n (base + a.toNat) sb).getD i 0).toNat
    let val (i : Nat) : Val := if isBlock src then (mulVal (blockValue src byte 0 i) (decodeF f32 scale)).1 else tensorValue src byte 0 i
    let rnd (i : Nat) : Nat := srBits c.srSeed (c.srCtr + dw i)
    s.issues n (cvtSpec 0x01 .ad .ad .s .s) f
      (pairOk src dst && rmOk (cvtRm f) dst && (cvtCap f || f.imm == 0) && (!blk || (f.pred == 0 && !f.pn))) = true →
    cnt ≠ 0 → (blk = true → cnt % 1024 = 0) → d.toNat % tensorAlign dst = 0 → a.toNat % tensorAlign src = 0 →
    d.toNat + db ≤ s.ocSize n → a.toNat + sb ≤ s.ocSize n → (cvtCap f = true → captureCheck s (s.ident n).part f.imm.toNat = none) →
    (d = a ∨ overlaps d.toNat db a.toNat sb = false) → (s.arr n).access [(base + a.toNat, sb)] [] = .ok →
    (s.arr n).access [] [(base + d.toNat, db)] = .ok → s.ocViewPoison n (base + a.toNat) sb = none → (s.arr n).bytesNow + db ≤ 65536 →
    ∃ t, exec (.cvtT n f []) s = .next t ∧ t.mem = s.mem ∧
      (t.arr n).ctx.srCtr = (if cvtRm f = 2 then c.srCtr + dw cnt else c.srCtr) ∧
      (isBlock dst = false → dst ≠ 9 → ∀ i, i < cnt →
        t.ocView n (base + d.toNat + i * (fmtWidth dst / 8)) (fmtWidth dst / 8) =
          if predOn (c.pget f.pred.toNat) f.pn 32 (i % 256) = true then
            toLe (fmtWidth dst / 8) (convElem dst (rmOf (cvtRm f)) (rnd i) (cvtSat f) (cvtFtz f) (val i)).1
          else s.ocView n (base + d.toNat + i * (fmtWidth dst / 8)) (fmtWidth dst / 8)) ∧
      (isBlock dst = true → ∀ b, b < cnt / 16 →
        let e := encodeBlock dst (rmOf (cvtRm f)) (cvtBexp f) scale ((List.range 16).map fun j => rnd (16 * b + j))
          ((List.range 16).map fun j => val (16 * b + j))
        let g := base + d.toNat + b / 64 * groupBytes dst
        t.ocView n (g + b % 64) 1 = toLe 1 e.1 ∧
        t.ocView n (g + 64 + b % 64 * blockBytes dst) (blockBytes dst) = blockElemBytes dst e.2.1) ∧
      (∀ off k, off + k ≤ base + d.toNat ∨ base + d.toNat + db ≤ off → t.ocView n off k = s.ocView n off k)

/-- EPROG.LOAD of an aligned image in the reservation that passes every check of Table 5.9 binds its slot to it, as ARR_VEC_STATUS then shows;
EPROG.RUN of a bound program on an operand list that passes the checks of R195 writes, for every element of every output stream, what the
program gives for that element (R188 to R196). -/
def Piece.ElementProgram : Prop :=
  ∀ (n : Nat) (f : Fields) (s : State),
    let c := (s.arr n).ctx
    let a := c.aget (regNo f.a)
    let slot := f.imm.toNat % 4
    let base := s.ocFirst n
    let len := eImageBytes (EHead.ofBytes (s.ocView n (base + a.toNat) 64)).ninstr
    let image := s.ocView n (base + a.toNat) len
    let clear (k : Nat) : Prop := (s.arr n).access [(base + a.toNat, k)] [] = .ok ∧ s.ocViewPoison n (base + a.toNat) k = none
    (s.issues n (epgSpec 0x00 .none) f true = true → (s.arr n).progs.length = 4 → a.toNat % 64 = 0 → a.toNat + len ≤ s.ocSize n →
      clear 64 → clear len → eCheck image = none →
      ∃ t, exec (.eprogLoad n f []) s = .next t ∧ (t.arr n).progs = (s.arr n).progs.set slot (some { off := base + a.toNat, image }) ∧
        bits (t.getF (Fld.ARR_VEC_STATUS_BOUND n)) slot 1 = 1 ∧ t.mem = s.mem ∧ (t.arr n).ctx = c) ∧
    (∀ pr : EProg, (s.arr n).progs.getD slot none = some pr →
      let ol := s.ocView n (base + a.toNat) 128
      let h := EHead.ofBytes pr.image
      let prog := eProgram pr.image
      let count := (c.sget f.b.toNat).toNat
      let wd (o k : Nat) : Nat := ofLe ((ol.drop o).take k)
      let ins : List (Nat × Nat) := (List.range h.nin).map fun i => (wd (4 * i) 4, eWidth (h.ifmt.getD i 0))
      let outs : List (Nat × Nat) := (List.range h.nout).map fun i => (wd (0x20 + 4 * i) 4, eWidth (h.ofmt.getD i 0))
      let params : List Nat := (List.range 8).map fun i => wd (0x40 + 4 * i) 4
      let input (i : Nat) : List Nat := ins.map fun x => ofLe (s.ocView n (base + x.1 + i * x.2) x.2)
      let result (i : Nat) : EElem :=
        eRunElem prog (input i) params i fun k => srBits c.srSeed (c.srCtr + dw (i * eStochastic prog + k))
      s.issues n (epgSpec 0x01 .s) f true = true → 1 ≤ count → count ≤ 65536 → a.toNat % 64 = 0 → a.toNat + 128 ≤ s.ocSize n → clear 128 →
      (∀ x ∈ ins ++ outs, x.1 % 64 = 0 ∧ x.1 + count * x.2 ≤ s.ocSize n) → eOverlapOk ins outs count = true →
      s.amaxEnabled (s.ident n).part = false →
      (s.arr n).access (ins.map fun x => (base + x.1, count * x.2)) (outs.map fun x => (base + x.1, count * x.2)) = .ok →
      (∀ x ∈ ins, s.ocViewPoison n (base + x.1) (count * x.2) = none) →
      (s.arr n).bytesNow + count * outs.foldl (fun acc x => acc + x.2) 0 ≤ 65536 →
      ∃ t, exec (.eprogRun n f []) s = .next t ∧ t.mem = s.mem ∧
        (∀ i k x, i < count → outs[k]? = some x →
          t.ocView n (base + x.1 + i * x.2) x.2 = match (result i).o.getD k none with
            | some v => toLe x.2 v
            | none => s.ocView n (base + x.1 + i * x.2) x.2) ∧
        (t.arr n).ctx.srCtr = c.srCtr + dw (count * eStochastic prog))

/-- SCALE.PICK gives 1.0 while the amax table is disabled, and otherwise the scale that its record's window gives (R317, Table 9.3). -/
def Piece.ScalePickResult : Prop :=
  ∀ (n : Nat) (f : Fields) (s : State),
    let c := (s.arr n).ctx
    let p := (s.ident n).part
    let i := (c.sget f.a.toNat).toNat
    let code := f.mod.toNat % 16
    let window := bits f.imm.toNat 0 5
    let done (v : Word64) : Prop := ∃ t, exec (.scalePick n f) s = .next t ∧ (t.arr n).ctx = c.sset f.d.toNat v ∧
      (t.arr n).pc = (s.arr n).pc + 16 ∧ OnlyArray n s t
    s.issues n { cls := 0x11, op := 0x00, d := .s, a := .s, b := .none, c := .none, mod := 0xF, imm := 0x1F1F, last := false, lanes := false } f
      (decide (1 ≤ window) && decide (window ≤ 16) && decide (1 ≤ code) && decide (code ≤ 9)) = true →
    (s.amaxEnabled p = false → done 0x3F800000) ∧
    (s.amaxEnabled p = true → i < s.amaxCount p → s.amaxRecordOk p i = true → s.hbmBadTag p (s.amaxRecordAddr p i) 128 = false →
      s.hbmPoisoned p (s.amaxRecordAddr p i) 128 = false →
      done (pickScale code window (bits f.imm.toNat 8 5) (s.hbmRead p (s.amaxRecordAddr p i) 128)))

/-- A remote operation or GEY.INC that passes the checks of R113 and R114 is deferred to its group's commit: its entry (Table 7.3) carries its
code, its format, the local side, and the operands as they stand at issue, and no register, no memory and no geyser changes before
(R97, R115, R242).
Completion: exec answers a next state, with the effect stated, under hypotheses on the state and the operands alone, for
PUT, GET, ATOM_ADD, ATOM_MIN, ATOM_MAX, ATOM_SWAP, ATOM_CAS, GEY_INC. -/
def Obligations.RemoteOperationIsDeferred : Prop :=
  ∀ (n : Nat) (f : Fields) (s : State),
    let c := (s.arr n).ctx
    let p := (s.ident n).part
    let cw := c.sget f.c.toNat
    let la := (s.ident n).larray
    let cwOk : Prop := fieldOf cw 38 10 = 0 ∧ s.cndIs c.rmoCnd p 1 = true ∧ s.cndIs (fieldOf cw 0 20) p 2 = true
    let done (i : Instr) (e : List Byte) (oc : Option (Nat × Nat × Bool)) : Prop :=
      ∃ t g, exec i s = .next t ∧ (t.arr n).groupAfter f.ge = some g ∧
        g.deferred = (s.arr n).deferredNow ++ [.rmo e c.rmoCnd cw oc] ∧ (t.arr n).ctx = c ∧ t.mem = s.mem ∧ t.gey = s.gey ∧ t.cnd = s.cnd
    let ranged (instr : Instr) (op : Nat) (get : Bool) : Prop :=
      let fab := c.aget (regNo (if get then f.a else f.d))
      let loc := c.aget (regNo (if get then f.d else f.a))
      let len := (c.sget f.b.toNat).toNat
      let phys := s.ocFirst n + loc.toNat
      s.issues n (rmoSpec op .ad .ad .s 1) f true = true → cwOk → 1 ≤ len → len ≤ 16777216 →
      (f.mod.toNat % 2 = 0 → loc.toNat + len ≤ s.ocSize n →
        (s.arr n).access (if get then [] else [(phys, len)]) (if get then [(phys, len)] else []) = .ok →
        done instr (rmoBytes op 0 0 la len fab.toNat loc.toNat 0 0 cw.toNat (n + s.ocFirst n / 65536 * 256)) (some (phys, len, get))) ∧
      (f.mod.toNat % 2 = 1 → rangeHasKind loc.toNat len isSpecialKind = false → s.localRangeOk p loc.toNat len = true →
        done instr (rmoBytes op 16 0 la len fab.toNat loc.toNat 0 0 cw.toNat 0) none)
    let atomic (instr : Instr) (op : Nat) (fmts : List Nat) : Prop :=
      let fmt := f.mod.toNat % 16
      let fab := c.aget (regNo f.a)
      s.issues n (rmoSpec op (if op = 0x06 then .s else .none) .ad .s 0xF) f (fmts.contains fmt) = true → cwOk →
      fab.toNat % (fmtWidth fmt / 8) = 0 →
      done instr (rmoBytes op fmt 0 la 0 fab.toNat 0 (c.sget f.b.toNat).toNat (if op = 0x06 then c.sget f.d.toNat else 0).toNat cw.toNat 0) none
    ranged (.put n f) 0x00 false ∧ ranged (.get n f) 0x01 true ∧
    atomic (.atomAdd n f) 0x02 [0, 1, 2, 10] ∧ atomic (.atomMin n f) 0x03 [0, 1, 2, 10] ∧ atomic (.atomMax n f) 0x04 [0, 1, 2, 10] ∧
    atomic (.atomSwap n f) 0x05 [10] ∧ atomic (.atomCas n f) 0x06 [10] ∧
    (s.issues n (geySpec 0x00 .none .ad .s .s false) f true = true → cwOk →
      done (.geyInc n f) (rmoBytes 0x10 0 0 la 0 (c.aget (regNo f.a)).toNat 0 (c.sget f.b.toNat).toNat 0 cw.toNat 0) none)

/-- GEY.READ returns the count; GEY.WAIT goes on where the count has reached its value and otherwise makes the array WAITING for it; FENCE
goes on where nothing of its scopes is outstanding and otherwise waits (R115, R117).
Completion: exec answers a next state, with the effect stated, under hypotheses on the state and the operands alone, for
GEY_READ, GEY_WAIT, FENCE. -/
def Obligations.GeyserReadAndWaits : Prop :=
  ∀ (n : Nat) (f : Fields) (s : State),
    let c := (s.arr n).ctx
    let g := c.sget f.a.toNat
    let mine : Prop := g.toNat < 65536 ∧ s.geyOwner g.toNat = (s.ident n).part
    let fnc : OpSpec := { cls := 0x17, op := 0x00, d := .none, a := .none, b := .none, c := .none, mod := 0xF, imm := 0, last := true, lanes := false }
    (s.issues n (geySpec 0x02 .s .s .none .none false) f true = true → mine →
      ∃ t, exec (.geyRead n f) s = .next t ∧ (t.arr n).ctx = c.sset f.d.toNat (s.reg (Reg.GEY_COUNT g.toNat)) ∧ OnlyArray n s t) ∧
    (s.issues n (geySpec 0x01 .none .s .s .none true) f true = true → mine →
      ((c.sget f.b.toNat).toNat ≤ s.getF (Fld.GEY_COUNT_COUNT g.toNat) →
        ∃ t, exec (.geyWait n f) s = .next t ∧ (t.arr n).pc = (s.arr n).pc + 16 ∧ (t.arr n).cur = none ∧ OnlyArray n s t) ∧
      (s.getF (Fld.GEY_COUNT_COUNT g.toNat) < (c.sget f.b.toNat).toNat →
        ∃ t gr, exec (.geyWait n f) s = .next t ∧ t.arrState n = stWaiting ∧ (t.arr n).cur = some gr ∧
          gr.wait = some (.gey g.toNat (c.sget f.b.toNat)))) ∧
    (s.issues n fnc f true = true →
      ((s.arr n).fenceDone (f.mod.toNat % 16) = true →
        ∃ t, exec (.fence n f) s = .next t ∧ (t.arr n).pc = (s.arr n).pc + 16 ∧ (t.arr n).cur = none ∧ OnlyArray n s t) ∧
      ((s.arr n).fenceDone (f.mod.toNat % 16) = false →
        ∃ t gr, exec (.fence n f) s = .next t ∧ t.arrState n = stWaiting ∧ (t.arr n).cur = some gr ∧
          gr.wait = some (.fence (f.mod.toNat % 16))))

/-- CND.POST with a free credit of a sound conduit takes it into GRANTED, defers the post of the 64 bytes that the array sees, and returns 1
(R116, R220, R221). -/
def Piece.ConduitPost : Prop :=
  ∀ (n : Nat) (f : Fields) (s : State),
    let c := (s.arr n).ctx
    let a := c.aget (regNo f.a)
    let q := (c.sget f.b.toNat).toNat
    let x := s.cndGet q
    let phys := s.ocFirst n + a.toNat
    s.issues n (cndSpec 0x00) f true = true → a.toNat + 64 ≤ s.ocSize n → (s.arr n).access [(phys, 64)] [] = .ok →
      s.ocViewPoison n phys 64 = none → q < conduitCount → x.valid = true → x.owner = (s.ident n).part → x.kind = 0 →
      x.ledgerOk = true → x.home < 4 → s.cndHeld q = false → 0 < x.free →
      ∃ t g, exec (.cndPost n f) s = .next t ∧ t.cndGet q = { x with granted := x.granted + 1 } ∧ (t.arr n).done = (s.arr n).done ++ [g] ∧
        g.deferred = (s.arr n).deferredNow ++ [.post q (s.ocView n phys 64)] ∧ (t.arr n).ctx = c.sset f.d.toNat 1

/-- CND.TAKE of a sound conduit that holds an entry and whose context needs no other's place in the cache, with no claim of the context and no array
waiting there, delivers the entry at CONS
into the group's buffer, moves CONS on by one, and returns 1 (R116, R222). -/
def Piece.ConduitTake : Prop :=
  ∀ (n : Nat) (f : Fields) (s : State),
    let c := (s.arr n).ctx
    let a := c.aget (regNo f.a)
    let q := (c.sget f.b.toNat).toNat
    let x := s.cndGet q
    let phys := s.ocFirst n + a.toNat
    s.issues n (cndSpec 0x01) f true = true → a.toNat + 64 ≤ s.ocSize n → (s.arr n).access [] [(phys, 64)] = .ok →
    (s.arr n).bytesNow + 64 ≤ 65536 → q < conduitCount → x.valid = true → x.owner = (s.ident n).part → x.kind ∈ [0, 2, 3] →
    x.ledgerOk = true → x.home < 4 → x.owner < 64 → s.cndHeld q = false → 0 < x.occupied → (s.cndCached q = true ∨ cachedIn s.cnd.cache x.home < 4096) → s.Canonical → s.claims = [] → s.cnd.waiters = [] →
    ∃ t, exec (.cndTake n f) s = .next t ∧ t.cndGet q = { x with cons := (x.cons + 1) % 2 ^ 32, taken := x.taken + 1 } ∧
      (t.arr n).ctx = c.sset f.d.toNat 1 ∧ t.ocView n phys 64 = s.cndHead q
/-! ## Groups, contexts and the control of arrays -/

/-- The oldest ended group commits: what the array saw through its buffered writes is then in its operand cache, GROUPS counts the group,
and HBM and the other arrays are as before (R96, R98); the operations that it deferred go out in order (R97). -/
def Piece.GroupCommitAndRelease : Prop :=
  ∀ (n : Nat) (g : Group) (x : Xfer) (s : State), s.alive = true → n < 144 → (s.arr n).cur = none → (s.arr n).stopReq = none →
    (s.arr n).stopBit = false → (s.arr n).switchReq = none →
    ((s.arr n).done = [g] → (s.arr n).released = [] → g.captures = [] → g.flags = [] → g.deferred = [] → g.onCommit = none →
      ∃ t, exec (.groupCommit n) s = .next t ∧ (t.arr n).done = [] ∧
        (t.arr n).ctx = { (s.arr n).ctx with groups := (s.arr n).ctx.groups + 1 } ∧
        (∀ off len, t.ocRead n off len = s.ocView n off len) ∧ t.mem.hbm = s.mem.hbm ∧ (∀ m, m ≠ n → t.arr m = s.arr m)) ∧
    ((s.arr n).done = [] → (s.arr n).released = [.xfer x] → (s.arr n).rangeCount < 16 →
      ∃ t, exec (.deferredRelease n) s = .next t ∧ (t.arr n).released = [] ∧ (t.arr n).xfers = (s.arr n).xfers ++ [x] ∧
        (∀ m, m ≠ n → t.arr m = s.arr m) ∧ t = { s with arrays := t.arrays })

/-- After a transient upset the oldest uncommitted group starts again from its checkpoint and nothing of it or of a younger group is
kept; the replay is counted (R101).  CYCLES goes on counting (the model's choice). -/
def Piece.TransientUpsetReplays : Prop :=
  ∀ (n : Nat) (g : Group) (s : State), s.alive = true → n < 144 → s.arrState n ≠ stRetired → s.domainRuns (n / 4) = true → (s.arr n).stopBit = false →
    ((s.arr n).done ++ (s.arr n).cur.toList).head? = some g → (∀ x ∈ (s.arr n).done ++ (s.arr n).cur.toList, x.granted = []) →
    (s.countUpset (keyReplay n)).retireDue n = false → (s.arr n).stopReq = none → (s.arr n).switchReq = none →
    ∃ t, exec (.transientUpset n) s = .next t ∧ (t.arr n).ctx = { g.checkpoint with cycles := (s.arr n).ctx.cycles } ∧ (t.arr n).pc = g.startPc ∧ (t.arr n).cur = none ∧
      (t.arr n).done = [] ∧ t.getF (Fld.ARR_REPLAY_COUNT n) = min (s.getF (Fld.ARR_REPLAY_COUNT n) + 1) (2 ^ (Fld.ARR_REPLAY_COUNT n).width - 1) ∧
      t.arrState n ≠ stWaiting ∧ t.mem = s.mem ∧ (∀ m, m ≠ n → t.arr m = s.arr m)

/-- A preemption request is remembered while a group is open, and at a group boundary with nothing in flight the array begins to switch
(R123); the restore then saves the context that leaves and brings the other onto the array: IDLE with the registers of a start where firmware
has no image of it, and otherwise with the registers and the program counter of its image as the restore reads it (R124, R126).
Completion: exec answers a next state, with the effect stated, under hypotheses on the state and the operands alone, for
PREEMPTION_REQUEST, CONTEXT_RESTORE. -/
def Obligations.PreemptionAndRestore : Prop :=
  ∀ (n p l : Nat) (c : CtxInfo) (s : State), s.alive = true → n < 144 → (s.arr n).stopBit = false →
    let a := s.arr n
    let u := s.switchOut n c.id
    let image := (u.imageRead c.id.part c.image 0x9000).1
    let word (o k : Nat) : Nat := ofLe ((image.drop o).take k)
    let saved : Prop := c.saved = true ∧ word 0 2 = 1 ∧ word 2 1 = c.id.part ∧ word 4 2 = c.id.larray
    ((s.contexts.find? fun c => c.id.part == p && c.id.larray == l && c.phys == n) = some c → s.arrState n ≠ stRetired →
      s.arrState n ≠ stSwitching → a.switchReq = none → a.ident ≠ some c.id → a.stopReq = none →
      (c.id.bubble = false ∨ s.mayLend n = true) →
      (∀ g, a.cur = some g → g.wait = none →
        ∃ t, exec (.preemptionRequest n p l) s = .next t ∧ t.arr n = { a with switchReq := some c.id } ∧ t = { s with arrays := t.arrays }) ∧
      (a.cur = none → a.done = [] → a.idle = true →
        ∃ t, exec (.preemptionRequest n p l) s = .next t ∧ t.arrState n = stSwitching)) ∧
    (s.arrState n = stSwitching → a.switchReq = some c.id → (s.ctxInfo c.id).isSome = true → u.ctxInfo c.id = some c → s.retireDue n = false →
      ∃ t, exec (.contextRestore ⟨n, [], []⟩) s = .next t ∧ (t.arr n).ident = some c.id ∧ (t.arr n).cur = none ∧ (t.arr n).done = [] ∧
        (¬saved → (t.arr n).ctx = Ctx.zero ∧ (t.arr n).pc = 0 ∧ t.arrState n = stIdle) ∧
        (saved → (t.arr n).pc = word 8 8 / 16 * 16 ∧ (∀ r, 1 ≤ r → r < 64 → (t.arr n).ctx.sget r = dw (word (0x100 + 8 * r) 8)) ∧
          (∀ r, r < 16 → (t.arr n).ctx.aget r = dw (word (0x300 + 8 * r) 8))))

/-- ARR_CTL: START runs the context from ARR_PC with the registers of Table 3.1 at their Start values and every accumulation group CLOSED; RESUME runs it on from ARR_PC;
STOP stops it at a group boundary with reason 2 and otherwise asks for the stop; STEP runs one group; SAVE writes the registers-only
image (R123, R125, R130).  An island that has stood quiet stops its array clocks (R461).
Completion: exec answers a next state, with the effect stated, under hypotheses on the state and the operands alone, for
ARR_CTL_START, ARR_CTL_RESUME, ARR_CTL_STOP, ARR_CTL_STEP, ARR_CTL_SAVE, AUTO_IDLE_TIMEOUT. -/
def Obligations.ArrayControl : Prop :=
  ∀ (n : Nat) (rq : Requester) (s : State), n < 144 → s.writable rq (Reg.ARR_CTL n) 4 = true → s.sealBars rq n = false →
    let a := s.arr n
    let pc := s.getF (Fld.ARR_PC_PC n) * 16
    let id := s.ident n
    let stopped : Prop := s.arrState n = stStopped ∨ s.arrState n = stFaulted
    let runs : Prop := s.arrState n = stRunning ∨ s.arrState n = stWaiting
    (s.arrAtRest n = true → a.drains = [] → (∀ c ∈ s.claims, ¬(c.part = id.part ∧ c.larray = id.larray)) →
      ∃ t, exec (.arrCtlStart rq n) s = .next t ∧ t.arrState n = stRunning ∧ (t.arr n).pc = pc ∧ (t.arr n).cur = none ∧
        (t.arr n).ctx = { Ctx.zero with srSeed := a.ctx.srSeed, srCtr := a.ctx.srCtr, rmoCnd := s.getF (Fld.ARR_START_CND_CONDUIT n) } ∧
        (∀ g, g < 8 → (t.accGroup n g).state = 0) ∧ (∀ m, m ≠ n → t.arr m = s.arr m) ∧ t.mem.hbm = s.mem.hbm ∧ t.mem.oc = s.mem.oc) ∧
    (stopped → ∃ t, exec (.arrCtlResume rq n) s = .next t ∧ t.arrState n = stRunning ∧
      t.arr n = { a with pc, cur := none, stopReq := none, stopBit := false, stepping := false, icache := [] } ∧ (∀ m, m ≠ n → t.arr m = s.arr m) ∧ t.mem = s.mem) ∧
    (runs → a.switchReq = none → a.stopReq = none → a.done = [] →
      (a.cur = none → ∃ t, exec (.arrCtlStop rq n) s = .next t ∧ t.arrState n = stStopped ∧ t.getF (Fld.ARR_STATUS_REASON n) = 2 ∧
        (t.arr n).ctx = a.ctx ∧ t.mem = s.mem) ∧
      (∀ g, a.cur = some g → g.wait = none → ∃ t, exec (.arrCtlStop rq n) s = .next t ∧ t.arrState n = s.arrState n ∧
        t.arr n = { a with stopBit := true })) ∧
    (s.arrState n = stStopped → ∃ t, exec (.arrCtlStep rq n) s = .next t ∧ t.arrState n = stRunning ∧
      t.arr n = { a with pc, cur := none, stopReq := none, stopBit := false, stepping := true, icache := [] } ∧ (∀ m, m ≠ n → t.arr m = s.arr m) ∧ t.mem = s.mem) ∧
    (stopped → s.imageOf n % gib + 0x9000 ≤ gib → s.hbmRangeOk id.part (s.imageOf n) 0x9000 = true →
      ∃ t, exec (.arrCtlSave rq n) s = .next t ∧ t.hbmRead id.part (s.imageOf n) 0x9000 = imageHead s n (s.arrState n) ∧ t.regs = s.regs ∧
        t.arrays = s.arrays) ∧
    (s.flag Fld.PWR_CFG_AUTO_IDLE = true → s.islandQuiet (n / 4) = true → s.domainRuns (n / 4) = true →
      s.pow.autoIdle.contains (n / 4) = false →
      exec (.autoIdleTimeout (n / 4)) s = .next { s with pow := { s.pow with autoIdle := s.pow.autoIdle ++ [n / 4] } })

/-! ## Register access and the banks of the conduit block -/

/-- What a write of value `v` leaves in a field of a register that held `x` (R4, R7). -/
def fieldAfter (f : FieldDesc) (locked : Bool) (x v : Word64) : Nat :=
  let old := fieldOf x f.lo f.width
  let new := fieldOf v f.lo f.width
  match f.ty with
  | .rw => new
  | .rwl => if locked then old else new
  | .w1c => old - (old &&& new)
  | .w1s => old ||| new
  | _ => old

/-- A write of a register without effects of its own (blocks TOP and PWR here) leaves every field as its type says, and no other
register; RWL fields change only while their block is not locked, and RO, RC, WO and RZ fields never (R4, R7).
Completion: exec answers a next state, with the effect stated, under hypotheses on the state and the operands alone, for
REGISTER_WRITE. -/
def Obligations.RegisterWriteByFieldType : Prop :=
  ∀ (rq : Requester) (off width : Nat) (v : Word64) (d : RegDesc) (s : State), s.writable rq off width = true →
    s.verdict rq off width = .ok d off .whole → (off < 0x10000 ∨ 0x20000 ≤ off ∧ off < 0x30000) →
    ∃ t, exec (.registerWrite rq false off width v) s = .next t ∧ OnlyReg off s t ∧
      ∀ f ∈ d.fields, fieldOf (t.reg off) f.lo f.width = fieldAfter f (s.locked off) (s.reg off) v

/-- A read of a whole register answers what the register shows and clears its RC fields; no other field and no other register changes
(R4, R6).
Completion: exec answers a next state, with the effect stated, under hypotheses on the state and the operands alone, for
REGISTER_READ_CLEARING. -/
def Obligations.RegisterReadClears : Prop :=
  ∀ (rq : Requester) (off width : Nat) (d : RegDesc) (s : State), s.alive = true → (∀ f, rq ≠ .fn f) →
    s.verdict rq off width = .ok d off .whole → s.sealHides rq off = false →
    ∃ t, exec (.registerReadClearing rq false off width) s = .next t ∧
      t.host.answer = some ⟨toLe width (s.regShow rq d off).toNat, 0⟩ ∧ (∀ q, q ≠ off → t.reg q = s.reg q) ∧ t.mem = s.mem ∧
      t.arrays = s.arrays ∧
      ∀ f ∈ d.fields, fieldOf (t.reg off) f.lo f.width = if f.ty = .rc then 0 else fieldOf (s.reg off) f.lo f.width

/-- The access is misaligned, or of another width than the register that it would reach. -/
def badAccess (s : State) (rq : Requester) (off width : Nat) : Prop :=
  (width = 0 ∨ off % width ≠ 0) ∨
  (∃ d reg, regCover off = some (d, reg) ∧ (blockOf off).isSome = true ∧ s.mayAccess rq off = true ∧ s.accessGated off = false ∧
    8 * width ≠ d.width ∧ ¬(d.width = 64 ∧ width = 4))

/-- The request reaches register space now: firmware's and the sinter's always do, and a function's while its link is up and its partition
ACTIVE (R387, R405). -/
def reachesSpace (s : State) : Requester → Nat → Prop
  | .fn f, off => s.hostReach f = true ∧ s.fnBarred f false off = false ∧ s.blockOwned off = false
  | _, _ => True

/-- A misaligned access, or one of the wrong width, has no effect; a read of this kind answers zero; and the device records an ACCESS_ERROR
event about the requester's partition, with the kind and the width (R9).  TOP_ACC_ERR, the register that records the first error, is the only
one that may change. -/
def Obligations.BadAccessHasNoEffect : Prop :=
  ∀ (rq : Requester) (off width : Nat) (v : Word64) (s : State), s.alive = true → s.domainRuns (rqSource rq / 256) = true → badAccess s rq off width →
    reachesSpace s rq off →
    let nothing (t : State) : Prop := (∀ q, q ≠ Reg.TOP_ACC_ERR → t.reg q = s.reg q) ∧ t.mem = s.mem ∧ t.arrays = s.arrays
    let recorded (t : State) : Prop := ∃ r c k, r.code = 0x0001 ∧ r.source = rqSource rq ∧ r.part = rqPart rq ∧ (k = 1 ∨ k = 2) ∧
      r.detail.take 2 = [w k, w width] ∧
      t.streams = if rqPart rq = 0 then addRecord s.streams s.zeroDest r else addRecord (addRecord s.streams (.part (rqPart rq)) r) s.zeroDest c
    (∃ t, exec (.registerWrite rq false off width v) s = .next t ∧ nothing t ∧ recorded t) ∧
    (∃ t, exec (.registerReadClearing rq false off width) s = .next t ∧ nothing t ∧ recorded t ∧
      t.host.answer = some ⟨List.replicate width 0, 0⟩)

/-- A partition's bank posts its 64 bytes to a sound conduit with a free credit: the entry stands in the slot of PROD, which moves on, and
CND_RESULT says so; it takes the entry at CONS, which moves on, into CND_TAKE_DATA (R220 to R222). -/
def Piece.BankPostsAndTakes : Prop :=
  ∀ (rq : Requester) (p c : Nat) (s : State),
    let x := s.cndGet c
    p < 64 → c < conduitCount → s.writable rq (Reg.CND_CMD p) 4 = true → x.valid = true → x.owner = p → x.ledgerOk = true →
    x.home < 4 → s.cndHeld c = false → s.cndCached c = true → s.cnd.waiters = [] → s.Canonical →
    (x.kind = 0 → 0 < x.free → x.slot x.prod % gib + 64 ≤ gib → s.hbmRangeOk p (x.slot x.prod) 64 = true →
      ∃ t, exec (.cndCmdPost rq p c) s = .next t ∧ t.getF (Fld.CND_RESULT_DONE p) = 1 ∧ t.getF (Fld.CND_RESULT_CODE p) = 1 ∧
        t.cndGet c = { x with prod := (x.prod + 1) % 2 ^ 32, posted := x.posted + 1 } ∧
        t.hbmRead p (x.slot x.prod) 64 = s.bankEntry p) ∧
    (x.kind ≠ 1 → 0 < x.occupied →
      ∃ t, exec (.cndCmdTake rq p c) s = .next t ∧ t.getF (Fld.CND_RESULT_DONE p) = 1 ∧ t.getF (Fld.CND_RESULT_CODE p) = 1 ∧
        t.cndGet c = { x with cons := (x.cons + 1) % 2 ^ 32, taken := x.taken + 1 } ∧ t.mem = s.mem ∧
        ∀ i, i < 16 → t.getF (Fld.CND_TAKE_DATA_DATA p i) = ofLe (((s.cndHead c).drop (4 * i)).take 4))

/-- CND_FLUSH writes a cached context back to its descriptor in the table, holds it uncached, or ends its hold; with ALL it does so for
every conduit (R224, R225). -/
def Piece.ConduitFlush : Prop :=
  ∀ (rq : Requester) (c : Nat) (s : State), s.writable rq Reg.CND_FLUSH 4 = true → c < conduitCount → s.cnd.waiters = [] → s.cnd.owed = [] →
    let held (t : State) (k : Nat) : Bool := t.cnd.holdAll != t.cnd.holdExcept.contains k
    let back (t : State) : Prop := s.cndCached c = true → readBytes t.mem.hbm (s.cndAddr c) 64 = (s.cndGet c).toBytes
    (∃ t, exec (.cndFlushWriteback rq false c) s = .next t ∧ back t ∧ held t c = false) ∧
    (∃ t, exec (.cndFlushHold rq false c) s = .next t ∧ back t ∧ held t c = true ∧ t.cndCached c = false ∧
      (∀ k, k ≠ c → held t k = held s k)) ∧
    (∃ t, exec (.cndFlushRelease rq false c) s = .next t ∧ back t ∧ held t c = false ∧ (∀ k, k ≠ c → held t k = held s k)) ∧
    (∃ t, exec (.cndFlushHold rq true c) s = .next t ∧ (∀ k, held t k = true) ∧ t.cnd.cache = []) ∧
    (∃ t, exec (.cndFlushRelease rq true c) s = .next t ∧ ∀ k, held t k = false)

/-! ## Events, HBM, geysers and remote operations -/

/-- The conduit is sound and cached, its engine and owner exist, no array waits at any conduit, and the slot of PROD is mapped HBM of the
owner within one segment: a post to it does nothing but store the entry and move the ledger on. -/
def postable (s : State) (c : Nat) : Prop :=
  let x := s.cndGet c
  c < conduitCount ∧ x.valid = true ∧ x.ledgerOk = true ∧ x.home < 4 ∧ x.owner < 64 ∧ s.cndHeld c = false ∧ s.cndCached c = true ∧
  s.cnd.waiters = [] ∧ s.Canonical ∧ x.slot x.prod % gib + 64 ≤ gib ∧ s.hbmRangeOk x.owner (x.slot x.prod) 64 = true

/-- A source posts its waiting record to its event conduit with the next SEQ of that source there, which moves on (R34, R36, R221); a record
that waits more than 100 us for a credit is discarded, and SEQ moves on past it too (R38).
Completion: exec answers a next state, with the effect stated, under hypotheses on the state and the operands alone, for
EVENT_RECORD_POST, EVENT_CREDIT_TIMEOUT. -/
def Obligations.EventPostAndDiscard : Prop :=
  ∀ (source : Nat) (dest : EvtDest) (t : Stream) (r : EvtRec) (c : Nat) (s : State), s.alive = true →
    (s.streams.any fun x => decide (x.dest = .part 0)) = false → s.stream source dest = some t → t.queue.head? = some r → t.lost = 0 →
    s.evtConduit dest r = some c → s.evtWaits r = false → r.code ≠ 0x0006 →
    let x := s.cndGet c
    (postable s c → s.flag (Fld.PRT_EVT_NOTIFY x.owner) = false → 0 < x.free →
      ∃ u, exec (.eventRecordPost source dest) s = .next u ∧
        u.stream source dest = some { t with queue := t.queue.tail } ∧ u.seqOf source c = (s.seqOf source c + 1) % 2 ^ 32 ∧
        (u.cndGet c).prod = (x.prod + 1) % 2 ^ 32 ∧ u.hbmRead x.owner (x.slot x.prod) 64 = padTo 64 (r.toBytes (s.seqOf source c))) ∧
    (x.free = 0 → r.time + 100000 < s.time →
      ∃ u, exec (.eventCreditTimeout source dest) s = .next u ∧
        u.stream source dest = some { t with queue := t.queue.tail, lost := 1 } ∧ u.seqOf source c = (s.seqOf source c + 1) % 2 ^ 32 ∧
        u.mem = s.mem)

/-- A partition's access to a mapped line that reads without error: a read delivers its 64 bytes and changes no memory; a write stores its
bytes and no other byte, and a whole-line write leaves the line poisoned exactly where it says so; an add-on-write adds element by element
(R206, R209, R213).  A line that cannot be corrected is delivered poisoned (R208).
Completion: exec answers a next state, with the effect stated, under hypotheses on the state and the operands alone, for
HBM_LINE_ACCESS. -/
def Obligations.HbmLineAccess : Prop :=
  ∀ (part addr pa : Nat) (s : State), s.alive = true → part < 64 → s.hbmPhys part (addr / 64 * 64) = some pa →
    getBool s.mem.poison (pa / 64) = false → getBool s.mem.badTag (pa / 64) = false → s.Canonical →
    let a := addr / 64 * 64
    let byte (t : State) (x : Nat) : Byte := Sparse.get zeroByte t.mem.hbm x
    (∃ t, exec (.hbmLineAccess part addr .read .clean) s = .next t ∧
      t.mem.reply = some ⟨a, readBytes s.mem.hbm pa 64, false, false, true⟩ ∧ t.mem.hbm = s.mem.hbm ∧ t.mem.poison = s.mem.poison) ∧
    (∃ t m, exec (.hbmLineAccess part addr .read .uncorrectable) s = .next t ∧ t.mem.reply = some m ∧ m.poison = true ∧ m.performed = true) ∧
    (∀ off data poison, off % 64 = 0 → 64 ≤ data.length →
      ∃ t, exec (.hbmLineAccess part addr (.write off data poison) .clean) s = .next t ∧ readBytes t.mem.hbm pa 64 = data.take 64 ∧
        getBool t.mem.poison (pa / 64) = poison ∧ (∀ x, x < pa ∨ pa + 64 ≤ x → byte t x = byte s x)) ∧
    (∀ off data, data.length + off % 64 < 64 →
      ∃ t, exec (.hbmLineAccess part addr (.write off data false) .clean) s = .next t ∧
        readBytes t.mem.hbm (pa + off % 64) data.length = data ∧
        (∀ x, x < pa + off % 64 ∨ pa + off % 64 + data.length ≤ x → byte t x = byte s x)) ∧
    (∀ off fmt data, fmt ∈ [0, 1, 2, 10] →
      let wb := fmtWidth fmt / 8
      let o := off % 64 / wb * wb
      let d := data.take ((64 - o) / wb * wb)
      ∃ t, exec (.hbmLineAccess part addr (.add off fmt data) .clean) s = .next t ∧
        (∀ j, (j + 1) * wb ≤ d.length → ofLe (readBytes t.mem.hbm (pa + o + j * wb) wb) =
          (addElem fmt (ofLe (readBytes s.mem.hbm (pa + o + j * wb) wb)) (ofLe ((d.drop (j * wb)).take wb))).1 % 2 ^ (8 * wb)) ∧
        (∀ x, x < pa + o ∨ pa + o + d.length ≤ x → byte t x = byte s x))

/-- The patrol scrubber corrects a line, or poisons one that cannot be corrected, and counts it (R207 to R209).  When a redirection copy
ends, the segment removed is lost: it reads as nothing, and no other byte changes (R211).  A failed stack loses all its segments
(R212).
Completion: exec answers a next state, with the effect stated, under hypotheses on the state and the operands alone, for
PATROL_SCRUB, PC_RETIREMENT_COPY_END, STACK_PHY_OR_CONTROLLER_FAILURE. -/
def Obligations.ScrubAndRetirement : Prop :=
  ∀ (st line seg : Nat) (s : State), s.alive = true → st < 12 → s.Canonical →
    let pa := st * 2 ^ 36 + line * 64 % 2 ^ 36
    let pc := s.pcOf pa
    (s.getF (Fld.HBM_SCRUB_CFG_PERIOD st) ≠ 0 → getBool s.mem.lostSeg (pa / gib) = false →
      s.flag (Fld.HBM_STATUS_SELF_REFRESH st) = false → getBool s.mem.poison (pa / 64) = false →
      getBool s.mem.badTag (pa / 64) = false →
      s.upsets (keyPcCe st pc) + 1 < s.getF Fld.LOG_THR1_PC_CE → s.upsets (keyPcUe st pc) + 1 < s.getF Fld.LOG_THR1_PC_UE →
      exec (.patrolScrub st line .clean) s = .next s ∧
      (∃ t, exec (.patrolScrub st line .corrected) s = .next t ∧ t.mem = s.mem ∧
        t.getF (Fld.HBM_ECC_CORRECTED st) = min (s.getF (Fld.HBM_ECC_CORRECTED st) + 1) (2 ^ (Fld.HBM_ECC_CORRECTED st).width - 1)) ∧
      (∃ t, exec (.patrolScrub st line .uncorrectable) s = .next t ∧ getBool t.mem.poison (pa / 64) = true ∧ t.mem.hbm = s.mem.hbm ∧
        t.getF (Fld.HBM_ECC_POISONED st) = min (s.getF (Fld.HBM_ECC_POISONED st) + 1) (2 ^ (Fld.HBM_ECC_POISONED st).width - 1))) ∧
    ((s.mem.copying.find? fun c => c.1 == st) = some (st, seg) → seg < 768 → getBool s.mem.lostSeg seg = false →
      s.flag (Fld.PRT_SEG_OWNER_WITHHELD seg) = false →
      ∃ t, exec (.pcRetirementCopyEnd st [] []) s = .next t ∧ getBool t.mem.lostSeg seg = true ∧
        (∀ p r, t.segPhys p r ≠ some seg) ∧
        (∀ x, Sparse.get zeroByte t.mem.hbm x = if seg * gib ≤ x ∧ x < (seg + 1) * gib then 0 else Sparse.get zeroByte s.mem.hbm x)) ∧
    (s.flag (Fld.HBM_STATUS_RETIRED st) = false →
      ∃ t, exec (.stackPhyOrControllerFailure st) s = .next t ∧ t.flag (Fld.HBM_STATUS_RETIRED st) = true ∧
        ∀ i, i < 64 → getBool t.mem.lostSeg (64 * st + i) = true)

/-- Nothing else watches a geyser: no step bank is enabled and no array waits. -/
def unwatched (s : State) : Prop := (∀ j, j < 4 → s.bankEnabled j = false) ∧ ∀ n, (s.arr n).cur = none

/-- The oldest increment that a clock domain has under way reaches the geyser block and is added modulo 2^64 (of several domains' increments one,
in no order the spec gives, log entry 46), and a write of COUNT or TARGET takes effect at once (R228, R234); an
armed geyser whose count reaches its target fires: it disarms where PERIOD is 0, and otherwise its target moves on by PERIOD (R229). -/
def Piece.GeyserCounts : Prop :=
  ∀ (d g : Nat) (x : Word64) (rest : List NetWord) (rq : Requester) (s : State), s.alive = true → d < 100 → g < 65536 → unwatched s →
    let count := s.reg (Reg.GEY_COUNT g)
    let target := s.reg (Reg.GEY_TARGET g)
    let period := s.getF (Fld.GEY_ACT0_PERIOD g)
    let quiet (t : State) (r : Nat) : Prop := (∀ q, q ≠ r → t.reg q = s.reg q) ∧ t.mem = s.mem ∧ t.arrays = s.arrays
    (s.gey.inflight ≠ [] → (∀ e ∈ s.gey.inflight, ∃ d' g' x', e = NetWord.increment d' g' x' ∧ g' < 65536 ∧ s.flag (Fld.GEY_ACT0_ARMED g') = false) →
      ∃ t y left, exec .geyIncrementApply s = .next t ∧ netTake y.src 95 .request s.gey.inflight = some (y, left) ∧ t.gey.inflight = left ∧
        t.reg (Reg.GEY_COUNT y.gey) = s.reg (Reg.GEY_COUNT y.gey) + y.amount ∧ (∀ r, r ≠ Reg.GEY_COUNT y.gey → t.reg r = s.reg r) ∧ t.mem = s.mem) ∧
    (s.gey.inflight = NetWord.increment d g x :: rest → (∀ e ∈ rest, e.src = d) → (s.flag (Fld.GEY_ACT0_ARMED g) = false ∨ (count + x).toNat < target.toNat) →
      ∃ t, exec .geyIncrementApply s = .next t ∧ t.reg (Reg.GEY_COUNT g) = count + x ∧ t.gey.inflight = rest ∧
        (∀ r, r ≠ Reg.GEY_COUNT g → t.reg r = s.reg r) ∧ t.mem = s.mem) ∧
    (s.gey.inflight = NetWord.increment d g x :: rest → (∀ e ∈ rest, e.src = d) → s.flag (Fld.GEY_ACT0_ARMED g) = true → target.toNat ≤ (count + x).toNat → s.pendingOf g = 0 →
      s.flag (Fld.GEY_ACT0_POST g) = false → s.flag (Fld.GEY_ACT0_RINC g) = false → s.flag (Fld.GEY_ACT0_IRQ g) = false →
      s.flag (Fld.GEY_ACT0_WAKE g) = false → (period ≠ 0 → (count + x).toNat < (target + dw period).toNat) →
      ∃ t, exec .geyIncrementApply s = .next t ∧ t.reg (Reg.GEY_COUNT g) = count + x ∧
        t.flag (Fld.GEY_ACT0_ARMED g) = decide (period ≠ 0) ∧ t.reg (Reg.GEY_TARGET g) = if period = 0 then target else target + dw period) ∧
    (s.writable rq (Reg.GEY_COUNT g) 8 = true → (s.flag (Fld.GEY_ACT0_ARMED g) = false ∨ x.toNat < target.toNat) →
      ∃ t, exec (.geyRegisterWrite rq g 0 x) s = .next t ∧ t.reg (Reg.GEY_COUNT g) = x ∧ quiet t (Reg.GEY_COUNT g)) ∧
    (s.writable rq (Reg.GEY_TARGET g) 8 = true → (s.flag (Fld.GEY_ACT0_ARMED g) = false ∨ count.toNat < x.toNat) →
      ∃ t, exec (.geyRegisterWrite rq g 1 x) s = .next t ∧ t.reg (Reg.GEY_TARGET g) = x ∧ quiet t (Reg.GEY_TARGET g))

/-- A firing that waited for a credit posts its entry once one is free, and is then no longer pending (R231, Table 6.5). -/
def Piece.GeyserPostProceeds : Prop :=
  ∀ (g c : Nat) (f : Firing) (s : State), s.alive = true → g < 65536 → s.gey.pending = [f] → f.gey = g → f.posted = false →
    f.cnd = some c → postable s c → (s.cndGet c).owner = s.geyOwner g → (s.cndGet c).kind = 0 → 0 < (s.cndGet c).free →
    s.flag (Fld.GEY_ACT0_RINC g) = false → s.flag (Fld.GEY_ACT0_IRQ g) = false → s.flag (Fld.GEY_ACT0_WAKE g) = false →
    let x := s.cndGet c
    ∃ t, exec (.geyPostAction g) s = .next t ∧ t.gey.pending = [] ∧ (t.cndGet c).prod = (x.prod + 1) % 2 ^ 32 ∧
      t.hbmRead x.owner (x.slot x.prod) 64 = padTo 64 (postEntry f)

/-- A conduit engine takes the entry at the head of a remote-operation conduit, whose CONS moves on: an increment of a local geyser is
performed at once; one of another device's geyser becomes a segment on the first UP path of its stream, and waits in its conduit where there
is none; one whose outcome was known at its release, as DEVICE_UNREACHABLE is, is taken with it (R245, R246, R249, R256).  An operation that
completes posts its record and is no longer outstanding (R247, R250), and one that is outstanding over the transport for OP_TIMEOUT gets status
TIMEOUT, and not before (R268).
Completion: exec answers a next state, with the effect stated, under hypotheses on the state and the operands alone, for
RMO_ENTRY_TAKE, RMO_COMPLETE, OP_TIMEOUT_EXPIRY. -/
def Obligations.RemoteOperations : Prop :=
  ∀ (c id v : Nat) (s : State), s.alive = true →
    let x := s.cndGet c
    let o := entryOp s.rmo.nextId c x.home x.owner (.host x.owner) none (s.cndHead c)
    let gey := (fabLocal o.fabric - geySpace) / 32
    (postable s c → x.kind = 1 → 0 < x.occupied → s.getF (Fld.CND_RMO_OUT_COUNT x.home) < 32768 → s.rmo.closing = [] →
      s.unsentOf c = false →
      (∀ q : RmoQueued, ∀ st dd, s.rmo.queued = [q] → q.cnd = c → q.fate = some (st, dd) →
        ∃ t, exec (.rmoEntryTake ⟨c, []⟩) s = .next t ∧ t.rmo.queued = [] ∧ (t.cndGet c).cons = (x.cons + 1) % 2 ^ 32 ∧
          t.rmo.ops = s.rmo.ops ++ [{ entryOp q.id c x.home x.owner q.src q.cc (s.cndHead c) with status := some st, detail := dd }]) ∧
      (s.rmo.queued = [] → o.opc = opcGinc →
      (o.dev = s.ownDev → unwatched s → s.destCheck s.ownDev o.part opcGinc o.fabric (fmtWidth o.fmt / 8) = none → gey < 65536 →
        s.flag (Fld.GEY_ACT0_ARMED gey) = false →
        ∃ t, exec (.rmoEntryTake ⟨c, []⟩) s = .next t ∧ t.reg (Reg.GEY_COUNT gey) = s.reg (Reg.GEY_COUNT gey) + o.operand ∧
          t.rmo.ops = s.rmo.ops ++ [{ o with status := some rsOk, done := 1 }] ∧ (t.cndGet c).cons = (x.cons + 1) % 2 ^ 32) ∧
      (o.dev ≠ s.ownDev → s.netBarred o.part = false → s.flag Fld.TOP_DEVNUM_VALID = true → s.zrtOn = true →
        (s.streamVent c o.dev = none →
          ∃ t, exec (.rmoEntryTake ⟨c, []⟩) s = .next t ∧ t.rmo = s.rmo ∧ (t.cndGet c).cons = x.cons) ∧
        (s.streamVent c o.dev = some v →
          ∃ t g, exec (.rmoEntryTake ⟨c, []⟩) s = .next t ∧ t.rmo.ops = s.rmo.ops ++ [o] ∧
            (t.path o.dev v).sendq = (s.path o.dev v).sendq ++ [g] ∧ g.kind = 4 ∧
            g.addr = dw o.fabric ∧ g.operand = o.operand ∧ (t.cndGet c).cons = (x.cons + 1) % 2 ^ 32)))) ∧
    (∀ q p, (s.rmo.ops.find? fun y => y.id == id) = some q → s.streamBusy q = false → q.src = .host p → q.status.isSome = true →
      q.cc = some c → postable s c → fieldOf q.cw 20 1 = 0 → q.eng < 4 →
      ∃ t, exec (.rmoComplete id) s = .next t ∧ (∀ y ∈ t.rmo.ops, y.id ≠ id) ∧
        t.hbmRead x.owner (x.slot x.prod) 64 = padTo 64 (q.record s.time) ∧ (t.cndGet c).prod = (x.prod + 1) % 2 ^ 32) ∧
    (∀ q, (s.rmo.ops.find? fun y => y.id == id) = some q → q.status = none → q.dev ≠ s.ownDev →
      ∃ t, exec (.opTimeoutExpiry id) s = .next t ∧ (t.rmo.ops.find? fun y => y.id == id) =
        some (if s.opLimit (q.f 0x30 8) ≤ s.time then { q with status := some rsTimeout, detail := 0 } else q))

/-! ## Remote transport -/

/-- A frame that passes every check of Table 7.10 arrives at a vent from a peer of the group, while the transport is enabled. -/
def arrives (s : State) (v : Nat) (f : ZrtFrame) : Prop :=
  s.alive = true ∧ v < 16 ∧ f.src < 256 ∧ s.zrtOn = true ∧ s.zrtCheck v f = none

/-- A path that has no frame to send again sends its next segments in one DATA frame with the next PSN, once its window and its rate allow, and keeps them until they
are acknowledged (R258, R259, R264).
Completion: exec answers a next state, with the effect stated, under hypotheses on the state and the operands alone, for
ZRT_FRAME_SEND. -/
def Obligations.PathSendsData : Prop :=
  ∀ (d v k : Nat) (s : State), s.alive = true → d < 256 → v < 16 →
    let p := s.path d v
    let segs := takeSegs p (max 1 k) [] p.sendq
    s.zrtOn = true → p.usable = true → p.again = [] → p.sendq ≠ [] → p.unacked.length < p.window → p.nextSend ≤ s.time →
    ∃ t u q fr, exec (.zrtFrameSend d v k) s = .next t ∧ t.rmo.out = s.rmo.out ++ [(v, q, fr)] ∧ fr.dst = d ∧ fr.psn = p.txNext ∧
      fr.epoch = p.epoch ∧ fr.body = .data segs ∧ (t.path d v).unacked = p.unacked ++ [u] ∧ u.psn = p.txNext ∧ u.segs = segs ∧
      (t.path d v).txNext = serialSucc p.txNext ∧ (t.path d v).sendq = p.sendq.drop segs.length ∧ t.mem = s.mem

/-- A DATA frame in order is performed and becomes the highest performed; one at or below it is discarded under reason 7 and answered with
an ACK; one ahead of it waits in the pool (R260 to R262).  An ACK removes the frames that it covers (R263).
Completion: exec answers a next state, with the effect stated, under hypotheses on the state and the operands alone, for
ZRT_DATA, ZRT_ACK. -/
def Obligations.DataFramesAndAcks : Prop :=
  ∀ (v : Nat) (f : ZrtFrame) (s : State), arrives s v f →
    let d := f.src
    let p := s.path d v
    p.state = stUp → f.epoch = p.epoch → f.ecnEcho = false → f.ce = false →
    (∀ g, f.body = .data [g] → g.kind = 4 → p.unacked = [] → p.pool = [] → f.psn = serialSucc p.rxApplied →
      s.destCheck d g.part opcGinc g.addr.toNat 8 = none → unwatched s →
      let gey := (fabLocal g.addr.toNat - geySpace) / 32
      gey < 65536 → s.flag (Fld.GEY_ACT0_ARMED gey) = false →
      ∃ t, exec (.zrtData v f) s = .next t ∧ (t.path d v).rxApplied = f.psn ∧
        t.reg (Reg.GEY_COUNT gey) = s.reg (Reg.GEY_COUNT gey) + g.operand ∧ (t.path d v).sendq = p.sendq ++ [respSeg g rsOk 0]) ∧
    (∀ segs, f.body = .data segs → p.unacked = [] → f.psn ≠ serialSucc p.rxApplied → serialLe f.psn p.rxApplied = true →
      ∃ t q fr l, exec (.zrtData v f) s = .next t ∧ (t.path d v).rxApplied = p.rxApplied ∧ t.rmo.out = s.rmo.out ++ [(v, q, fr)] ∧
        fr.body = .ack l ∧ fr.ackPsn = p.rxApplied ∧ t.mem = s.mem ∧
        t.getF (Fld.CND_ZRT_DISCARD_COUNT 7) = min (s.getF (Fld.CND_ZRT_DISCARD_COUNT 7) + 1) (2 ^ (Fld.CND_ZRT_DISCARD_COUNT 7).width - 1)) ∧
    (∀ segs, f.body = .data segs → p.unacked = [] → f.psn ≠ serialSucc p.rxApplied → serialLe f.psn p.rxApplied = false → p.pool = [] →
      (f.psn + 2 ^ 32 - p.rxApplied) % 2 ^ 32 ≤ p.window →
      (s.rmo.paths.map fun (e : Nat × Path) => e.2.pool.length).foldl (· + ·) 0 < s.getF Fld.CND_ZRT_POOL_SLOTS →
      ∃ t, exec (.zrtData v f) s = .next t ∧ (t.path d v).rxApplied = p.rxApplied ∧ (t.path d v).pool = [(f.psn, segs)] ∧ t.mem = s.mem) ∧
    (∀ u, f.body = .ack [] → p.unacked = [u] → serialLe u.psn f.ackPsn = true →
      ∃ t, exec (.zrtAck v f) s = .next t ∧ (t.path d v).unacked = [] ∧ (t.path d v).expiries = 0 ∧ t.mem = s.mem)

/-- OPEN brings a path UP with a new epoch, which OPEN_ACK answers; OPEN_ACK brings up the path that asked; CLOSE is answered with what
was performed of the closed epoch, which ends the account, and CLOSE_ACK settles it; PROBE is answered with PROBE_REPLY, which only shows the peer's time
(R265 to R267).
Completion: exec answers a next state, with the effect stated, under hypotheses on the state and the operands alone, for
ZRT_OPEN, ZRT_OPEN_ACK, ZRT_CLOSE, ZRT_CLOSE_ACK, ZRT_PROBE, ZRT_PROBE_REPLY. -/
def Obligations.PathFrames : Prop :=
  ∀ (v : Nat) (f : ZrtFrame) (s : State), arrives s v f →
    let d := f.src
    let p := s.path d v
    let known (boot : Nat) : Prop := ∀ u, u < 16 → (s.path d u).valid = true → (s.path d u).peerBoot = 0 ∨ (s.path d u).peerBoot = boot
    let tells (t : State) (b : ZrtBody) : Prop := ∃ q fr, t.rmo.out.getLast? = some (v, q, fr) ∧ fr.dst = d ∧ fr.body = b
    (∀ boot e, f.body = .opening boot e → known boot →
      let epoch := max e ((p.epoch + 1) % 2 ^ 32)
      ∃ t, exec (.zrtOpen v f) s = .next t ∧ (t.path d v).state = stUp ∧ (t.path d v).epoch = epoch ∧ (t.path d v).txNext = 0 ∧
        (t.path d v).unacked = [] ∧ tells t (.openAck (s.getF Fld.CND_ZRT_BOOT_BOOT_ID) epoch)) ∧
    (∀ boot e, f.body = .openAck boot e → p.state ≠ stUp → known boot →
      ∃ t, exec (.zrtOpenAck v f) s = .next t ∧ (t.path d v).state = stUp ∧ (t.path d v).epoch = e ∧ (t.path d v).peerBoot = boot) ∧
    (∀ sv rv e rx k, f.body = .close sv rv e rx → (s.path d rv).state ≠ stUp → s.rmo.closing = [k] → k.dev = d → k.vent = rv →
      k.epoch = e → k.unacked = [] → k.sendq = [] →
      ∃ t, exec (.zrtClose v f) s = .next t ∧ t.rmo.closing = [] ∧ tells t (.closeAck sv rv e k.rxApplied)) ∧
    (∀ sv rv e rx k, f.body = .closeAck sv rv e rx → s.rmo.closing = [k] → k.dev = d → k.vent = sv → k.epoch = e → k.unacked = [] →
      k.sendq = [] → ∃ t, exec (.zrtCloseAck v f) s = .next t ∧ t.rmo.closing = [{ k with settled := true }]) ∧
    (f.body = .probe → ∃ t, exec (.zrtProbe v f) s = .next t ∧ tells t .probeReply) ∧
    (f.body = .probeReply → ∃ t, exec (.zrtProbeReply v f) s = .next t ∧ (t.path d v).tsEcho = f.ts ∧ t.rmo.out = s.rmo.out)

/-- The timers of a path: the retransmission timer sends the oldest frame again and backs off, or at RETRY_MAX takes the path DOWN; the
delayed ACK goes out; the rate recovers by RATE_STEP up to the line rate after a period without an echo; a path that is not UP asks to open,
and an idle one probes (R262 to R265). -/
def Piece.PathTimers : Prop :=
  ∀ (d v : Nat) (s : State), s.alive = true → d < 256 → v < 16 →
    let p := s.path d v
    let sends (i : Instr) (b : ZrtBody → Prop) (q : Path → Prop) : Prop :=
      ∃ t n fr, exec i s = .next t ∧ t.rmo.out = s.rmo.out ++ [(v, n, fr)] ∧ fr.dst = d ∧ b fr.body ∧ q (t.path d v) ∧ t.mem = s.mem
    (∀ u r, p.state = stUp → p.unacked = u :: r → p.lastAckAdvance + p.rto ≤ s.time → p.nextSend ≤ s.time → p.expiries + 1 < s.getF Fld.CND_ZRT_LIMITS_RETRY_MAX →
      sends (.rtoExpiry d v) (fun b => b = .data u.segs) (fun q => q.expiries = p.expiries + 1 ∧ q.rto = min (2 * p.rto) (rtoMax s) ∧
        q.rate = max (s.getF Fld.CND_ZRT_RATE_RATE_MIN) (p.rate / 2))) ∧
    (∀ u r, p.state = stUp → p.shut = false → p.unacked = u :: r → p.lastAckAdvance + p.rto ≤ s.time → s.getF Fld.CND_ZRT_LIMITS_RETRY_MAX ≤ p.expiries + 1 →
      ∃ t, exec (.rtoExpiry d v) s = .next t ∧ (t.path d v).state = stDown ∧ (t.path d v).unacked = []) ∧
    (∀ x, p.state = stUp → p.ackDue = some x → x ≤ s.time → sends (.ackDelayExpiry d v) (fun b => ∃ l, b = .ack l) (fun q => q.ackDue = none)) ∧
    (p.state = stUp →
      exec (.ratePeriodTick d v) s = .next (s.setPath d v (if p.echoSeen then { p with echoSeen := false } else
        { p with alpha := p.alpha * 15 / 16, rate := min (s.lineRate d v) (p.rate + s.getF Fld.CND_ZRT_RATE_RATE_STEP * 100) }))) ∧
    (s.zrtOn = true → p.valid = true → (p.state = stOpening ∨ p.state = stDown) →
      sends (.probeIntervalTick d v) (fun b => b = .opening (s.getF Fld.CND_ZRT_BOOT_BOOT_ID) ((p.epoch + 1) % 2 ^ 32)) (fun q => q = p)) ∧
    (s.zrtOn = true → p.valid = true → p.state = stUp → p.unacked = [] → p.sendq = [] →
      sends (.pathIdleProbe d v) (fun b => b = .probe) (fun q => q = p))

/-- An entry of the path table whose VALID bit is set brings its path to OPENING; one whose bit is cleared takes the path out of use
(R254, R265). -/
def Piece.PathEntries : Prop :=
  ∀ (d v : Nat) (s : State), s.alive = true → d < 256 → v < 16 →
    let e := readBytes s.mem.hbm (s.pathAddr d v) 64
    ((s.path d v).valid = false → bits (e.headD 0).toNat 0 1 = 1 →
      ∃ t, exec (.pathEntryValid d v) s = .next t ∧ (t.path d v).valid = true ∧ (t.path d v).state = stOpening ∧
        (t.path d v).epoch = ofLe ((e.drop 0x18).take 4) ∧ (t.path d v).unacked = [] ∧ t.mem = s.mem ∧ t.regs = s.regs) ∧
    ((s.path d v).valid = true →
      ∃ t, exec (.pathEntryInvalid d v) s = .next t ∧ (t.path d v).valid = false ∧ (t.path d v).state = stClosed ∧
        (t.path d v).unacked = (if (s.path d v).state = stUp ∧ (s.path d v).shut = false then [] else (s.path d v).unacked))

/-! ## Plumes -/

/-- The slot runs a plume, nothing of it waits to be sent, and no credit of its completion conduit is free, so that a completion record
stays with the plume. -/
def plumeCalm (s : State) (k : Nat) : Prop :=
  let p := s.plume k
  let c := p.desc.cpl
  s.alive = true ∧ k < 64 ∧ s.plmActive k = true ∧ p.awaited = [] ∧ p.ctl = [] ∧ p.segs = [] ∧ p.records = [] ∧
  p.owed = [] ∧ p.owedRecords = [] ∧ p.rejoins = [] ∧ p.armed = none ∧ p.permuting = false ∧ p.fresh = false ∧ s.plmCplOk (s.plmOwner k) c = true ∧ s.cndCached c = true ∧
  (s.cndHeld c = true ∨ (s.cndGet c).free = 0)
/-- The next operation of the program has this code, and the reducers it may need are mapped. -/
def plumeNext (s : State) (k op : Nat) : Prop :=
  let p := s.plume k
  plumeCalm s k ∧ p.runs = [] ∧ p.next < p.desc.ops.length ∧ (p.desc.op p.next).op = op ∧ s.mappedReducers k ≠ []
/-- The run of the operation that starts next, of whose buckets none is ready. -/
def startingRun (s : State) (k : Nat) (z : Option PlmReshard) : PlmRun :=
  let p := s.plume k
  { ix := p.next, step := s.reg (Reg.PLM_STEP k), tStart := s.time, seg := 0, late := 0, nonfin := 0, poison := none, decided := [],
    reports := [], got := [], recorded := [], asked := [], waiting := 0, reshard := z, joined := [p.desc.at' p.desc.mypos], missed := [], ready := [], copying := false }

/-- The operations of a plume's program (R276): each starts when it is next; WAIT, SIGNAL, RELEASE and FLIP complete when their condition
holds and queue a record with status OK; LOOP begins the next step; END ends the plume; a reduction that no bucket is ready for, and a
broadcast of another position, run on; a gather asks for nothing that is not stale, and a chunk that arrives is in place; PERMUTE tells
the other positions, and ESCROW sends its chunks; of a gathered chunk that arrives poisoned the bucket is noted (R285, R291 to R294, R296,
R299, R312).
Completion: exec answers a next state, with the effect stated, under hypotheses on the state and the operands alone, for
WAIT, SIGNAL, RELEASE, LOOP, END, FLIP, RS, AR, AG, GATHER, BCAST, ESCROW, PERMUTE. -/
def Obligations.PlumeProgram : Prop :=
  ∀ (k : Nat) (s : State),
    let p := s.plume k
    let d := p.desc
    let o := d.op p.next
    let r := startingRun s k none
    let done (i : Instr) (q : State → Prop) : Prop :=
      ∃ t, exec i s = .next t ∧ (t.plume k).runs = [] ∧ (t.plume k).records = [plmRecord r o psOk (if o.op = 3 then o.value.toNat else 0) 0 plmNone plmNone s.time] ∧
        t.getF (Fld.PLM_STATUS_LAST k) = psOk ∧ q t
    let starts (i : Instr) : Prop := ∃ t, exec i s = .next t ∧ (t.plume k).runs = [r] ∧ (t.plume k).next = p.next + 1
    let noneReady : Prop := 1 ≤ o.count ∧ (p.budget = 0 ∨ s.time < s.plmDeadline k) ∧ s.flag (Fld.LOG_REPLAY_ENABLE (s.plmOwner k)) = false ∧
      ∀ b ∈ o.buckets, s.plmReached k r (d.bucket b).gey (dw (d.bucket b).target) = false
    (plumeNext s k 9 → s.plmReached k r o.gey o.value = true → done (.wait k) (fun t => (t.plume k).next = p.next + 1)) ∧
    (plumeNext s k 10 → done (.signal k) (fun t => t.gey.inflight = s.gey.inflight ++ [NetWord.increment (88 + k / 16) o.gey o.value] ∧ (t.plume k).next = p.next + 1)) ∧
    (plumeNext s k 6 → d.npos = 1 → d.mypos = 0 → s.plmReached k r o.gey o.value = true →
      done (.release k) (fun t => t.gey.inflight = s.gey.inflight ++ [NetWord.increment (88 + k / 16) d.geyBase 1] ∧
        (t.plume k).relStep = some r.step)) ∧
    (plumeNext s k 12 → done (.loop k) (fun t => t.reg (Reg.PLM_STEP k) = s.reg (Reg.PLM_STEP k) + 1 ∧ (t.plume k).next = 0 ∧
      (t.plume k).fresh = true)) ∧
    (plumeNext s k 13 → done (.endPlume k) (fun t => t.plmState k = plDone)) ∧
    (∀ b, plumeNext s k 11 → o.buckets = [b] → s.vPrevValid k b = false → s.Canonical → s.vAddr k b % gib + 64 ≤ gib →
      s.hbmRangeOk (s.plmOwner k) (s.vAddr k b) 64 = true →
      done (.flip k) (fun t => t.vCur k b = r.step.toNat ∧ t.vPrev k b = s.vCur k b ∧ t.vPrevValid k b = true)) ∧
    (plumeNext s k 1 → noneReady → starts (.rs k)) ∧ (plumeNext s k 4 → noneReady → starts (.ar k)) ∧
    (plumeNext s k 2 → d.sharded = false → d.npos = 1 → d.mypos = 0 → done (.ag k) (fun t => (t.plume k).next = p.next + 1)) ∧
    (plumeNext s k 3 → d.sharded = false → (∀ b ∈ o.buckets, ∀ c, c < d.npos → d.size b c = 0 ∨ s.vStale k b c = false) →
      done (.gather k none) (fun t => (t.plume k).next = p.next + 1)) ∧
    (plumeNext s k 5 → fieldOf o.value 0 16 ≠ d.mypos → (∃ b ∈ o.buckets, ∃ c, c < d.npos ∧ 0 < d.size b c) → starts (.bcast k)) ∧
    (plumeNext s k 7 → ∃ t x, exec (.escrow k) s = .next t ∧ (t.plume k).runs = [x] ∧ x = { r with waiting := (d.escrowOps r).length }) ∧
    (∀ z, plumeNext s k 8 → (∃ x ∈ d.ring ++ z.ring, x ≠ d.at' d.mypos) →
      ∃ t, exec (.permute k z none) s = .next t ∧ (t.plume k).runs = [startingRun s k (some z)] ∧
        ∀ x ∈ d.ring ++ z.ring, x ≠ d.at' d.mypos →
          ⟨k, x.1, x.2, .rejoin (d.at' d.mypos).1 (d.at' d.mypos).2 z.id⟩ ∈ t.plmSent) ∧
    (∀ (b c b' c' : Nat) (q : PlmRun), plumeCalm s k → p.runs = [q] → (d.op q.ix).op = 3 → (d.op q.ix).flags % 2 = 0 →
      q.asked = [(b, c), (b', c')] → (b, c) ≠ (b', c') → d.sharded = true →
      ∃ t, exec (.gather k (some (b, c, none))) s = .next t ∧
        (t.plume k).runs = [{ q.poisoned b (!(s.localPoisons (s.plmOwner k) (d.gatherTo (d.op q.ix) b c) (d.size b c * fmtBytes d.wfmt)).isEmpty) with
          asked := [(b', c')], got := q.got ++ [(b, c, d.size b c)] }])

/-- START of a sound descriptor runs the plume from its first operation with its geysers at 0; a join record that agrees ends the wait
for its position, one that does not ends START, and one that is early is kept (R274, R290).  An abort, here or at another position, and a
neighbour that does not answer end it with ABORTED and with BROKEN (R297, R298). -/
def Piece.PlumeStartAndEnd : Prop :=
  ∀ (k pos : Nat) (rq : Requester) (s : State), s.alive = true → k < 64 →
    let p := s.plume k
    let d := p.desc
    let x := s.readPlume (s.plmOwner k) (s.getF (Fld.PLM_DESC_BASE k) * 256)
    let quiet : Prop := p.runs = [] ∧ p.ctl = [] ∧ p.segs = [] ∧ p.records = [] ∧ p.owed = [] ∧ p.owedRecords = [] ∧ p.armed = none
    let c0 := d.cnds.getD 0 0
    (s.writable rq (Reg.PLM_CTL k) 4 = true → s.plmActive k = false → s.flag (Fld.PLM_OWNER_VALID k) = true →
      s.plmDescOk (s.plmOwner k) x.1 x.2 = true → x.2.npos = 1 → p.joins = [] → unwatched s →
      (∀ i, i < 48 → s.flag (Fld.GEY_ACT0_ARMED (x.2.geyBase + i)) = false) →
      ∃ t, exec (.plmCtlStart rq k) s = .next t ∧ t.plmState k = plRunning ∧ (t.plume k).desc = x.2 ∧ (t.plume k).next = 0 ∧
        (t.plume k).stepStart = s.reg (Reg.PLM_STEP k) ∧ (∀ i, i < 48 → t.geyCount (x.2.geyBase + i) = 0)) ∧
    (s.writable rq (Reg.PLM_CTL k) 4 = true → s.plmActive k = true → quiet → d.npos = 1 → d.mypos = 0 →
      ∃ t, exec (.plmCtlAbort rq k) s = .next t ∧ t.plmState k = plAborted ∧ t.getF (Fld.PLM_STATUS_LAST k) = psAborted) ∧
    (s.plmActive k = true → quiet → d.npos = 1 → d.mypos = 0 →
      ∃ t, exec (.plmAbortNotice k pos) s = .next t ∧ t.plmState k = plAborted ∧ t.getF (Fld.PLM_STATUS_LAST k) = psAborted ∧
        t.gey.inflight = s.gey.inflight ++ [NetWord.increment (88 + k / 16) (d.geyBase + 1) 1]) ∧
    (s.plmActive k = true → quiet → p.awaited ≠ [] → s.plmHopLimit k ≤ s.time → (s.cndHeld c0 = true ∨ (s.cndGet c0).free = 0) →
      ∃ t, exec (.plmHopTimeoutExpiry k pos) s = .next t ∧ t.plmState k = plBroken ∧ t.getF (Fld.PLM_STATUS_LAST k) = psBroken ∧
        (t.plume k).awaited = []) ∧
    (∀ id npos crc, s.plmActive k = true → p.awaited = [pos] →
      ((id = d.joinOf.id ∧ npos = d.joinOf.npos ∧ crc = d.joinOf.crc) → p.runs = [] →
        ∃ t, exec (.joinRecord k pos id npos crc) s = .next t ∧ (t.plume k).awaited = [] ∧ t.plmState k = plRunning) ∧
      (¬(id = d.joinOf.id ∧ npos = d.joinOf.npos ∧ crc = d.joinOf.crc) →
        ∃ t, exec (.joinRecord k pos id npos crc) s = .next t ∧ t.plmState k = plIdle ∧ t.getF (Fld.PLM_STATUS_LAST k) = psInvalid)) ∧
    (∀ id npos crc, s.plmActive k = false →
      ∃ t, exec (.joinRecord k pos id npos crc) s = .next t ∧ ⟨pos, id, npos, crc⟩ ∈ (t.plume k).joins ∧ t.regs = s.regs)

/-- What arrives from the ring: a partial of a decided bucket goes to a reducer, which adds this position's contribution element by
element; at the deadline an undecided bucket is late; a position's status is kept; a request for a version that is not held is answered with
the current one, by a remote operation of its own; a version that every position has released retires (R277, R285, R289, R292, R293). -/
def Piece.PlumeEvents : Prop :=
  ∀ (k : Nat) (s : State), s.alive = true → k < 64 → s.plmActive k = true →
    let p := s.plume k
    let d := p.desc
    p.awaited = [] → p.ctl = [] → p.segs = [] → p.records = [] → p.owed = [] → p.owedRecords = [] →
    (∀ j m rep r, j < d.ncnd → j < p.handled.length → m < d.nslot → p.handled.getD j 0 < (s.geyCount (d.geyBase + 8 + j)).toNat →
      let t0 := PlmTag.ofBytes (s.hbmRead (s.plmOwner k) (d.slotOff j m) 64)
      t0.id = d.id → (p.runs.find? fun r => d.takes t0 r) = some r → t0.kind = 1 → (r.decision t0.bucket).isSome = true →
      s.mappedReducers k ≠ [] →
      ∃ t w, exec (.plmSegmentArrive k j m rep) s = .next t ∧ (t.plume k).work = p.work ++ [w] ∧ w.tag = t0 ∧ w.done = 0 ∧
        w.larray ∈ s.mappedReducers k ∧ (t.plume k).handled.getD j 0 = p.handled.getD j 0 + 1) ∧
    (∀ x r, p.work = [x] → (p.runs.find? fun r => d.takes x.tag r) = some r →
      let n := min (addsPerCycle d.carryFmt) (x.acc.length - x.done)
      let own := (s.plmOwn k r x.tag.bucket (x.tag.first + x.done) n).1
      x.done + n < x.acc.length →
      ∃ t y, exec (.reducerAdd k x.larray) s = .next t ∧ (t.plume k).work = [y] ∧ y.done = x.done + n ∧
        y.acc = x.acc.take x.done ++ ((List.zip ((x.acc.drop x.done).take n) own).map fun e => (addElem d.carryFmt e.1 e.2).1) ++
          x.acc.drop (x.done + n) ∧
        t.reg (Reg.PLM_ADDS k) = s.reg (Reg.PLM_ADDS k) + dw n) ∧
    (∀ b r, p.runs = [r] → (d.op r.ix).op = 1 → (d.op r.ix).buckets = [b] → r.decision b = none → r.recorded = [] → p.budget ≠ 0 → r.ready = [] → s.plmDeadline k ≤ s.time →
      s.flag (Fld.LOG_REPLAY_ENABLE (s.plmOwner k)) = false →
      2 ≤ d.npos → 0 < d.size b d.mypos →
      ∃ t r', exec (.lateDecision k b) s = .next t ∧ (t.plume k).runs = [r'] ∧ r'.decision b = some false ∧ r'.late = r.late + 1 ∧
        (b ∈ (t.plume k).carry ↔ d.carry = true)) ∧
    (∀ pos b taken rep, pos < d.npos → (p.status.any fun x => x.bucket == b && x.pos == pos) = false → p.runs = [] →
      ∃ t, exec (.positionStatusRecord k pos b taken rep) s = .next t ∧ (t.plume k).status = p.status ++ [⟨b, pos, taken, rep⟩]) ∧
    (∀ pos b version addr, pos < d.npos → b < d.buckets.length → s.serveFrom k b version = none →
      ∃ t, exec (.gatherRequest k pos b version addr) s = .next t ∧
        t.plmSent = s.plmSent ++ [⟨k, (d.at' pos).1, (d.at' pos).2, .noVersion b d.mypos (s.vCur k b)⟩]) ∧
    (∀ b, s.vPrevValid k b = true → s.vRefs k b = 0 → d.npos * Sparse.get natDefault p.flips b ≤ (s.geyCount d.geyBase).toNat → p.runs = [] →
      s.vAddr k b % gib + 64 ≤ gib → s.hbmRangeOk (s.plmOwner k) (s.vAddr k b) 64 = true → s.Canonical →
      ∃ t, exec (.versionRetire k b) s = .next t ∧ t.vPrevValid k b = false ∧
        t.gey.inflight = s.gey.inflight ++ [NetWord.increment (88 + k / 16) (d.geyBase + 4) 1])

/-! ## Step banks, the log and what survives a failure -/

/-- Only bank `j` may be enabled, no array waits for a geyser, and none of these geysers is armed or watched by the bank. -/
def markersQuiet (s : State) (j : Nat) (l : List Nat) : Prop :=
  (∀ i, i < 4 → i ≠ j → s.bankEnabled i = false) ∧ (∀ n, (s.arr n).cur = none) ∧
  ∀ g ∈ l, s.flag (Fld.GEY_ACT0_ARMED g) = false ∧ g < 65536 ∧ g ≠ s.getF (Fld.PRF_STEP_GEY_ABORT_GEY j) ∧
    g ≠ s.getF (Fld.PRF_STEP_GEY_NAY_GEY j) ∧ g ≠ s.getF (Fld.PRF_STEP_GEY_COMMIT_GEY j)

/-- An idle bank begins an attempt with the next TAG and opens its ring entry; a commit advances STEP, counts, closes the entry with
outcome 1 and increments DONE_GEY; an abort closes it with outcome 2 and its cause, counts, logs an ABORT record with the attempt's TAG and leaves STEP; ENABLE
sets the counts of the geysers that the bank names and its own counts to 0 (R304 to R307).
Completion: exec answers a next state, with the effect stated, under hypotheses on the state and the operands alone, for
ATTEMPT_BEGIN, ATTEMPT_COMMIT, ATTEMPT_ABORT, PRF_STEP_ENABLE. -/
def Obligations.StepBanks : Prop :=
  ∀ (j : Nat) (rq : Requester) (v : BitVec 32) (s : State), s.alive = true → j < 4 →
    let mark (i : Nat) : Nat := (s.getF (Fld.PRF_STEP_MARK_MARK_BASE j) + i) % 65536
    let entry (t : State) (word : Nat) : Word64 := t.reg (Reg.PRF_RING j (t.bankEntry' j) word)
    let step := s.reg (Reg.PRF_STEP_NUM j)
    (s.bankEnabled j = true → s.bankState j = bkIdle →
      (s.bank j).begun < (s.reg (Reg.GEY_COUNT (s.getF (Fld.PRF_STEP_GEY_BEGIN_GEY j)))).toNat → s.commitReached j = false →
      markersQuiet s j ((List.range 12).map mark) →
      ∃ t, exec (.attemptBegin j) s = .next t ∧ t.bankState j = bkOpen ∧ t.reg (Reg.PRF_STEP_TAG j) = s.reg (Reg.PRF_STEP_TAG j) + 1 ∧
        (t.bank j).begun = (s.bank j).begun + 1 ∧ entry t 0 = step ∧ fieldOf (entry t 1) 32 8 = 0 ∧ t.reg (Reg.PRF_STEP_NUM j) = step) ∧
    (s.bankState j = bkCommitting → s.commitWaits j = false → (∀ m ∈ (s.bank j).phase7, m < 1024) →
      markersQuiet s j [mark 12, mark 13] →
      ∃ t, exec (.attemptCommit j) s = .next t ∧ t.bankState j = bkIdle ∧ t.reg (Reg.PRF_STEP_NUM j) = step + 1 ∧
        t.getF (Fld.PRF_STEP_COUNTS_COMMITS j) = (s.getF (Fld.PRF_STEP_COUNTS_COMMITS j) + 1) % 2 ^ (Fld.PRF_STEP_COUNTS_COMMITS j).width ∧
        fieldOf (entry t 1) 32 8 = 1 ∧ t.gey.inflight = s.gey.inflight ++ [NetWord.increment 96 (s.getF (Fld.PRF_STEP_MARK_DONE_GEY j)) 1]) ∧
    (s.bankState j = bkAborting → s.flag (Fld.PRF_STEP_CFG_PLM_EN j) = false → (∀ m ∈ (s.bank j).phase7, m < 1024) →
      ∃ t r, exec (.attemptAbort j) s = .next t ∧ t.bankState j = bkIdle ∧ t.reg (Reg.PRF_STEP_NUM j) = step ∧
        t.getF (Fld.PRF_STEP_COUNTS_ABORTS j) = (s.getF (Fld.PRF_STEP_COUNTS_ABORTS j) + 1) % 2 ^ (Fld.PRF_STEP_COUNTS_ABORTS j).width ∧
        fieldOf (entry t 1) 32 8 = 2 ∧ fieldOf (entry t 1) 40 8 = (s.bank j).cause % 2 ^ 8 ∧ t.log.waiting = s.log.waiting ++ [r] ∧
        r.type = 6 ∧ r.part = s.bankOwner j ∧ r.tag = some (s.bankTag j)) ∧
    (s.writable rq (Reg.PRF_STEP_CFG j) 4 = true → s.flag (Fld.PRF_STEP_OWNER_VALID j) = true → v.getLsbD 31 = true →
      (∀ i, i < 4 → s.bankEnabled i = false) → (∀ n, (s.arr n).cur = none) →
      (∀ g ∈ s.bankGeysers j, g < 65536 ∧ s.geyOwner g = s.bankOwner j ∧ s.flag (Fld.GEY_ACT0_ARMED g) = false) →
      ∃ t, exec (.prfStepEnable rq j v) s = .next t ∧ t.bankEnabled j = true ∧ t.getF (Fld.PRF_STEP_COUNTS_COMMITS j) = 0 ∧
        t.getF (Fld.PRF_STEP_COUNTS_ABORTS j) = 0 ∧ t.getF (Fld.PRF_STEP_CFG_COMMIT_TARGET j) = v.toNat % 2 ^ 9 ∧
        t.geyCount (s.getF (Fld.PRF_STEP_GEY_BEGIN_GEY j)) = 0 ∧ t.geyCount (s.getF (Fld.PRF_STEP_GEY_COMMIT_GEY j)) = 0 ∧
        (t.bank j).begun = 0)

/-- The logger accepts the next record with the next LSN, and while ENABLE is 0 counts it as lost; a descriptor that is sound becomes a
record of its partition and ACK_GEY rises; a block that the cartridge has written, and that no mirror must hold, is durable; a mirror
acknowledges what it has written, and its silence of one second is noted; the end of a snapshot's drain keeps it; counts of upsets clear at the end of
their window; an array refill maps the logical array to its spare (R325, R328, R332 to R334, R344, R354, R355).
Completion: exec answers a next state, with the effect stated, under hypotheses on the state and the operands alone, for
LOG_RECORD_ACCEPT, APPEND_DESCRIPTOR, LOG_BLOCK_WRITTEN, MIRROR_BLOCK_ARRIVE, MIRROR_ACK, MIRROR_TIMEOUT, SNAPSHOT_DRAIN_END, UPSET_WINDOW_END,
ARRAY_REFILL. -/
def Obligations.LogAndSurvival : Prop :=
  ∀ s : State, s.alive = true →
    let lsn := (s.reg Reg.LOG_LSN).toNat
    (∀ r, s.log.waiting = [r] → r.need ≤ Sparse.get natDefault s.log.appended r.part →
      (s.flag Fld.LOG_CTL_ENABLE = true → s.logSpace (32 + (padBody r.body).length) = true →
        ∃ t x, exec .logRecordAccept s = .next t ∧ t.log.waiting = [] ∧ t.log.records = s.log.records ++ [x] ∧ x.lsn = lsn ∧
          x.type = r.type ∧ x.part = r.part ∧ x.bytes.length = 32 + (padBody r.body).length ∧
          (∀ n, r.tag = some n → x.tag = n % 2 ^ 32) ∧ t.reg Reg.LOG_LSN = dw (lsn + 1)) ∧
      (s.flag Fld.LOG_CTL_ENABLE = false →
        ∃ t, exec .logRecordAccept s = .next t ∧ t.log.waiting = [] ∧ t.log.records = s.log.records ∧
          t.getF Fld.LOG_STATUS_LOST = min (s.getF Fld.LOG_STATUS_LOST + 1) (2 ^ Fld.LOG_STATUS_LOST.width - 1))) ∧
    (∀ p, p < 64 →
      let n := Sparse.get natDefault s.log.appended p
      let lg := s.getF (Fld.LOG_APPEND_LOG2DEPTH p)
      let d := s.hbmRead p (s.getF (Fld.LOG_APPEND_BASE p) * 4096 + n % 2 ^ lg * 16) 16
      s.flag (Fld.LOG_APPEND_GEY_EN p) = true → lg ≠ 0 → n < (s.geyCount (s.getF (Fld.LOG_APPEND_GEY_ANNOUNCE_GEY p))).toNat →
      appendable (fieldAt d 0 1) = true → fieldAt d 4 4 % 16 = 0 → 32 + fieldAt d 4 4 ≤ 1048576 →
      s.hbmRangeOk p (fieldAt d 8 8) (fieldAt d 4 4) = true → s.hbmBadTag p (fieldAt d 8 8) (fieldAt d 4 4) = false →
      s.flag Fld.LOG_CTL_ENABLE = true → s.logSpace (32 + fieldAt d 4 4) = true →
      ∃ t x, exec (.appendDescriptor p) s = .next t ∧ t.log.records = s.log.records ++ [x] ∧ x.part = p ∧ x.type = fieldAt d 0 1 ∧
        x.lsn = lsn ∧ Sparse.get natDefault t.log.appended p = n + 1 ∧
        t.gey.inflight.getLast? = some (NetWord.increment 96 (s.getF (Fld.LOG_APPEND_GEY_ACK_GEY p)) 1)) ∧
    (∀ b, s.flag Fld.LOG_CTL_ENABLE = true → s.log.blocks = [b] → b.written = false → s.crtWritable = true →
      s.flag Fld.LOG_STATUS_FULL = false → s.ownBlocks < s.ownCapacity → s.mirrorCounts = false → s.notDurable b.last = true →
      ∃ t, exec .logBlockWritten s = .next t ∧ t.log.blocks = [{ b with written := true }] ∧ t.log.durable = some b.last ∧
        t.reg Reg.LOG_DURABLE = dw b.last) ∧
    (∀ origin first data, s.crtWritable = true → (s.log.mirrored.filter fun b => b.1 == origin).length < 64 * 10 ^ 9 / 65536 →
      ∃ t, exec (.mirrorBlockArrive origin first data) s = .next t ∧ t.log.mirrored = s.log.mirrored ++ [(origin, first, data)] ∧
        t.log.ackOut = s.log.ackOut ++ [(origin, first)] ∧ t.regs = s.regs) ∧
    (∀ b, s.log.blocks = [b] → s.flag Fld.LOG_CTL_MIRROR_EN = true →
      ∃ t, exec (.mirrorAck b.first) s = .next t ∧ t.log.blocks = [{ b with acked := true }] ∧ t.flag Fld.LOG_STATUS_MIRRORED = true) ∧
    (∀ b, (s.log.blocks.find? fun b => !b.acked) = some b → s.mirrorCounts = true → s.log.mirrorAt + 10 ^ 9 ≤ s.time →
      ∃ t, exec .mirrorTimeout s = .next t ∧ t.flag Fld.LOG_STATUS_MIRRORED = false ∧ t.log.unmirrored = some b.first) ∧
    (∀ x, s.log.snap = some x → 3 ≤ s.getF Fld.LOG_SNAP_STATE → x.id < 2 ^ Fld.LOG_SNAP_LAST_ID.width → s.log.snapLost = false →
      ∃ t r y, exec .snapshotDrainEnd s = .next t ∧ t.log.snap = none ∧ t.getF Fld.LOG_SNAP_STATE = 0 ∧ t.getF Fld.LOG_SNAP_LAST_ID = x.id ∧
        t.log.waiting = s.log.waiting ++ [r] ∧ r.type = 8 ∧ y ∈ t.log.kept ∧ y.id = x.id) ∧
    (exec .upsetWindowEnd s =
      .next (if s.getF Fld.LOG_THR_WINDOW_SECONDS = 0 then s else { s with ret := { s.ret with upsets := [] } })) ∧
    (∀ r rest m, s.ret.refill = r :: rest → r.spare = some m → m < 144 → r.info.id.part < 64 → r.info.id.larray < 128 → r.info.saved = false →
      (s.arr m).ident = none → s.bankOf r.info.id.part = none →
      ∃ t, exec .arrayRefill s = .next t ∧ t.ret.refill = rest ∧ (t.arr m).ident = some r.info.id ∧ t.arrState m = stIdle ∧
        t.getF (Fld.PRT_LMAP_PHYS r.info.id.part r.info.id.larray) = m)

/-! ## Vents -/

/-- No path on a vent is UP. -/
def pathsDown (s : State) (v : Nat) : Prop := ∀ d, d < 256 → (s.path d v).state ≠ stUp

/-- The counter of a field goes up by one and stays at its highest value, or wraps; nothing but its register differs. -/
def saturates (f : FieldRef) (s t : State) : Prop := t.getF f = min (s.getF f + 1) (2 ^ f.width - 1)
def advances (f : FieldRef) (s t : State) : Prop := t.getF f = (s.getF f + 1) % 2 ^ f.width

/-- What a port does with a received frame (Table 11.2, first row that applies): its FEC errors are counted first; a frame with a bad FCS, an
uncorrectable error or a bad length is counted; one that
MACsec refuses, one not for the vent or its VLAN, and one of MAC control are discarded and counted; a ZRT frame goes to the transport, or
overflows; an event message of PTP gets a timestamp; EAPOL goes to the sinter, 10,000 frames in a second at most, and installs the key it agrees on
(R360, R363 to R365, R373 to R376). -/
def Piece.VentReceives : Prop :=
  ∀ (v n : Nat) (f : RxFrame) (s : State), s.alive = true → v < 16 → n < 4 → s.portUp v n = true →
    let u := s.fecCount v n f
    let good : Prop := f.fcsOk = true ∧ f.fecUncorr = 0 ∧ 64 ≤ f.len ∧ f.len ≤ s.maxFrame v
    let mine : Prop := good ∧ s.secMode v = 0 ∧ f.sec = none ∧ f.dst ≠ .other ∧ s.vlanOk v f.vid = true
    let underLimit : Prop := ∀ e ∈ (s.vent v).limit, e.1 = n → e.2.1 = s.time / 1000000000 → e.2.2 < 10000
    u.getF (Fld.VNT_FEC_CORR_COUNT v n) = (s.getF (Fld.VNT_FEC_CORR_COUNT v n) + f.fecCorr) % 2 ^ (Fld.VNT_FEC_CORR_COUNT v n).width ∧
    u.getF (Fld.VNT_FEC_UNCORR_COUNT v n) = (s.getF (Fld.VNT_FEC_UNCORR_COUNT v n) + f.fecUncorr) % 2 ^ (Fld.VNT_FEC_UNCORR_COUNT v n).width ∧
    u = { s with regs := u.regs } ∧
    (¬good → ∃ t, exec (.frameReceive v n f) s = .next t ∧ advances (Fld.VNT_RX_FCS_ERR_COUNT v n) u t ∧ OnlyReg (Reg.VNT_RX_FCS_ERR v n) u t) ∧
    (good → s.secMode v = 0 → f.sec = none → (f.dst = .other ∨ s.vlanOk v f.vid = false) →
      ∃ t, exec (.frameReceive v n f) s = .next t ∧ saturates (Fld.VNT_RX_DISCARD_OTHER v n) u t ∧ OnlyReg (Reg.VNT_RX_DISCARD v n) u t) ∧
    (mine → f.body = .macControl →
      ∃ t, exec (.frameReceive v n f) s = .next t ∧ saturates (Fld.VNT_RX_DISCARD_PAUSE v n) u t ∧ OnlyReg (Reg.VNT_RX_DISCARD v n) u t) ∧
    (∀ z, mine → f.body = .udp (s.getF Fld.CND_ZRT_CFG_PORT) true false z →
      (f.full = false →
        exec (.frameReceive v n f) s = .next ((u.incF (Fld.VNT_RX_FRAMES_COUNT v n) 1).zrtReceive v z)) ∧
      (f.full = true →
        ∃ t, exec (.frameReceive v n f) s = .next t ∧ advances (Fld.VNT_RX_OVERFLOW_COUNT v n) u t ∧ OnlyReg (Reg.VNT_RX_OVERFLOW v n) u t)) ∧
    (∀ sak, mine → f.body = .eapol sak → underLimit →
      ∃ t, exec (.frameReceive v n f) s = .next t ∧ t.eth.toFw = s.eth.toFw ++ [(v, n, 8)] ∧ advances (Fld.VNT_RX_FRAMES_COUNT v n) u t ∧
        ((sak = none ∨ (s.vent v).mka = false) → OnlyReg (Reg.VNT_RX_FRAMES v n) { u with eth := t.eth } t) ∧
        (∀ an, sak = some an → (s.vent v).mka = true → (t.portSec v n).tx = some (an % 4, 1) ∧ (an % 4, 0) ∈ (t.portSec v n).rx)) ∧
    (∀ msg domain seq, mine → f.body = .ptp true msg domain seq → s.flag (Fld.VNT_PTP_CFG_EN v) = true → (s.vent v).fifo.length < 64 →
      ∃ t x, exec (.frameReceive v n f) s = .next t ∧ (t.vent v).fifo = (s.vent v).fifo ++ [x] ∧
        x.time = dw (s.time - s.getF (Fld.VNT_PTP_LAT_RX_LAT v)) ∧ t.getF (Fld.VNT_PTP_FIFO_COUNT v) = (s.vent v).fifo.length + 1) ∧
    (good → s.secMode v = 2 → f.sec = none → (∀ sak, f.body ≠ .eapol sak) →
      ∃ t r, exec (.frameReceive v n f) s = .next t ∧ saturates (Fld.VNT_RX_DISCARD_SEC v n) u t ∧
        t.streams = addRecord s.streams .device r ∧ r.code = 0x8007 ∧ r.source = srcVent v ∧ r.detail.take 3 = [w v, w n, 3]) ∧
    (∀ g top, good → s.secMode v ≠ 0 → f.sec = some g → ((s.portSec v n).rx.find? fun e => e.1 == g.an) = some (g.an, top) →
      g.icvOk = true → g.pn + s.getF (Fld.VNT_SEC_CFG_REPLAY_WIN v) < top →
      ∃ t, exec (.frameReceive v n f) s = .next t ∧ saturates (Fld.VNT_RX_DISCARD_SEC v n) u t ∧ t.eth = s.eth ∧ t.mem = s.mem)

/-- A port whose transmitter is free starts the head frame of the highest queue that has one of which enough has reached its buffer, the
smaller of its length and the start threshold: a frame of firmware from queue 7, or a ZRT frame of a path that uses the port (R366, R367).
It carries the port's MAC address and, for a ZRT frame, the next hop's (R363); under a transmit association it takes one packet number
(R375).  An underrun ends the frame, and raises its queue's START by STEP, to CEIL at most (R368). -/
def Piece.VentTransmits : Prop :=
  ∀ (v n : Nat) (s : State), s.alive = true → v < 16 → n < 4 →
    let addr := s.getF (Fld.VNT_MAC_ADDR_BASE v) + n
    (∀ f buf, s.portUp v n = true → s.eth.fwOut = [f] → f.vent = v → f.port = n → f.ahead = 0 → (f.kind = 8 ∨ s.txBarred v n = false) →
      (f.ip = true → s.flag (Fld.VNT_NEXTHOP_VALID v n) = true) →
      min (s.headLen v (.fw f)) (64 * s.txStart v 7) ≤ buf.getD 7 0 →
      ((f.kind = 8 ∨ s.secMode v = 0) →
        ∃ t x, exec (.frameTransmitStart v n buf) s = .next t ∧ t.eth.sent = s.eth.sent ++ [x] ∧ t.eth.fwOut = [] ∧ x.vent = v ∧ x.port = n ∧
          x.queue = 7 ∧ x.src = addr ∧ x.sec = none ∧ x.zrt = none ∧ advances (Fld.VNT_TX_FRAMES_COUNT v n) s t) ∧
      (∀ an pn, (s.portSec v n).tx = some (an, pn) → s.secMode v ≠ 0 → pn ≤ s.pnLast v → f.kind ≠ 8 →
        ∃ t x, exec (.frameTransmitStart v n buf) s = .next t ∧ t.eth.sent = s.eth.sent ++ [x] ∧ x.queue = 7 ∧ x.sec = some (an, pn) ∧
          (t.portSec v n).tx = some (an, pn + 1))) ∧
    (∀ q z buf, s.portUp v n = true → s.eth.fwOut = [] → s.rmo.out = [(v, q, z)] → s.pathPort z.dst v = some n → q < 8 →
      min (s.headLen v (.zrt (v, q, z))) (64 * s.txStart v q) ≤ buf.getD q 0 → s.txBarred v n = false → s.zrtLen v z ≤ s.maxFrame v →
      ∃ t x, exec (.frameTransmitStart v n buf) s = .next t ∧ t.rmo.out = [] ∧ t.eth.sent = s.eth.sent ++ [x] ∧ x.vent = v ∧ x.port = n ∧
        x.queue = q ∧ x.src = addr ∧ x.hop = some (s.getF (Fld.VNT_NEXTHOP_MAC v n)) ∧ x.zrt.map Prod.fst = some z ∧
        x.vlan = (if s.flag (Fld.VNT_MAC_CFG_VLAN_EN v) = true then some (s.getF (Fld.VNT_MAC_CFG_VID v), q) else none) ∧
        advances (Fld.VNT_TX_FRAMES_COUNT v n) s t) ∧
    (∀ q len, (s.vent v).wire = [(n, q, len)] → q < 8 →
      ∃ t r, exec (.transmitUnderrun v n) s = .next t ∧ (t.vent v).wire = [] ∧
        t.getF (Fld.VNT_TXQ_THRESH_START v q) =
          max (s.getF (Fld.VNT_TXQ_THRESH_START v q))
            (min (s.getF (Fld.VNT_TXQ_THRESH_CEIL v q)) (s.txStart v q + s.getF (Fld.VNT_TXQ_THRESH_STEP v q))) ∧
        saturates (Fld.VNT_TXQ_UNDERRUN_COUNT v q) s t ∧ t.streams = addRecord s.streams .device r ∧ r.code = 0x8005)

/-- A port that has trained is UP at the rate of its lanes; a return within a second of a loss is charged to the lane on which training
failed.  A port that loses its signal is down, its waiting frames are flushed, and it trains again (R370, R371). -/
def Piece.VentLinks : Prop :=
  ∀ (v n : Nat) (s : State), s.alive = true → v < 16 → n < 4 →
    let training (t : State) : Nat := bits (t.getF (Fld.VNT_STATUS_TRAINING v)) n 1
    let rate (t : State) : Nat := bits (t.getF (Fld.VNT_STATUS_RATE v)) (4 * n) 4
    (∀ failed, training s = 1 → s.portLanes v n ≠ [] →
      (((s.vent v).loss.any fun y => y.port == n) = false →
        ∃ t r, exec (.portLinkUp v n failed) s = .next t ∧ t.portUp v n = true ∧ training t = 0 ∧ rate t = rateCode (s.portLanes v n).length ∧
          t.streams = addRecord s.streams .device r ∧ r.code = 0x8001 ∧ r.source = srcVent v) ∧
      (∀ y l, (s.vent v).loss = [y] → y.port = n → s.time ≤ y.time + 1000000000 → failed = some l → l < 4 →
        s.upsets (keyLane (4 * v + l)) + 1 < s.getF Fld.LOG_THR0_LANE_RETRAIN →
        ∃ t, exec (.portLinkUp v n failed) s = .next t ∧ t.portUp v n = true ∧ saturates (Fld.VNT_LANE_STAT_CHARGES v l) s t ∧
          t.upsets (keyLane (4 * v + l)) = s.upsets (keyLane (4 * v + l)) + 1)) ∧
    (∀ cause errs, s.portUp v n = true → pathsDown s v → s.portLanes v n ≠ [] → s.flag (Fld.VNT_CTL_ENABLE v) = true →
      s.flag (Fld.VNT_STATUS_RETIRED v) = false → s.domainRuns (48 + v) = true → s.domainRuns (64 + v) = true →
      ∃ t r, exec (.portLinkDown v n cause errs) s = .next t ∧ t.portUp v n = false ∧ training t = 1 ∧ rate t = 0 ∧
        (∀ e ∈ t.rmo.out, s.waitsOn v n e = false) ∧ (∀ f ∈ t.eth.fwOut, ¬(f.vent = v ∧ f.port = n)) ∧
        t.streams = addRecord s.streams .device r ∧ r.code = 0x8002 ∧ r.detail.take 3 = [w v, w n, w cause])

/-- ENABLE starts training on every port of the vent, and its end takes every port down; a vent reset, through VNT_CTL or RST_VENT, takes
the ports down, and clears the counters, the timestamps and the associations; a write of VNT_PTP_FIFO pops the oldest timestamp and shows
the next (R362, R376, R381, Table 11.4). -/
def Piece.VentControl : Prop :=
  ∀ (v : Nat) (rq : Requester) (s : State), v < 16 →
    let down (t : State) : Prop := ∀ n, n < 4 → t.portUp v n = false
    let clear (t : State) : Prop := down t ∧ (t.vent v).fifo = [] ∧ (t.vent v).sec = [] ∧ (t.vent v).wire = [] ∧
      (∀ q, q < 8 → t.reg (Reg.VNT_TXQ_UNDERRUN v q) = 0) ∧
      (∀ n, n < 4 → t.reg (Reg.VNT_TX_FRAMES v n) = 0 ∧ t.reg (Reg.VNT_RX_FRAMES v n) = 0 ∧ t.reg (Reg.VNT_TX_FLUSHED v n) = 0)
    (s.writable rq (Reg.VNT_CTL v) 4 = true → s.flag (Fld.VNT_CTL_RESET v) = false →
      (s.flag (Fld.VNT_CTL_ENABLE v) = false → s.flag (Fld.VNT_STATUS_RETIRED v) = false →
        ∃ t, exec (.vntEnable rq v true) s = .next t ∧ t.flag (Fld.VNT_CTL_ENABLE v) = true ∧
          ∀ n, n < s.ventPorts v → s.portUp v n = false → s.portLanes v n ≠ [] → bits (t.getF (Fld.VNT_STATUS_TRAINING v)) n 1 = 1) ∧
      (s.flag (Fld.VNT_CTL_ENABLE v) = true → pathsDown s v →
        ∃ t, exec (.vntEnable rq v false) s = .next t ∧ t.flag (Fld.VNT_CTL_ENABLE v) = false ∧ down t ∧ t.getF (Fld.VNT_STATUS_TRAINING v) = 0) ∧
      (pathsDown s v →
        ∃ t, exec (.vntCtlReset rq v) s = .next t ∧ clear t ∧ t.flag (Fld.VNT_CTL_ENABLE v) = s.flag (Fld.VNT_CTL_ENABLE v))) ∧
    (s.writable rq Reg.RST_VENT 4 = true → pathsDown s v → ∃ t, exec (.rstVentGo rq v) s = .next t ∧ clear t) ∧
    (∀ x rest, s.writable rq (Reg.VNT_PTP_FIFO v) 4 = true → (s.vent v).fifo = x :: rest → rest.length < 64 →
      ∃ t, exec (.vntPtpFifoPop rq v) s = .next t ∧ (t.vent v).fifo = rest ∧ t.getF (Fld.VNT_PTP_FIFO_COUNT v) = rest.length ∧
        t.reg (Reg.VNT_PTP_TS_TIME v) = (match rest with | y :: _ => y.time | [] => 0))

/-- In the dormant state the wake detector arms once the signal has been quiet; a burst long enough (MODE 1), or COUNT bursts and gaps
within their limits (MODE 2), then wake the device, disarm the detector and name the mode as the cause (R378 to R380). -/
def Piece.WakeDetector : Prop :=
  ∀ s : State, s.pow.state = .dormant → s.wakeMode ≠ 0 →
    (s.flag Fld.PWR_WAKE_DETECTOR = true → s.pow.armed = false →
      ∃ t, exec .wakeDetectorArm s = .next t ∧ t.pow.armed = true ∧ t.flag Fld.VNT_WAKE_STATUS_ARMED = true ∧ t.pow.state = .dormant) ∧
    (∀ bursts, s.pow.armed = true →
      let onMin := s.getF Fld.VNT_WAKE_TIMES_ON_MIN
      let onMax := s.getF Fld.VNT_WAKE_TIMES_ON_MAX
      let offMin := s.getF Fld.VNT_WAKE_TIMES_OFF_MIN
      let offMax := s.getF Fld.VNT_WAKE_TIMES_OFF_MAX
      (s.wakeMode = 1 → (∀ e ∈ bursts, e.2 < onMin) → exec (.wakePatternMatch bursts) s = .next s) ∧
      ((s.wakeMode = 1 ∧ ∃ e ∈ bursts, onMin ≤ e.2) ∨
        (s.wakeMode = 2 ∧ bursts.length = min 8 (max 2 (s.getF Fld.VNT_WAKE_CFG_COUNT)) ∧
          (∀ e ∈ bursts, onMin ≤ e.2 ∧ e.2 ≤ onMax) ∧ (∀ e ∈ bursts.tail, offMin ≤ e.1 ∧ e.1 ≤ offMax)) →
        ∃ t, exec (.wakePatternMatch bursts) s = .next t ∧ t.pow.state ≠ .dormant ∧ t.flag Fld.VNT_WAKE_STATUS_ARMED = false ∧
          t.flag Fld.VNT_WAKE_STATUS_VALID = true ∧ t.getF Fld.VNT_WAKE_STATUS_CAUSE = s.wakeMode))

/-! ## The host side -/

/-- A read through the aperture delivers the bytes of the partition's mapped memory, once its islands are woken and its use is counted; a
write of a part of one HBM line stores those bytes and changes no others; both answer as an unmapped address while the partition is not
ACTIVE (R386, R387, R532). -/
def Piece.HostAperture : Prop :=
  ∀ (f off : Nat) (ide : Option Nat) (s : State), s.alive = true → f < 64 → s.hostReach f = true →
    let a := s.apertureAddr f off
    (∀ len, s.partActive f = true → s.apertureMapped f a len ide = true →
      let u := s.wakeWindows f a len
      u.localBadTag f a len = none → u.localPoison f a len = none →
      ∃ t, exec (.apertureRead f off len ide) s = .next t ∧ t.host.answer = some ⟨u.localRead f a len, 0⟩ ∧ t.mem = s.mem ∧
        t.arrays = s.arrays ∧ t.streams = s.streams) ∧
    (∀ len, s.partActive f = false →
      ∃ t, exec (.apertureRead f off len ide) s = .next t ∧ t.host.answer = some ⟨[], 1⟩ ∧ saturates Fld.PCI_ERR_UR s t ∧ t.mem = s.mem) ∧
    (∀ data pa, s.partActive f = true → s.Canonical → 0 < data.length → a % 64 + data.length ≤ 64 → a < hbmBytes →
      s.hbmPhys f a = some pa → s.apertureMapped f a data.length ide = true → s.textHit f a data.length = false →
      s.localBadTag f a data.length = none →
      ∃ t, exec (.apertureWrite f off data ide) s = .next t ∧ readBytes t.mem.hbm pa data.length = data ∧
        (∀ x, x < pa ∨ pa + data.length ≤ x → Sparse.get zeroByte t.mem.hbm x = Sparse.get zeroByte s.mem.hbm x)) ∧
    (∀ data, s.partActive f = false →
      ∃ t, exec (.apertureWrite f off data ide) s = .next t ∧ saturates Fld.PCI_ERR_UR s t ∧ t.mem = s.mem)

/-- A configuration request is answered with Request Retry Status until start-up or a warm reset ends, and then sets what it names; the
link comes UP at a generation and width of Table 12.1, which makes the device the head (R390, R401, R405, R475). -/
def Piece.HostConfiguration : Prop :=
  ∀ (f : Nat) (s : State), s.alive = true → f < 64 →
    (∀ r, s.cfgReach = true → s.cfgRetry = true → ∃ t, exec (.pcieConfigRequest f r) s = .next t ∧ t = { s with host := t.host } ∧
      t.host = { s.host with answer := some ⟨[], 4⟩ }) ∧
    (s.cfgReach = true → s.cfgRetry = false → (f = 0 ∨ s.host.vfEnable = true) →
      (∃ t, exec (.pcieConfigRequest f (.msixEnable true)) s = .next t ∧ f ∈ t.host.msixEn ∧ t.host.answer = some ⟨[], 0⟩) ∧
      (∃ t, exec (.pcieConfigRequest f (.functionMask true)) s = .next t ∧ f ∈ t.host.msixFnMask) ∧
      (∃ t, exec (.pcieConfigRequest f (.power true)) s = .next t ∧ f ∈ t.host.d3hot ∧ t.mbx (64 + f) ≠ mbPosted ∧ t.mbx (192 + f) ≠ mbPosted) ∧
      (∃ t, exec (.pcieConfigRequest f (.power false)) s = .next t ∧ f ∉ t.host.d3hot) ∧
      (f = 0 → ∃ t, exec (.pcieConfigRequest f .vfEnable) s = .next t ∧ t.host.vfEnable = true)) ∧
    (∀ gen width, s.host.perst = false → s.pow.locked = true → s.flag Fld.PCI_LINK_UP = false → 5 ≤ gen → gen ≤ s.maxGen →
      width ∈ [16, 8, 4] →
      ∃ t r, exec (.pcieLinkUp gen width) s = .next t ∧ t.flag Fld.PCI_LINK_UP = true ∧ t.getF Fld.PCI_LINK_GEN = gen ∧
        t.getF Fld.PCI_LINK_WIDTH = width ∧ t.flag Fld.PCI_CFG_HEAD = true ∧ t.streams = addRecord s.streams .device r ∧
        r.code = 0x9007 ∧ r.detail.take 3 = [1, w gen, w width])

/-- The host side as a reset of the endpoint leaves it: messages into functions are aborted with reason 1, those of functions are gone,
inboxes and interrupt state read their reset values, and no virtual function is enabled. -/
def hostCleared (s t : State) : Prop :=
  t.flag Fld.PCI_LINK_UP = false ∧ t.host.vfEnable = false ∧
  ∀ f, f < 64 → t.mbx f = mbIdle ∧ t.mbx (128 + f) = mbIdle ∧ t.getF (Fld.DBL_PEND_PEND f) = 0 ∧ f ∉ t.host.msixEn ∧ f ∉ t.host.d3hot ∧
    (s.mbx (64 + f) = mbPosted → t.mbx (64 + f) = mbAborted ∧ t.getF (Fld.MBX_STATUS_REASON (64 + f)) = 1) ∧
    (s.mbx (192 + f) = mbPosted → t.mbx (192 + f) = mbAborted ∧ t.getF (Fld.MBX_STATUS_REASON (192 + f)) = 1)

/-- A link that goes down, PERST_N and a hot reset clear the host side; the two resets erase the IDE keys as well; PERST_N holds the
endpoint until it is released.  A stopped device records the pin alone.  An FLR puts an ACTIVE partition's function into RESETTING with its
channels cleared, and drops the calls of its partition; the end of VF Enable aborts messages into the virtual functions with reason 3
(R402, R403, R405, R412, Tables 12.6 and 13.6). -/
def Piece.HostResets : Prop :=
  ∀ s : State,
    (s.alive = true → s.flag Fld.PCI_LINK_UP = true →
      ∃ t, exec .pcieLinkDown s = .next t ∧ hostCleared s t ∧ t.host.perst = s.host.perst ∧ t.sec.ide = s.sec.ide) ∧
    (s.host.perst = false → s.alive = true → ∃ t, exec .perstN s = .next t ∧ hostCleared s t ∧ t.host.perst = true ∧ t.sec.ide = []) ∧
    (s.host.perst = false → s.alive = false → exec .perstN s = .next { s with host := { s.host with perst := true } }) ∧
    (s.host.perst = true → s.alive = true →
      ∃ t, exec .perstNDeassert s = .next t ∧ t.host = { s.host with perst := false } ∧ t.flag Fld.PCI_CFG_HEAD = false) ∧
    (s.alive = true → s.cfgReach = true → ∃ t, exec .hotReset s = .next t ∧ hostCleared s t ∧ t.sec.ide = []) ∧
    (∀ f, s.alive = true → s.cfgReach = true → s.cfgRetry = false → f < 64 → s.acc.held = [] →
      let cleared (t : State) : Prop := t.mbx f = mbIdle ∧ t.mbx (128 + f) = mbIdle ∧ t.mbx (64 + f) ≠ mbPosted ∧ t.mbx (192 + f) ≠ mbPosted ∧
        t.getF (Fld.DBL_PEND_PEND f) = 0 ∧ f ∉ t.host.msixEn ∧ (∀ c ∈ t.acc.calls, c.caller.part ≠ f) ∧ (∀ r ∈ t.host.replies, r.part ≠ f)
      (f ≠ 0 → s.host.vfEnable = true → s.partActive f = true →
        ∃ t, exec (.flr f) s = .next t ∧ t.partState f = psResetting ∧ cleared t) ∧
      (f = 0 → ∃ t, exec (.flr f) s = .next t ∧ cleared t ∧ t.partState 0 = s.partState 0)) ∧
    (s.alive = true → s.cfgReach = true → s.cfgRetry = false →
      ∃ t, exec .vfEnableClear s = .next t ∧ t.host.vfEnable = false ∧ ∀ f, 0 < f → f < 64 → f ∉ t.host.msixEn ∧
        (s.mbx (64 + f) = mbPosted → t.mbx (64 + f) = mbAborted ∧ t.getF (Fld.MBX_STATUS_REASON (64 + f)) = 3))

/-- Signals that a vector has held for MAX_DELAY go out as one message; PCI_GEY_INC releases an increment of a geyser of the function's own
partition and of no other; a ring sets the user doorbells of an inbox (R388, R401, R414). -/
def Piece.HostSignals : Prop :=
  ∀ (f : Nat) (s : State), s.alive = true → f < 64 →
    (∀ v, s.getF (Fld.PRT_IRQ_MAX_DELAY f) ≠ 0 → (s.host.held.any fun h => h.fn == f && h.vec == v && decide (h.since + s.getF (Fld.PRT_IRQ_MAX_DELAY f) * 1000 ≤ s.time)) = true →
      s.vecMasked f v = false →
      ∃ t m, exec (.irqCoalesceExpiry f v) s = .next t ∧ t.host.sent = s.host.sent ++ [m] ∧ m.fn = f ∧ m.vec = v ∧
        m.addr = s.msixWord f v 0 ∧ m.data = (s.msixWord f v 1).setWidth 32 ∧ (t.host.held.any fun h => h.fn == f && h.vec == v) = false ∧
        t.regs = s.regs) ∧
    (∀ g amount, s.hostReach f = true → s.partActive f = true → g < 65536 → amount < 2 ^ 32 →
      (s.geyOwner g = f →
        ∃ t, exec (.pciGeyInc f g amount) s = .next t ∧ t.gey.inflight = s.gey.inflight ++ [NetWord.increment 81 g (dw amount)] ∧ t.regs = s.regs ∧ t.mem = s.mem) ∧
      (s.geyOwner g ≠ f → ∃ t, exec (.pciGeyInc f g amount) s = .next t ∧ t.gey = s.gey ∧ t.regs = s.regs ∧ t.mem = s.mem)) ∧
    (∀ rq bells, s.writable rq (Reg.DBL_RING f) 4 = true →
      ∃ t, exec (.dblRing rq f bells) s = .next t ∧ t.mem = s.mem ∧
        (∀ b, b < 16 → bits (t.getF (Fld.DBL_PEND_PEND f)) b 1 = bits (s.getF (Fld.DBL_PEND_PEND f)) b 1) ∧
        (∀ b, b < 16 → bits (t.getF (Fld.DBL_PEND_PEND f)) (16 + b) 1 = if bells.getLsbD b then 1 else bits (s.getF (Fld.DBL_PEND_PEND f)) (16 + b) 1))

/-! ## Mailboxes, replies and aborts of calls -/

/-- The sender's words, LEN and GO post a message where it can be delivered, and set the receiver's bell; a LEN out of range, or a receiver
that cannot be reached, refuses it with its reason; a channel that holds a message keeps it (R411, R412). -/
def Piece.MailboxPost : Prop :=
  ∀ (c len : Nat) (words : List Word32) (s : State), s.alive = true → c < 256 → (chanFromFn c = true → s.hostReach (chanFn c) = true) →
    words.length = 16 →
    (s.mbx c ≠ mbPosted → 8 ≤ len → len ≤ 16 → s.mbxBar c = none →
      ∃ t, exec (.mbxGo c len words) s = .next t ∧ t.mbx c = mbPosted ∧ t.getF (Fld.MBX_STATUS_REASON c) = 0 ∧ t.getF (Fld.MBX_CTL_LEN c) = len ∧
        (∀ i, i < 16 → fieldOf (t.reg (Reg.MBX_DATA c i)) 0 32 = (words.getD i 0).toNat) ∧
        (chanFromFn c = true → getBool t.host.inbox c = true) ∧
        (chanFromFn c = false → bits (t.getF (Fld.DBL_PEND_PEND (chanFn c))) (chanBit c) 1 = 1)) ∧
    (s.mbx c ≠ mbPosted → len < 8 →
      ∃ t, exec (.mbxGo c len words) s = .next t ∧ t.mbx c = mbRefused ∧ t.getF (Fld.MBX_STATUS_REASON c) = 5) ∧
    (∀ r, s.mbx c ≠ mbPosted → 8 ≤ len → len ≤ 16 → s.mbxBar c = some r →
      ∃ t, exec (.mbxGo c len words) s = .next t ∧ t.mbx c = mbRefused ∧ t.getF (Fld.MBX_STATUS_REASON c) = r) ∧
    (s.mbx c = mbPosted → ∃ t, exec (.mbxGo c len words) s = .next t ∧ t.regs = s.regs ∧ t.host = s.host)

/-- The receiver takes a posted message, which counts in SEQ; the taking of a call with an unknown CODE is answered with UNKNOWN_CALL under its
TAG; a message not taken in time is aborted with reason 2 (R411 to R413, R416). -/
def Piece.MailboxTake : Prop :=
  ∀ (c : Nat) (s : State), s.alive = true → c < 256 → s.mbx c = mbPosted →
    let taken (t : State) : Prop := t.mbx c = mbTaken ∧
      t.getF (Fld.MBX_STATUS_SEQ c) = (s.getF (Fld.MBX_STATUS_SEQ c) + 1) % 2 ^ (Fld.MBX_STATUS_SEQ c).width
    (chanFromFn c = false → s.hostReach (chanFn c) = true →
      ∃ t, exec (.mbxTake c) s = .next t ∧ taken t ∧ ∀ r ∈ t.host.inChannel, replyChannel r.sinter r.part ≠ c) ∧
    (chanFromFn c = true → s.receives c = true → ∃ t, exec (.mbxTake c) s = .next t ∧ taken t ∧ getBool t.host.inbox c = false) ∧
    (c < 64 → s.receives c = true → knownCall (bits (s.reg (Reg.MBX_DATA c 0)).toNat 0 16) = false →
      (s.host.replies.filter fun x => x.part == c && x.sinter == false).length < 64 →
      ∃ t r, exec (.mbxTake c) s = .next t ∧ taken t ∧ t.host.replies = s.host.replies ++ [r] ∧ r.status = svUnknownCall ∧ r.part = c ∧
        r.code = bits (s.reg (Reg.MBX_DATA c 0)).toNat 0 16 ∧ r.tag = bits (s.reg (Reg.MBX_DATA c 1)).toNat 0 16) ∧
    (c < 64 → s.level = lvStarting → exec (.mbxTimeoutExpiry c) s = .next s) ∧
    (64 ≤ c ∨ s.level ≠ lvStarting → Sparse.get natDefault s.host.postedAt c + max 1 (s.getF Fld.MBX_TIMEOUT_MS) * 10 ^ 6 ≤ s.time →
      ∃ t, exec (.mbxTimeoutExpiry c) s = .next t ∧ t.mbx c = mbAborted ∧ t.getF (Fld.MBX_STATUS_REASON c) = 2 ∧
        ∀ i, i < 16 → t.reg (Reg.MBX_DATA c i) = 0)

/-- No reset or destruction of a partition, no warm reset, no expert write and no end of a snapshot is waiting. -/
def nothingSettles (s : State) : Prop :=
  (∀ p, p < 64 → s.partState p ≠ psResetting ∧ s.partState p ≠ psDestroying) ∧ s.pow.warmHeld = false ∧ s.acc.held = [] ∧
  s.log.snapLost = false

/-- The oldest reply of a partition is posted to its channel when that is free.  A reply of another device ends the forwarded call and is
passed on under its own TAG with the device's number.  SVC_CALL_ABORT ends a call that waits: that call is answered ABORTED and the abort OK;
of a TAG that names no call it is answered UNKNOWN_TAG (R13, R393, R415 to R417). -/
def Piece.RepliesAndAborts : Prop :=
  ∀ s : State, s.alive = true → nothingSettles s →
    (∀ p sinter r, p < 64 → s.acc.calls = [] → s.posts sinter = true →
      let c := replyChannel sinter p
      s.mbx c ≠ mbPosted → s.mbxBar c = none → Sparse.get natDefault s.host.lost c = 0 → s.host.replies = [r] → r.part = p → r.sinter = sinter →
      ∃ t, exec (.replyPost p sinter) s = .next t ∧ t.mbx c = mbPosted ∧ t.host.replies = [] ∧ t.host.inChannel = s.host.inChannel ++ [r] ∧
        t.getF (Fld.MBX_CTL_LEN c) = r.toWords.length ∧
        ∀ i, i < r.toWords.length → t.reg (Reg.MBX_DATA c i) = (r.toWords.getD i 0).setWidth 64) ∧
    (∀ k d status words, s.acc.calls = [k] → k.target = some d → k.caller.session = false → k.caller.part < 64 → s.host.replies = [] →
      ∃ t r, exec (.forwardedReply k.caller.part k.caller.tag status words) s = .next t ∧ t.acc.calls = [] ∧ t.host.replies = [r] ∧ r.dev = d ∧
        r.code = k.code ∧ r.tag = k.caller.tag ∧ r.status = status ∧ r.words = words) ∧
    (∀ c k n, s.admits 0x090A false c = true → c.session = false → c.forwarded = false → s.acc.calls = [k] → k.caller.part = c.part →
      k.caller.session = false → k.caller.forwarded = false → k.wait = some (.arrayStop n) → s.arrSettled n = false → s.host.replies = [] →
      ∃ t r q, exec (.svcCallAbort c k.caller.tag) s = .next t ∧ t.acc.calls = [] ∧ t.host.replies = [r, q] ∧ r.tag = k.caller.tag ∧
        r.status = svAborted ∧ q.tag = c.tag ∧ q.status = svOk) ∧
    (∀ c tag, s.admits 0x090A false c = true → s.acc.calls = [] →
      s.replyMade c.part tag = false →
      exec (.svcCallAbort c tag) s = .next (s.reply c 0x090A svUnknownTag []))

/-! ## Service calls -/

/-- A call completes with status OK: the next state is `u` with its reply queued, and `P` holds of `u` and of the words of the reply. -/
def answers (i : Instr) (s : State) (c : Caller) (code : Nat) (P : State → List Word32 → Prop) : Prop :=
  ∃ u ws, exec i s = .next (u.reply c code svOk ws) ∧ P u ws

/-- A call that is performed waits for `x` before it replies. -/
def awaits (i : Instr) (s : State) (c : Caller) (code : Nat) (x : CallWait) (P : State → Prop) : Prop :=
  ∃ u, exec i s = .next { u with acc := { u.acc with calls := u.acc.calls ++ [⟨c, code, none, callBlocks code, some x⟩] } } ∧ P u

/-- What a call does before its own work: a call in an area that the level does not serve is answered LEVEL, one too many BUSY, one whose
TAG is in use INVALID_ARG, and one that only partition 0 may make DENIED, each without any effect but its reply; and a reply goes once, to
its partition's queue, under the call's code and tag (R12, R13, R45, R415 to R417, Table 12.9). -/
def Piece.ServiceCallReplies : Prop :=
  ∀ (c : Caller) (s : State),
    (∀ code status words, c.session = false → c.forwarded = false →
      (s.host.replies.filter fun x => x.part == c.part && x.sinter == (code / 256 == 0xA)).length < 64 →
      ∃ r, s.reply c code status words = { s with host := { s.host with replies := s.host.replies ++ [r] } } ∧ r.part = c.part ∧
        r.code = code ∧ r.tag = c.tag ∧ r.status = status ∧ r.words = words) ∧
    (s.alive = true → c.part < 64 → s.serves 0x0B08 = true → s.partActive c.part = true → c.session = false →
      (s.level = lvMinimal → exec (.svcRstWarm c) s = .next (s.reply c 0x0B08 svLevel [])) ∧
      (s.level ≠ lvMinimal → 16 ≤ (s.callsOf c.part).length → exec (.svcRstWarm c) s = .next (s.reply c 0x0B08 svBusy [])) ∧
      (s.level ≠ lvMinimal → (s.callsOf c.part).length < 16 → s.acc.calls.any (Call.is c.part c.tag c.forwarded) = true →
        exec (.svcRstWarm c) s = .next (s.reply c 0x0B08 svInvalid [0])) ∧
      (s.level ≠ lvMinimal → (s.callsOf c.part).length < 16 → s.acc.calls.any (Call.is c.part c.tag c.forwarded) = false → c.part ≠ 0 →
        exec (.svcRstWarm c) s = .next (s.reply c 0x0B08 svDenied [])))

/-- Calls of areas 0x0 and 0x1: the device number and its lock, the route of device-wide events, what the device is, a partition's numeric
bank and its amax table (R7, R35, R44, R79, R80, R314, Table 2.14). -/
def Piece.DeviceAndNumericsCalls : Prop :=
  ∀ (c : Caller) (s : State),
    (∀ dev rack, s.admits 0x0001 true c = true → s.locked Reg.TOP_DEVNUM = false →
      answers (.svcDeviceSet c dev rack) s c 0x0001 fun u ws => ws = [] ∧ u.getF Fld.TOP_DEVNUM_DEVNUM = dev % 256 ∧
        u.flag Fld.TOP_DEVNUM_VALID = true ∧ u.getF Fld.TOP_FDOM_RACK = rack % 4096 ∧ u.locked Reg.TOP_DEVNUM = true) ∧
    (∀ ring log2, s.admits 0x0002 true c = true → s.locked Reg.TOP_EVT_DEST = false →
      (s.flag (Fld.PRT_EVT_VALID 0) = true →
        answers (.svcEventRoute c ring log2) s c 0x0002 fun u ws => ws = [w (s.getF (Fld.PRT_EVT_CONDUIT 0))] ∧
          u.flag Fld.TOP_EVT_DEST_ENABLE = true ∧ u.getF Fld.TOP_EVT_DEST_CONDUIT = s.getF (Fld.PRT_EVT_CONDUIT 0)) ∧
      (∀ k, s.flag (Fld.PRT_EVT_VALID 0) = false → s.cndTableOn = true → 4 ≤ log2 → log2 ≤ 24 → s.ringOk 0 ring log2 = true →
        s.freeConduit = some k → s.Canonical →
        answers (.svcEventRoute c ring log2) s c 0x0002 fun u ws => ws = [w k] ∧ u.cndIs k 0 3 = true ∧ (u.cndGet k).ring = ring ∧
          u.flag (Fld.PRT_EVT_VALID 0) = true ∧ u.getF Fld.TOP_EVT_DEST_CONDUIT = k ∧ u.flag Fld.TOP_EVT_DEST_ENABLE = true)) ∧
    (s.admits 0x0003 false c = true →
      answers (.svcDeviceQuery c) s c 0x0003 fun u ws => u = s ∧ ws.length = 7 ∧ ws.getD 0 0 = (s.reg Reg.TOP_ID).setWidth 32 ∧
        ws.getD 1 0 = (s.reg Reg.TOP_CAPS).setWidth 32 ∧ ws.getD 6 0 = (s.reg Reg.TOP_SERVICE).setWidth 32 ∧
        ∀ i, i < 4 → ws.getD (2 + i) 0 = (s.reg (Reg.TOP_DOMAIN_OK i)).setWidth 32) ∧
    (∀ bank, (c.part = 0 ∨ bank = c.part) → bank < 64 →
      (∀ clear, s.admits 0x0101 false c = true → s.isSealed bank = false →
        answers (.svcNumQuery c bank clear) s c 0x0101 fun u ws =>
          ws = (s.reg (Reg.NUM_FLAGS bank)).setWidth 32 :: w2 (s.reg (Reg.NUM_FIRST bank)) ∧
          (if clear then u.getF (Fld.NUM_FLAGS_FLAGS bank) = 0 ∧ u.flag (Fld.NUM_FIRST_VALID bank) = false else u = s)) ∧
      (∀ mask, s.admits 0x0102 false c = true → s.flag (Fld.PRT_EVT_VALID bank) = true →
        answers (.svcNumEventSet c bank mask) s c 0x0102 fun u _ => u.getF (Fld.NUM_EVT_MASK_MASK bank) = mask % 2 ^ 11) ∧
      (∀ base countM1, s.admits 0x0103 false c = true → countM1 ≤ 65535 → base % 4096 = 0 → s.hbmRangeOk bank base ((countM1 + 1) * 128) = true →
        s.textHit bank base ((countM1 + 1) * 128) = false → s.Canonical →
        answers (.svcAmaxTableSet c bank base countM1) s c 0x0103 fun u _ => u.flag (Fld.NUM_AMAX_CFG_ENABLE bank) = true ∧
          u.getF (Fld.NUM_AMAX_BASE_BASE bank) = base / 4096 ∧ u.getF (Fld.NUM_AMAX_CFG_COUNT_M1 bank) = countM1 ∧
          u.hbmRead bank base ((countM1 + 1) * 128) = List.replicate ((countM1 + 1) * 128) 0))

/-- Logical array `l` of the caller is on physical array `n` now. -/
def arrayOf (s : State) (c : Caller) (l n : Nat) : Prop := s.onArrayNow c.part l = some n ∧ n < 144

/-- Calls of area 0x2 on the caller's arrays: load, start, stop, resume, query and dump, and the reservation, the groups and the lines of
its accumulator memory (Tables 3.15 and 4.9, R130, R162 to R164). -/
def Piece.ArrayCalls : Prop :=
  ∀ (c : Caller) (s : State),
    (∀ src len dst, s.admits 0x0201 false c = true →
      let a := ceilDiv dst 16 * 16
      s.bufOk c.part src len = true → s.bufOk c.part a len = true → s.textHit c.part a len = false → s.Canonical →
      answers (.svcArrayLoad c src len dst) s c 0x0201 fun u ws => ws = w2 (dw a) ∧ u.hbmRead c.part a len = s.hbmRead c.part src len) ∧
    (∀ l n, arrayOf s c l n →
      (∀ pc cnd, s.admits 0x0202 false c = true → pc % 16 = 0 → pc < 2 ^ 48 → cnd < 1048576 → s.cndIs cnd c.part 1 = true → s.arrAtRest n = true →
        s.domainRuns (n / 4) = true → s.hbmRangeOk c.part (s.imageFor n) 0x200000 = true → s.textBars c.part pc = false → s.claims = [] →
        answers (.svcArrayStart c l pc cnd) s c 0x0202 fun u _ => u.arrState n = stRunning ∧ (u.arr n).pc = pc ∧ (u.arr n).ctx.rmoCnd = cnd ∧
          (u.arr n).cur = none) ∧
      (s.admits 0x0203 false c = true → s.arrSettled n = true →
        answers (.svcArrayStop c l) s c 0x0203 fun u ws => u = s ∧ ws = [(s.reg (Reg.ARR_STATUS n)).setWidth 32]) ∧
      (s.admits 0x0203 false c = true → (s.arrStopBit n).arrSettled n = false →
        awaits (.svcArrayStop c l) s c 0x0203 (.arrayStop n) fun u => u = s.arrStopBit n) ∧
      (∀ pc, s.admits 0x0204 false c = true → pc % 16 = 0 → pc < 2 ^ 48 → (s.arrState n = stStopped ∨ s.arrState n = stFaulted) →
        s.domainRuns (n / 4) = true → s.textBars c.part pc = false →
        answers (.svcArrayResume c l (some pc)) s c 0x0204 fun u _ => u.arrState n = stRunning ∧ (u.arr n).pc = pc ∧ u.mem = s.mem) ∧
      (s.admits 0x0205 false c = true → s.plain c = false →
        answers (.svcArrayQuery c l) s c 0x0205 fun u ws =>
          ws = ([(s.reg (Reg.ARR_STATUS n)).setWidth 32] ++ w2 (s.reg (Reg.ARR_PC n)) ++ w2 (s.reg (Reg.ARR_FAULT n)) ++
            w2 (s.reg (Reg.ARR_FAULT_VAL n)) ++ [(s.reg (Reg.ARR_REPLAY n)).setWidth 32]) ∧ u.getF (Fld.ARR_REPLAY_COUNT n) = 0) ∧
      (s.admits 0x0206 false c = true → (s.arrState n = stStopped ∨ s.arrState n = stFaulted) →
        answers (.svcArrayDump c l) s c 0x0206 fun u ws => ws = w2 (dw (s.imageOf n)) ∧ u.mem = (s.saveRegs n (s.arrState n)).mem) ∧
      (s.admits 0x0208 false c = true → s.plain c = false →
        answers (.svcAccQuery c l) s c 0x0208 fun u ws => ws.length = 11 ∧ ws.getD 0 0 = (s.reg (Reg.ARR_ACC_STATUS n)).setWidth 32 ∧
          (∀ g, g < 8 → ws.getD (1 + g) 0 = (s.reg (Reg.ARR_ACC_GRP n g)).setWidth 32) ∧
          ws.getD 9 0 = (s.reg (Reg.ARR_ACC_LINES n)).setWidth 32 ∧ ws.getD 10 0 = (s.reg (Reg.ARR_ACC_FAULT n)).setWidth 32 ∧ u.mem = s.mem) ∧
      (∀ first count buf, s.admits 0x0209 false c = true → first + count ≤ 6144 →
        let v := (s.wakeIsland (n / 4)).setF (Fld.ARR_ACC_DBG_EN n) 1
        (v.accWindow c.part l).isSome = true → s.bufOk c.part buf (count * 128) = true → s.Canonical →
        answers (.svcAccDebugRead c l first count ⟨buf, [], []⟩) s c 0x0209 fun u _ =>
          u.hbmRead c.part buf (count * 128) = ((List.range count).flatMap fun i => v.accSeen c.part n (first + i)) ∧
          u.getF (Fld.ARR_ACC_DBG_EN n) = 0)) ∧
    (∀ p l n first count, s.admits 0x0207 true c = true → s.physOf p l = some n → n < 144 → first + count ≤ 6144 → s.isSealed p = false →
      let entry (u : State) : Prop := ∃ x ∈ u.contexts, x.id.part = p ∧ x.id.larray = l ∧ x.accFirst = first ∧ x.accCount = count
      (s.groupsOfCtx p l n).any (cutsGroup count) = false →
      (s.onArrayNow p l = none → answers (.svcAccReserve c p l first count) s c 0x0207 fun u _ => entry u) ∧
      (s.onArrayNow p l = some n → s.accQuiet n = true →
        answers (.svcAccReserve c p l first count) s c 0x0207 fun u _ => entry u ∧ u.getF (Fld.ARR_ACC_CFG_RES_FIRST n) = first ∧
          u.getF (Fld.ARR_ACC_CFG_RES_COUNT n) = count ∧
          ∀ g ∈ (u.arr n).acc, g.state ≠ 0 → g.relLines.1 < count))

/-- Calls of areas 0x2 and 0x3 on element programs, operand caches, HBM, conduits and geysers (Tables 5.12 and 6.7, R193, R215, R218, R219,
R227, R234, R442). -/
def Piece.MemoryCalls : Prop :=
  ∀ (c : Caller) (s : State),
    (∀ addr, s.admits 0x020A false c = true → addr % 64 = 0 → s.hbmRangeOk c.part addr 64 = true →
      let len := eImageBytes (EHead.ofBytes (s.hbmRead c.part addr 64)).ninstr
      s.hbmRangeOk c.part addr len = true → s.plain c = false →
      answers (.svcEprogCheck c addr) s c 0x020A fun u ws => u = s ∧ match eCheck (s.hbmRead c.part addr len) with
        | some (reason, index) => ws = [w reason, w index]
        | none => ws = [0, 0]) ∧
    (∀ l n, arrayOf s c l n →
      (s.admits 0x020B false c = true → s.plain c = false →
        (c.part = 0 ∨ (s.reg (Reg.ARR_OC_POISON n)).getLsbD 63 = false) →
        answers (.svcOcQuery c l) s c 0x020B fun u ws =>
          ws = [(s.reg (Reg.ARR_VEC_STATUS n)).setWidth 32, (s.reg (Reg.ARR_EPROG_ERR n)).setWidth 32, (s.reg (Reg.ARR_OC_ECC n)).setWidth 32] ++
            w2 (s.reg (Reg.ARR_OC_POISON n)) ∧ u.getF (Fld.ARR_OC_ECC_CORRECTED n) = 0 ∧ u.getF (Fld.ARR_OC_ECC_UNCORRECTABLE n) = 0) ∧
      (s.admits 0x020C false c = true → s.arrSettled n = true → s.Canonical →
        answers (.svcOcScrub c l) s c 0x020C fun u _ =>
          (∀ a, n * ocBytes + s.ocFirst n ≤ a → a < n * ocBytes + s.ocFirst n + s.ocSize n → Sparse.get zeroByte u.mem.oc a = 0) ∧
          (u.arr n).progs = [none, none, none, none] ∧ u.getF (Fld.ARR_VEC_STATUS_BOUND n) = 0 ∧ u.mem.hbm = s.mem.hbm)) ∧
    (∀ buf, s.admits 0x0301 false c = true → s.mem.segLost = [] → s.bufOk c.part buf 192 = true → s.Canonical →
      answers (.svcHbmQuery c buf) s c 0x0301 fun u ws => ws = [48, 0] ∧
        ∀ st, st < 12 → u.getF (Fld.HBM_ECC_CORRECTED st) = 0 ∧ u.getF (Fld.HBM_ECC_POISONED st) = 0) ∧
    (∀ p l n first units, s.admits 0x0302 true c = true → s.physOf p l = some n → 0 < units → first + units ≤ 96 → s.Canonical →
      ((s.ocHeld n ⟨p, l, false⟩).any fun e => overlaps e.1 e.2 first units) = false →
      answers (.svcOcReserve c p l first units) s c 0x0302 fun u _ =>
        (∃ x ∈ u.contexts, x.id.part = p ∧ x.id.larray = l ∧ x.ocFirst = first ∧ x.ocUnits = units) ∧
        ∀ i, i < units → (first + i < (s.ctxEntry p l n).ocFirst ∨ (s.ctxEntry p l n).ocFirst + (s.ctxEntry p l n).ocUnits ≤ first + i) →
          ∀ a, a < 65536 → Sparse.get zeroByte u.mem.oc (n * ocBytes + (first + i) * 65536 + a) = 0) ∧
    (∀ kind log2 ring cls k, s.admits 0x0303 false c = true → s.cndTableOn = true → kind ≤ 3 → 4 ≤ log2 → log2 ≤ 24 →
      s.ringOk c.part ring log2 = true → cls ≤ 2 → s.conduitQuota c.part = true → s.freeConduit = some k → s.Canonical →
      answers (.svcCndCreate c kind log2 ring cls none) s c 0x0303 fun u ws => ws = [w k] ∧ u.cndIs k c.part kind = true ∧
        (u.cndGet k).ring = ring ∧ (u.cndGet k).log2depth = log2 ∧ (u.cndGet k).occupied = 0 ∧ (k, c.part) ∈ u.cnd.owned) ∧
    (∀ d, s.cnd.owned.contains (d, c.part) = true → s.cnd.waiters = [] → s.Canonical →
      (s.admits 0x0304 false c = true →
        answers (.svcCndDestroy c d) s c 0x0304 fun u ws => (u.cndGet d).valid = false ∧ (d, c.part) ∉ u.cnd.owned ∧
          ws = [w (u.cndGet d).dropped]) ∧
      (s.admits 0x0305 false c = true →
        answers (.svcCndQuery c d) s c 0x0305 fun u ws => ws.length = 14 ∧
          ∀ i, i < 14 → ws.getD i 0 = w (ofLe (((u.cndGet d).toBytes.drop (4 * i)).take 4)))) ∧
    (∀ g target act0 act1, s.admits 0x0306 false c = true → g < 65536 → s.geyOwner g = c.part → s.geyActOk c.part act0 act1 = none →
      unwatched s → (act0.getLsbD 63 = false ∨ (s.reg (Reg.GEY_COUNT g)).toNat < target.toNat) →
      answers (.svcGeySet c g target act0 act1) s c 0x0306 fun u _ => u.reg (Reg.GEY_TARGET g) = target ∧
        u.flag (Fld.GEY_ACT0_ARMED g) = act0.getLsbD 63 ∧ u.reg (Reg.GEY_COUNT g) = s.reg (Reg.GEY_COUNT g)) ∧
    (∀ first count buf, s.admits 0x0307 false c = true → first + count ≤ 65536 → (∀ i, i < count → s.geyOwner (first + i) = c.part) →
      s.bufOk c.part buf (32 * count) = true → s.Canonical →
      answers (.svcGeyQuery c first count buf) s c 0x0307 fun u _ => u.regs = s.regs ∧ (u.hbmRead c.part buf (32 * count)).length = 32 * count ∧
        ∀ i j, i < count → j < 4 → ofLe (((u.hbmRead c.part buf (32 * count)).drop (32 * i + 8 * j)).take 8) =
          (s.reg (Reg.GEY_COUNT (first + i) + 8 * j)).toNat)

/-- Calls of area 0x4: the transport, the paths to a peer, and the host's remote operations (R240, R252, R254, R255, R257, Table 7.12). -/
def Piece.TransportCalls : Prop :=
  ∀ (c : Caller) (s : State),
    (∀ base pool rto limits ack rate group cfg, s.admits 0x0401 true c = true → s.locked Reg.CND_ZRT_CFG = false →
      let a := fieldOf base 18 30 * 2 ^ 18
      s.ungranted a 262144 = true → s.ungranted (fieldOf pool 13 35 * 2 ^ 13) (fieldOf pool 48 16 * 8192) = true →
      answers (.svcZrtSet c base pool rto limits ack rate group cfg) s c 0x0401 fun u ws => ws = [] ∧
        u.flag Fld.CND_ZRT_CFG_ENABLE = cfg.getLsbD 31 ∧ u.getF Fld.CND_ZRT_PATH_BASE_BASE = fieldOf base 18 30 ∧
        u.getF Fld.CND_ZRT_GROUP_TAG = group.toNat ∧ ∀ t ∈ segsOf a 262144, u.flag (Fld.PRT_SEG_OWNER_WITHHELD t) = true) ∧
    (∀ d, s.admits 0x0402 true c = true → d < 256 → d ≠ s.ownDev →
      (s.peerAllUp d = true → answers (.svcZrtPeerSet c d []) s c 0x0402 fun u ws => u = s ∧ ws = [w (s.pathMask d)]) ∧
      (∀ e, entryShape e = true → let u := s.putEntry d e
        u.peerAllUp d = false →
        awaits (.svcZrtPeerSet c d [e]) s c 0x0402 (.peer d (u.time + u.getF Fld.CND_ZRT_LIMITS_PROBE_INTERVAL * 16000)) fun t => t = u)) ∧
    (∀ d buf, s.admits 0x0403 false c = true → d < 256 → s.bufOk c.part buf 1024 = true → s.Canonical →
      answers (.svcZrtPeerQuery c d buf) s c 0x0403 fun u ws => ws = [if s.peerUp d then 1 else 0] ∧ u.regs = s.regs ∧
        (u.hbmRead c.part buf 1024).length = 1024) ∧
    (∀ fabric loc operand compare cw k, s.admits 0x0404 false c = true → fabric < 2 ^ 64 → s.cndIs (fieldOf cw 0 20) c.part 2 = true →
      s.cndHeld (fieldOf cw 0 20) = false → (s.cndGet (fieldOf cw 0 20)).free ≠ 0 → s.cndCached (fieldOf cw 0 20) = true →
      s.hostConduit c.part = (s, some k) → s.cndIs k c.part 1 = true → postable s k → (s.cndGet k).free ≠ 0 → k ≠ fieldOf cw 0 20 →
      answers (.svcRmoSubmit c opcGinc 0 0 fabric loc operand compare cw) s c 0x0404 fun u ws => ws = [w s.rmo.nextId] ∧
        (∃ q, u.rmo.queued = s.rmo.queued ++ [q] ∧ q.cnd = k ∧ q.id = s.rmo.nextId ∧ q.src = .host c.part ∧
          q.cc = some (fieldOf cw 0 20) ∧ q.released = s.time) ∧
        (u.cndGet (fieldOf cw 0 20)).granted = (s.cndGet (fieldOf cw 0 20)).granted + 1 ∧ (u.cndGet k).posted = (s.cndGet k).posted + 1) ∧
    (∀ d tag buf, s.admits 0x0405 false c = true → s.cnd.owned.contains (d, c.part) = true → (s.cndGet d).kind = 1 →
      (∀ q ∈ s.rmo.queued, q.cnd ≠ d) → s.bufOk c.part buf 4 = true →
      ((∀ o ∈ s.rmo.ops, o.cnd = d → o.tag ≠ tag) →
        answers (.svcRmoAbort c d (some tag) buf) s c 0x0405 fun u ws => ws = [1, w (tag * 65536 + svComplete)] ∧ u.rmo = s.rmo) ∧
      (∀ o, s.rmo.ops = [o] → o.cnd = d → o.tag = tag → o.status = none →
        answers (.svcRmoAbort c d (some tag) buf) s c 0x0405 fun u ws => ws = [1, w (tag * 65536 + svAborted)] ∧
          u.rmo.ops = [o.abort 1]))

/-- Calls of areas 0x5 and 0x6: a plume is created in the lowest free slot of its quadrant, started, aborted, read, destroyed and
re-sharded; a step bank is assigned, configured, aborted and read, and the amax records are read (Tables 8.12 and 9.7, R273, R274, R296,
R298, R304, R307, R309, R314, R319). -/
def Piece.PlumeAndStepCalls : Prop :=
  ∀ (c : Caller) (k : Nat) (s : State),
    let p := c.part
    let own : Prop := k < 64 ∧ s.flag (Fld.PLM_OWNER_VALID k) = true ∧ s.plmOwner k = p
    (∀ q desc, s.admits 0x0501 false c = true → s.locked (Reg.PLM_OWNER 0) = false → q < 4 → desc % 256 = 0 →
      let x := s.readPlume p desc
      s.plmInGrant p desc x.1 x.2 = true → s.plmDescOk p x.1 x.2 = true → (∀ r ∈ x.2.reducers, s.reducerOk p r = true) →
      (p = 0 ∨ (s.slotsOf p).length < s.getF (Fld.PRT_LIMITS_PLUMES p)) → s.freeSlot q = some k →
      answers (.svcPlmCreate c q desc) s c 0x0501 fun u ws => ws = [w k] ∧ u.flag (Fld.PLM_OWNER_VALID k) = true ∧ u.plmOwner k = p ∧
        u.getF (Fld.PLM_DESC_BASE k) = desc / 256) ∧
    (∀ step deadline hop, s.admits 0x0502 false c = true → own → s.plmActive k = false →
      awaits (.svcPlmStart c k step deadline hop) s c 0x0502 (.plume k) fun u =>
        u = ((s.setReg (Reg.PLM_STEP k) step).setFs [(Fld.PLM_STEP_DEADLINE_BUDGET k, deadline), (Fld.PLM_HOP_TIMEOUT_MS k, hop)]).plmCtl k 1) ∧
    (s.admits 0x0503 false c = true → own →
      exec (.svcPlmAbort c k) s = .next (if s.plmActive k then (s.plmCtl k 2).reply c 0x0503 svAborted [] else s.reply c 0x0503 svComplete [])) ∧
    (∀ first count buf, s.admits 0x0504 false c = true → own → s.plain c = false →
      let d := (s.plume k).desc
      first + count ≤ d.buckets.length → s.bufOk p buf (96 * count) = true → s.Canonical →
      answers (.svcPlmQuery c k first count buf) s c 0x0504 fun u ws =>
        ws = (s.reg (Reg.PLM_STATUS k)).setWidth 32 :: (w2 (s.reg (Reg.PLM_STEP k)) ++ w2 (s.reg (Reg.PLM_STEP_T0 k)) ++ w2 (s.reg (Reg.PLM_COUNTS k))) ∧
        u.hbmRead p buf (96 * count) = s.hbmRead p (d.bstatus + 32 * first) (32 * count) ++ s.hbmRead p (d.vtable + 64 * first) (64 * count)) ∧
    (s.admits 0x0505 false c = true → own → s.locked (Reg.PLM_OWNER 0) = false →
      answers (.svcPlmDestroy c k) s c 0x0505 fun u ws => ws = [] ∧ u.flag (Fld.PLM_OWNER_VALID k) = false ∧ u.plmState k = plIdle ∧
        (u.plume k).runs = [] ∧ (u.plume k).joins = [] ∧ (u.plume k).desc = Plume.none.desc) ∧
    (∀ ring lost arrays src, s.admits 0x0506 false c = true → own → s.plmActive k = true → (s.plume k).armed = none →
      let d := (s.plume k).desc
      ring ≠ [] → ring.length ≤ 256 → ring.Nodup → (∀ e ∈ ring, e.1 < 256 ∧ e.2 < 64) →
      (∀ a ∈ arrays, a.1 < d.buckets.length ∧ a.2.1 ∈ [1, 2, 4, 8] ∧ (arrays.filter fun b => b.1 == a.1).length ≤ 4) →
      s.reshardSources d lost = some src →
      ∃ id n, awaits (.svcPlmReshard c k ring lost arrays) s c 0x0506 (.reshard id n) fun u =>
        ∀ x ∈ ring, x.1 ≠ s.ownDev → ∃ z, ⟨k, x.1, x.2, .reshard z⟩ ∈ u.plmSent ∧ z.id = id ∧ z.ring = ring ∧ z.sources = src) ∧
    (∀ x j, s.admits 0x0601 true c = true → s.locked (Reg.PRF_STEP_OWNER 0) = false → x < 64 → s.partActive x = true → s.bankOf x = none →
      ((List.range 4).find? fun j => !s.flag (Fld.PRF_STEP_OWNER_VALID j)) = some j →
      answers (.svcStepBankSet c x) s c 0x0601 fun u ws => ws = [w j] ∧ u.bankOf x = some j ∧ u.getF (Fld.PRT_LIMITS_BANK x) = j) ∧
    (∀ j, s.bankOf p = some j →
      (∀ cfg gey mark end0 end1 step, s.admits 0x0602 false c = true → s.bankEnabled j = false → cfg.getLsbD 31 = false →
        (cfg.getLsbD 22 = true → s.flag (Fld.PLM_OWNER_VALID (bits cfg.toNat 16 6)) = true ∧ s.plmOwner (bits cfg.toNat 16 6) = p) →
        (∀ i, i < 4 → s.geyOwner (fieldOf gey (16 * i) 16) = p) → s.geyOwner (fieldOf mark 16 16) = p →
        (mark.getLsbD 32 = true → ∀ i, i < 14 → fieldOf mark 0 16 + i < 65536 ∧ s.geyOwner (fieldOf mark 0 16 + i) = p) → s.amaxFresh p = true →
        answers (.svcStepConfig c cfg gey mark end0 end1 step) s c 0x0602 fun u ws => ws = [w (s.getF (Fld.PRF_STEP_STATUS_CFG_ERR j))] ∧
          u.reg (Reg.PRF_STEP_GEY j) = gey ∧ u.reg (Reg.PRF_STEP_END0 j) = end0 ∧ u.reg (Reg.PRF_STEP_NUM j) = step ∧
          u.getF (Fld.PRF_STEP_CFG_COMMIT_TARGET j) = bits cfg.toNat 0 9 ∧ u.bankEnabled j = false) ∧
      (s.admits 0x0603 false c = true →
        (s.bankState j = bkOpen → s.commitReached j = false →
          exec (.svcStepAbort c) s = .next ((s.bankAbort j 3).reply c 0x0603 svAborted [])) ∧
        (s.bankState j = bkIdle → exec (.svcStepAbort c) s = .next (s.reply c 0x0603 svComplete []))) ∧
      (∀ first count buf, s.admits 0x0604 false c = true → s.plain c = false → first < 1024 → count ≤ 1024 →
        s.bufOk p buf (68 + 128 * count) = true → s.Canonical →
        answers (.svcStepQuery c first count buf) s c 0x0604 fun u ws => ws = [] ∧
          ((u.hbmRead p buf (68 + 128 * count)).drop 68) = s.ringBytes j first count ∧ u.getF (Fld.PRF_STEP_STATUS_IGNORED j) = 0)) ∧
    (∀ first count buf, s.admits 0x0605 false c = true → s.plain c = false → s.flag (Fld.NUM_AMAX_CFG_ENABLE p) = true →
      first + count ≤ s.getF (Fld.NUM_AMAX_CFG_COUNT_M1 p) + 1 →
      let a := s.getF (Fld.NUM_AMAX_BASE_BASE p) * 4096 + first * 128
      s.bufOk p a (count * 128) = true → s.bufOk p buf (count * 128) = true → s.Canonical →
      answers (.svcAmaxQuery c first count buf) s c 0x0605 fun u ws => ws = [] ∧ u.hbmRead p buf (count * 128) = s.hbmRead p a (count * 128))
/-- Calls of area 0x7 (Table 10.7): the log's registers, an append and a read; buddies and protection; a snapshot and its abort; a refill
by a spare, to whose sinter the keys of a sealed partition go, what a buddy restores, replay, and the retirement list (R327 to R356,
R439). -/
def Piece.SurvivalCalls : Prop :=
  ∀ (c : Caller) (s : State),
    let p := c.part
    (∀ ctl area buf stage prot thr0 thr1 window, s.admits 0x0701 true c = true → s.locked Reg.LOG_CTL = false → ctl.getLsbD 30 = false →
      s.ungranted (fieldOf buf 28 20 * 2 ^ 28) (2 ^ 28) = true → s.ungranted (fieldOf stage 30 18 * gib) (fieldOf stage 48 16 * gib) = true →
      s.protected = [] → s.log.records = [] →
      answers (.svcLogSet c ctl area buf stage prot thr0 thr1 window) s c 0x0701 fun u ws => ws = [] ∧
        u.flag Fld.LOG_CTL_ENABLE = ctl.getLsbD 31 ∧ u.reg Reg.LOG_AREA = area ∧ u.getF Fld.LOG_BUF_BASE = fieldOf buf 28 20 ∧
        u.flag Fld.LOG_STATUS_MIRRORED = false) ∧
    (∀ type len addr, s.admits 0x0702 false c = true →
      let lg := s.getF (Fld.LOG_APPEND_LOG2DEPTH p)
      let g := s.getF (Fld.LOG_APPEND_GEY_ANNOUNCE_GEY p)
      let n := (s.geyCount g).toNat
      let slot := s.getF (Fld.LOG_APPEND_BASE p) * 4096 + n % 2 ^ lg * 16
      appendable type = true → len % 16 = 0 → 32 + len ≤ 1048576 → addr % 16 = 0 → s.bufOk p addr len = true →
      s.flag (Fld.LOG_APPEND_GEY_EN p) = true → lg ≠ 0 → (∀ e ∈ s.gey.inflight, e.gey ≠ g) →
      n < Sparse.get natDefault s.log.appended p + 2 ^ lg → s.hbmRangeOk p slot 16 = true → s.Canonical →
      awaits (.svcLogAppend c type len addr) s c 0x0702 (.append n) fun u => u.gey.inflight = s.gey.inflight ++ [NetWord.increment 92 g 1] ∧
        u.hbmRead p slot 16 = toLe 1 type ++ toLe 3 0 ++ toLe 4 len ++ toLe 8 addr) ∧
    (∀ first last buf cap, s.admits 0x0703 false c = true →
      let mine (r : LogRecord) : Bool := (p == 0 || r.part == p) && decide (first ≤ r.lsn) && decide (r.lsn ≤ last)
      let out := fitRecords cap ((s.log.records.filter mine).map fun r => s.readRecord c r)
      s.bufOk p buf out.length = true → s.Canonical →
      answers (.svcLogRead c first last none buf cap) s c 0x0703 fun u ws => ws = [w out.length] ∧ out.length ≤ cap ∧
        u.hbmRead p buf out.length = out) ∧
    (∀ k buf, s.admits 0x0704 false c = true → k < 64 → s.flag (Fld.PLM_OWNER_VALID k) = true → s.plmOwner k = p →
      let d := (s.plume k).desc
      let l := s.chooseBuddies d.ring
      s.buddies ≠ [] → d.npos ≠ 0 → l.length = d.npos → s.bufOk p buf (2 * d.npos) = true → s.protected = [] → s.Canonical →
      answers (.svcBuddySet c k buf) s c 0x0704 fun u ws => ws = [] ∧ ⟨d.id, l⟩ ∈ u.buddies ∧
        u.hbmRead p buf (2 * d.npos) = l.flatMap fun b => toLe 2 (b.getD 0xFFFF)) ∧
    (∀ base count, s.admits 0x0705 false c = true → count ≤ 4095 → base % 64 = 0 → s.bufOk p base (64 * count) = true →
      let v := s.setFs [(Fld.LOG_PROT_BASE p, base / 64), (Fld.LOG_PROT_COUNT p, count)]
      (∀ i, i < count → v.protOk p (v.protEntry p i) = true) →
      answers (.svcProtSet c base count) s c 0x0705 fun u ws => ws = [] ∧ u = v.protAssign p 0) ∧
    (∀ scope, s.admits 0x0706 false c = true → scope = 1 ∨ scope = 2 → s.log.snap = none → s.getF Fld.LOG_SNAP_STATE = 0 →
      s.flag Fld.CRT_STATUS_SNAP_OK = true →
      (s.log.kept.map Snapshot.bytes).sum + ((s.snapScope scope).map fun r => r.2.2.2).sum ≤ s.snapArea → s.atBoundary = true →
      awaits (.svcSnapTake c scope false) s c 0x0706 (.snapStop s.log.nextSnap scope s.lastStep s.time s.snapArrays) fun u =>
        ∃ v : State, v.log.nextSnap = s.log.nextSnap + 1 ∧ v.getF Fld.LOG_SNAP_STATE = 1 ∧ v.getF Fld.LOG_SNAP_SCOPE = scope ∧
          v.mem = s.mem ∧ u = s.snapArrays.foldl (fun s n => s.arrStopBit n) v) ∧
    (s.admits 0x0707 false c = true →
      (s.acc.calls.find? Call.takesSnap = none → exec (.svcSnapAbort c) s = .next (s.reply c 0x0707 svComplete [])) ∧
      (∀ x id, s.acc.calls.find? Call.takesSnap = some x → x.wait = some (.snap id) → s.acc.held = [] →
        ∃ u : State, exec (.svcSnapAbort c) s = .next (u.reply c 0x0707 svAborted []) ∧ u.log.snap = none ∧
          ∀ y ∈ u.acc.calls, y.is x.caller.part x.caller.tag x.caller.forwarded = false)) ∧
    (∀ k lost m step f arrays, s.admits 0x0708 false c = true → k < 64 → s.flag (Fld.PLM_OWNER_VALID k) = true → s.plmOwner k = p →
      let d := (s.plume k).desc
      let gone := (List.range d.npos).filter fun i => (d.at' i).1 == lost
      s.flag Fld.PCI_CFG_HEAD = true → gone ≠ [] → lost ≠ s.ownDev → m ≠ lost → (s.devTable.map DevEntry.dev).Nodup → m < 256 → m ≠ s.ownDev → (∀ e ∈ d.ring, e.1 ≠ m) →
      s.acc.calls.filterMap Call.refills = [] → f.committed = true →
      (∀ i ∈ gone, ((s.buddies.find? fun b => b.plume == d.id).bind fun b => b.buddies.getD i none).isSome = true) →
      awaits (.svcRefill c k lost (some m) step f [] arrays) s c 0x0708 (.refill lost m step s.time k) fun u =>
        (∀ e ∈ u.devTable, (e.dev = m → e.state = 5) ∧ (e.dev = lost → e.state = 6)) ∧
        (s.isSealed p = false → u.sec = s.sec) ∧
        ∀ r, s.isSealed p = true → (s.sec.seals.find? fun r => r.part == p) = some r → r.policy.migrate = true → f.migrates = true →
          u.sec.migrated = s.sec.migrated ++ [Migration.mk p m (s.sec.keys.filter fun k => k.part == p) r]) ∧
    (∀ i off bytes, s.admits 0x0709 false c = true →
      let e := s.protEntry p i
      i < s.protCount p → e.method = mtShadow → off + bytes.length ≤ e.length → (s.buddyOf e.slot).isSome = true →
      s.hbmRangeOk p (e.base + off) bytes.length = true → s.Canonical →
      answers (.svcShadowRestore c [(i, off, bytes)] true []) s c 0x0709 fun u ws => ws = [] ∧
        u.hbmRead p (e.base + off) bytes.length = bytes ∧ u.regs = s.regs) ∧
    (s.admits 0x070A false c = true →
      (∀ buf, answers (.svcReplaySet c none buf) s c 0x070A fun u ws => ws = [] ∧ u.flag (Fld.LOG_REPLAY_ENABLE p) = false) ∧
      (∀ a b buf, let l := s.lateList p a b
        buf % 16 = 0 → s.bufOk p buf l.length = true → s.Canonical →
        answers (.svcReplaySet c (some (a, b)) buf) s c 0x070A fun u ws => ws = [w (l.length / 16 - 1)] ∧
          u.flag (Fld.LOG_REPLAY_ENABLE p) = true ∧ u.getF (Fld.LOG_REPLAY_BASE p) = buf / 16 ∧ u.hbmRead p buf l.length = l)) ∧
    (∀ buf, s.admits 0x070B false c = true →
      let l := s.ret.list.flatMap fun e => toLe 2 e.1 ++ toLe 2 e.2
      s.bufOk p buf l.length = true → s.Canonical →
      answers (.svcRetireQuery c buf) s c 0x070B fun u ws => ws = [w s.ret.list.length] ∧ u.hbmRead p buf l.length = l) ∧
    (∀ domain sub, s.admits 0x070C true c = true → (domain, sub) ∈ s.ret.list →
      answers (.svcRetireClear c domain sub) s c 0x070C fun u ws => ws = [] ∧ (domain, sub) ∉ u.ret.list ∧
        ∀ e ∈ s.ret.list, e ≠ (domain, sub) → e ∈ u.ret.list)

/-- Calls of area 0x8 (Table 11.6): a vent is set up and its links train, its counters are read, MACsec keys are installed, PTP and the
wake detector are configured (R359 to R363, R373 to R380, R383). -/
def Piece.VentCalls : Prop :=
  ∀ (c : Caller) (s : State),
    (∀ x : VentSetup, s.admits 0x0801 true c = true → x.vent < 16 → s.flag (Fld.VNT_LOCK_LOCK x.vent) = false →
      let u := s.ventSet x
      u.flag (Fld.VNT_CTL_ENABLE x.vent) = true ∧
      if u.ventUp x.vent = true then
        answers (.svcVntSet c [x]) s c 0x0801 fun t ws => t = u ∧ ws = [(u.reg (Reg.VNT_STATUS x.vent)).setWidth 32]
      else awaits (.svcVntSet c [x]) s c 0x0801 (.vent [x.vent] (u.time + 1000000000)) fun t => t = u) ∧
    (∀ v buf, s.admits 0x0802 true c = true → v < 16 →
      let x := s.readWords (ventCounters v)
      s.bufOk c.part buf (4 * x.2.length) = true → s.Canonical →
      answers (.svcVntQuery c [v] buf) s c 0x0802 fun u ws => ws = [] ∧ u.hbmRead c.part buf (4 * x.2.length) = wordBytes x.2 ∧
        u.regs = x.1.regs ∧ x.2.headD 0 = (s.reg (Reg.VNT_STATUS v)).setWidth 32) ∧
    (∀ v cfg n a, s.admits 0x0803 true c = true → v < 16 → s.flag (Fld.VNT_LOCK_LOCK v) = false → (s.vent v).cak = true → n < s.ventPorts v →
      s.flag (Fld.VNT_CTL_ENABLE v) = false →
      answers (.svcVntMacsecSet c v cfg [(n, a)]) s c 0x0803 fun u ws => ws = [] ∧ u.getF (Fld.VNT_SEC_CFG_REPLAY_WIN v) = bits cfg.toNat 0 8 ∧
        u.getF (Fld.VNT_SEC_CFG_VALIDATE v) = bits cfg.toNat 30 2 ∧ (u.portSec v n).tx = some (a % 4, 1)) ∧
    (∀ v port transport domain, s.admits 0x0804 true c = true → v < 16 → port < s.ventPorts v → transport ≤ 2 → domain < 256 →
      (∀ x, x < 16 → s.flag (Fld.VNT_LOCK_LOCK x) = false) →
      answers (.svcPtpSet c v port transport domain) s c 0x0804 fun u ws => ws = [] ∧ u.flag (Fld.VNT_PTP_CFG_EN v) = true ∧
        u.getF (Fld.VNT_PTP_CFG_PORT v) = port ∧ (∀ x, x < 16 → (u.flag (Fld.VNT_PTP_CFG_SOURCE x) = true ↔ x = v)) ∧
        u.eth.ptp = some (transport, domain)) ∧
    (∀ cfg times, s.admits 0x0805 true c = true →
      answers (.svcVntWakeSet c cfg times) s c 0x0805 fun u ws => ws = [] ∧ u.getF Fld.VNT_WAKE_CFG_MODE = bits cfg.toNat 30 2 ∧
        u.getF Fld.VNT_WAKE_CFG_COUNT = bits cfg.toNat 20 4 ∧ u.getF Fld.VNT_WAKE_TIMES_ON_MAX = bits times.toNat 16 8)
/-- Calls of area 0x9 (Table 12.12): a partition is created with what its image asks for,
or refused for want of a resource, destroyed, reset and read, its grant changes,
its weights, interrupts and doorbells are set, and the group is set and read (R391, R392, R394 to R399, R403, R406, R409). -/
def Piece.PartitionCalls : Prop :=
  ∀ (c : Caller) (s : State),
    (∀ a, let x := PartImage.ofBytes (s.hbmRead 0 a 256)
      s.admits 0x0901 true c = true → s.isOwned = true → s.cndTableOn = true → s.bufOk 0 a 256 = true → s.Canonical →
      s.imageFault (s.hbmRead 0 a 256) = none → (bits x.flags 2 1 = 0 ∨ s.locked (Reg.PRF_STEP_OWNER 0) = false) →
      let v := s.setPartState x.part psCreating 1
      match v.buildPart x with
      | .inr _ => answers (.svcPartCreate c a) s c 0x0901 fun u ws => ws.length = 7 ∧ u.partState x.part = psActive ∧
          u.getF (Fld.PRT_JOB_JOB x.part) = x.job ∧
          ∀ segs, v.takeSegs x = some segs → ∀ t ∈ segs, u.getF (Fld.PRT_SEG_OWNER_GRANTED t) = 1 ∧ u.getF (Fld.PRT_SEG_OWNER_PART t) = x.part
      | .inl o => exec (.svcPartCreate c a) s = .next ((v.setPartState x.part psFree 1).reply c 0x0901 svNoResource [w o])) ∧
    (∀ p, 0 < p → p < 64 → s.Canonical →
      (s.admits 0x0902 true c = true → s.partState p = psActive → s.destroyLocked p = false →
        awaits (.svcPartDestroy c p) s c 0x0902 (.destroy p) fun u => u = s.destroyBegin p ∧ u.partState p = psDestroying) ∧
      (s.admits 0x0903 true c = true → s.partState p = psActive →
        awaits (.svcPartReset c p) s c 0x0903 (.reset p) fun u => u = s.flrBegin p 1 ∧ u.partState p = psResetting)) ∧
    (s.admits 0x0903 true c = true → awaits (.svcPartReset c 0) s c 0x0903 (.reset 0) fun u =>
      u = (List.range 144).foldl (fun s n => s.askStop 0 n) s) ∧
    (∀ p, (c.part = 0 ∨ p = c.part) → p < 64 →
      (∀ buf, s.admits 0x0904 false c = true →
        let x := s.readWords (bankRegs p ++ (List.range 128).map fun l => Reg.PRT_LMAP p l)
        s.bufOk c.part buf (4 * x.2.length) = true → s.Canonical →
        answers (.svcPartQuery c p buf) s c 0x0904 fun u ws => ws = [] ∧ u.hbmRead c.part buf (4 * x.2.length) = wordBytes x.2) ∧
      (s.admits 0x090C false c = true →
        answers (.svcPerfQuery c p) s c 0x090C fun u ws => u = s ∧ ws = w2 (s.reg (Reg.PRT_USE_ARRAY p)) ++ w2 (s.reg (Reg.PRT_USE_HBM p)) ++
          w2 (s.reg (Reg.PRT_USE_VENT p)) ++ w2 (s.reg (Reg.PRT_USE_CND p)) ++ w2 (s.reg (Reg.PRT_USE_LENT p)))) ∧
    (∀ p n m v, s.admits 0x0905 true c = true → 0 < p → p < 64 → s.partState p = psActive → 3 ≤ n → n ≤ 1048576 → (s.conduitsOf p).length ≤ n →
      m ≤ 64 → (s.slotsOf p).length ≤ m →
      answers (.svcPartGrant c ⟨p, none, none, none, some n, some m, some v⟩) s c 0x0905 fun u ws => ws = [] ∧
        u.getF (Fld.PRT_LIMITS_CONDUITS p) = n ∧ u.getF (Fld.PRT_LIMITS_PLUMES p) = m ∧
        (∀ i, i < 8 → u.getF (Fld.PRT_PEER_PEERS p i) = bits v (32 * i) 32)) ∧
    (∀ p a h v n, s.admits 0x0906 true c = true → p < 64 → s.partActive p = true → a ≤ 1000 → h ≤ 1000 → v ≤ 1000 → n ≤ 1000 →
      answers (.svcQosSet c p a h v n none) s c 0x0906 fun u ws => ws = [w u.scaledWeights] ∧ u.getF (Fld.PRT_QOS_ARRAY p) = a ∧
        u.getF (Fld.PRT_QOS_HBM p) = h ∧ u.getF (Fld.PRT_QOS_VENT p) = v ∧ u.getF (Fld.PRT_QOS_CND p) = n) ∧
    (∀ count delay vector, s.admits 0x0907 false c = true → count < 256 → delay < 65536 → vector < 2048 →
      answers (.svcIrqSet c count delay vector) s c 0x0907 fun u ws => ws = [] ∧ u.getF (Fld.PRT_IRQ_MAX_COUNT c.part) = count ∧
        u.getF (Fld.PRT_IRQ_MAX_DELAY c.part) = delay ∧ u.getF (Fld.DBL_CFG_VECTOR c.part) = vector) ∧
    (∀ l : List Member, s.admits 0x0908 true c = true → s.flag Fld.PCI_CFG_HEAD = true →
      (∀ m ∈ l, m.record.dev < 256 ∧ m.role ≤ 3 ∧ ∀ e ∈ s.memberPaths m, entryShape e = true) → (l.map fun m => m.record.dev).Nodup →
      (∀ m ∈ l, m.role = 1 → s.recordBarred m.record = false) →
      answers (.svcGroupSet c l) s c 0x0908 fun u ws => ws = [] ∧ u.devTable.map DevEntry.dev = (l.map fun m => m.record.dev) ∧
        u.devTable.map DevEntry.role = l.map Member.role ∧
        ∀ m ∈ l, m.record.dev ≠ u.ownDev → (m.record.dev, m.record) ∈ u.fw.groupOut) ∧
    (∀ buf, s.admits 0x0909 false c = true → s.bufOk c.part buf s.devTableBytes.length = true → s.Canonical →
      answers (.svcGroupQuery c buf) s c 0x0909 fun u ws => ws = [] ∧ u.hbmRead c.part buf s.devTableBytes.length = s.devTableBytes) ∧
    (s.admits 0x090B false c = true →
      (answers (.svcPerfSet c none) s c 0x090B fun u ws => ws = [] ∧ u.reg (Reg.PRT_USE_ARRAY c.part) = 0 ∧ u.reg (Reg.PRT_USE_LENT c.part) = 0 ∧
        ∀ x ∈ u.acc.perf, x.part ≠ c.part) ∧
      (∀ a ms, a % 8 = 0 → s.bufOk c.part a 40 = true → 0 < ms → ms ≤ 65000 →
        answers (.svcPerfSet c (some (a, ms))) s c 0x090B fun u ws => ws = [] ∧ u.reg (Reg.PRT_USE_HBM c.part) = 0 ∧
          ⟨c.part, a, ms * 1000000, s.time + ms * 1000000⟩ ∈ u.acc.perf)) ∧
    (∀ mask clear, s.admits 0x090D false c = true →
      answers (.svcDblSet c mask clear) s c 0x090D fun u ws => ws = [] ∧ u.getF (Fld.DBL_MASK_MASK c.part) = mask.toNat ∧
        ∀ b, b < 32 → bits (u.getF (Fld.DBL_PEND_PEND c.part)) b 1 =
          if clear.getLsbD b then 0 else bits (s.getF (Fld.DBL_PEND_PEND c.part)) b 1)

/-- Calls of area 0xB (Table 14.9): frequencies and gates, power, DORMANT, resets and freeze (R460 to R464, R469, R472, R473, R483). -/
def Piece.PowerCalls : Prop :=
  ∀ (c : Caller) (s : State),
    (∀ i f buf, s.admits 0x0B01 true c = true → i < 36 → f < 2048 → s.bufOk c.part buf 4 = true → s.Canonical →
      answers (.svcClkSet c [(i, f)] buf) s c 0x0B01 fun u ws => ws = [] ∧ u.getF (Fld.CLK_ISL_FREQ_REQ i) = f ∧
        u.hbmRead c.part buf 4 = toLe 4 (u.getF (Fld.CLK_ISL_FREQ_EFF i)) ∧ (s.domainRuns i = false → u.getF (Fld.CLK_ISL_FREQ_EFF i) = 0)) ∧
    (∀ d on, s.admits 0x0B02 true c = true → gateable d = true → (on = true ∨ 36 ≤ d ∨ s.islandMapped d = false) →
      let u := s.gateAsk d on
      (u.domainRuns d = on → answers (.svcClkGate c [(d, on)]) s c 0x0B02 fun t ws => t = u ∧ ws = []) ∧
      (u.domainRuns d ≠ on → awaits (.svcClkGate c [(d, on)]) s c 0x0B02 (.gate [(d, s.gateEn d, on)]) fun t => t = u)) ∧
    (∀ cap auto, s.admits 0x0B03 true c = true → cap < 65536 →
      (answers (.svcPwrSet c cap auto none) s c 0x0B03 fun u ws => ws = [] ∧ u.getF Fld.PWR_CFG_CAP = cap ∧ u.flag Fld.PWR_CFG_AUTO_IDLE = auto ∧
        u.reg Reg.PWR_THERM_CFG = s.reg Reg.PWR_THERM_CFG) ∧
      (∀ liquid t, s.locked Reg.PWR_CFG = false →
        answers (.svcPwrSet c cap auto (some (liquid, t))) s c 0x0B03 fun u ws => ws = [] ∧ u.flag Fld.PWR_CFG_COOLING = liquid ∧
          u.getF Fld.PWR_THERM_CFG_T_CRIT = bits t.toNat 16 8)) ∧
    (∀ buf, s.admits 0x0B04 false c = true → s.Canonical →
      (c.part ≠ 0 → s.bufOk c.part buf (4 * (s.islandsOf c.part).length) = true →
        answers (.svcPwrQuery c buf) s c 0x0B04 fun u ws => ws = [] ∧
          u.hbmRead c.part buf (4 * (s.islandsOf c.part).length) = wordBytes (s.effWords (s.islandsOf c.part))) ∧
      (c.part = 0 →
        let x := s.readWords ([Reg.PWR_STATUS, Reg.PWR_CEIL, Reg.PWR_TEMP, Reg.PWR_ENERGY] ++ (List.range 36).map fun i => Reg.CLK_ISL_FREQ i)
        s.bufOk 0 buf (4 * x.2.length) = true →
        answers (.svcPwrQuery c buf) s c 0x0B04 fun u ws => ws = [] ∧ u.hbmRead 0 buf (4 * x.2.length) = wordBytes x.2)) ∧
    (s.admits 0x0B05 true c = true → s.allFree = true → (∀ k, k < 64 → s.flag (Fld.PLM_OWNER_VALID k) = false) →
      (∀ j, j < 4 → s.flag (Fld.PRF_STEP_CFG_ENABLE j) = false) →
      awaits (.svcPwrDormant c) s c 0x0B05 (.dormant ((s.log.records.getLast?.map LogRecord.lsn).getD 0) (s.time + 1000000000)) fun u => u = s) ∧
    (∀ n, s.admits 0x0B06 true c = true → n < 144 → s.arrState n ≠ stRetired → n ∉ s.pow.resetWait →
      (s.domainRuns (n / 4) = true → answers (.svcRstArray c n) s c 0x0B06 fun u ws => ws = [] ∧ u.arrState n = stIdle ∧ (u.arr n).cur = none) ∧
      (s.domainRuns (n / 4) = false → awaits (.svcRstArray c n) s c 0x0B06 (.arrayReset n) fun u =>
        n ∈ u.pow.resetWait ∧ u.flag Fld.RST_ARRAY_BUSY = true)) ∧
    (∀ v, s.admits 0x0B07 true c = true → v < 16 →
      awaits (.svcRstVent c v) s c 0x0B07 (.vent [v] (s.time + 1000000000)) fun u => u = s.ventReset v) ∧
    (s.admits 0x0B08 true c = true → awaits (.svcRstWarm c) s c 0x0B08 .replied fun u => u = s.reply c 0x0B08 svOk []) ∧
    (∀ cfg mac hi lo lock, s.admits 0x0B09 true c = true → (cfg.getLsbD 31 = false ∨ s.ventUp 0 = true) → s.locked Reg.FRZ_CFG = false →
      answers (.svcFrzSet c cfg mac hi lo lock) s c 0x0B09 fun u ws => ws = [] ∧ u.flag Fld.FRZ_CFG_MODE = cfg.getLsbD 31 ∧
        u.getF Fld.FRZ_CFG_RATE = bits cfg.toNat 16 8 ∧ u.reg Reg.FRZ_DEST_IP_HI = hi ∧ u.flag Fld.FRZ_LOCK_LOCK = lock)
/-- Calls of area 0xA (Table 13.9): nonces, ownership, release and the lifecycle, the keys of the owner, import and export, and debug
tokens (R422, R423, R428 to R432, R438, R444 to R447). -/
def Piece.SecrecyCalls : Prop :=
  ∀ (c : Caller) (s : State),
    let good (x : Signed) (who : Signer) : Prop := s.signedFault x who = none
    (∀ buf, s.admits 0x0A01 false c = true → s.hbmRangeOk c.part buf 4096 = true → s.Canonical →
      answers (.svcSecQuery c buf) s c 0x0A01 fun u ws => ws = [] ∧
        u.hbmRead c.part buf 4 = toLe 4 ((s.reg Reg.SEC_LIFECYCLE).setWidth 32).toNat) ∧
    (s.admits 0x0A02 false c = true →
      answers (.svcSecNonce c) s c 0x0A02 fun u ws => ∃ n, u.sec.nonces = s.sec.nonces ++ [n] ∧
        ws = w2 (BitVec.ofNat 64 n) ++ w2 (BitVec.ofNat 64 (n / 2 ^ 64))) ∧
    (∀ v : Voucher, s.admits 0x0A03 true c = true → s.lifecycle = lcProvisioned → s.transfers < 32 → v.mehrop = true → v.names = v.owner →
      v.device = s.deviceDigest →
      answers (.svcSecOwn c v) s c 0x0A03 fun u ws => ws = [] ∧ u.lifecycle = lcOwned ∧ u.sec.owner = some v.owner ∧
        u.flag Fld.SEC_OWNER_VALID = true ∧ u.getF Fld.SEC_LIFECYCLE_TRANSFERS = min (s.transfers + 1) 31) ∧
    (∀ x, s.admits 0x0A04 true c = true → s.lifecycle = lcOwned → s.sec.erase = none → s.Canonical →
      (good x .owner → awaits (.svcSecRelease c x) s c 0x0A04 (.erase lcProvisioned) fun u => u.sec.erase = some lcProvisioned ∧
        u.flag Fld.SEC_LIFECYCLE_RELEASING = true ∧ x.nonce ∉ u.sec.nonces) ∧
      (¬good x .owner → ∃ u : State, exec (.svcSecRelease c x) s = .next (u.reply c 0x0A04 svDenied []) ∧ u.lifecycle = lcOwned ∧
        x.nonce ∉ u.sec.nonces)) ∧
    (∀ x, s.admits 0x0A05 true c = true → s.lifecycle = lcProvisioned → good x .mehrop →
      answers (.svcSecLifecycle c lcDecommissioned none (some x)) s c 0x0A05 fun u ws => ws = [] ∧ u.lifecycle = lcDecommissioned ∧
        u.level = lvMinimal) ∧
    (∀ sig key, s.admits 0x0A06 true c = true → s.isOwned = true → (s.ownerOk c sig true).2 = true →
      answers (.svcSecGroupKey c sig key) s c 0x0A06 fun u ws => ws = [] ∧ u.sec.groupKey = some key) ∧
    (∀ sig vs, s.admits 0x0A07 true c = true → s.isOwned = true → (∀ v ∈ vs, v < 16) → (s.ownerOk c sig true).2 = true →
      answers (.svcSecCakSet c sig vs) s c 0x0A07 fun u ws => ws = [] ∧ ∀ v ∈ vs, (u.vent v).cak = true) ∧
    (∀ slot src dst len k, s.cryptFault c.part slot src dst len = none → s.keyOf c.part slot = some k →
      (∀ nonce aad tag, s.admits 0x0A08 false c = true →
        awaits (.svcSecImport c slot src dst len nonce aad tag) s c 0x0A08 (.crypt true dst src len k.key nonce aad tag) fun u => u = s) ∧
      (∀ aad, s.admits 0x0A09 false c = true → k.counter + 1 ≠ 2 ^ 96 →
        awaits (.svcSecExport c slot src dst len aad) s c 0x0A09 (.crypt false dst src len k.key (counterNonce (k.counter + 1)) aad [])
          fun u => (u.keyOf c.part slot).map PartKey.counter = some (k.counter + 1) ∧ u.mem = s.mem)) ∧
    (∀ t : Token, s.admits 0x0A0A true c = true → t.format = 1 → 0 < t.uses → t.uses ≤ 65535 → t.scope < 8 → (t.kind = 1 ∨ t.kind = 2) →
      s.sec.token = none → (t.kind = 1 → s.lifecycle = lcOwned) → s.lifecycle ≠ lcDecommissioned →
      good t.sig (if t.kind = 1 then .owner else .mehrop) →
      answers (.svcSecDebugArm c t) s c 0x0A0A fun u ws => ws = [] ∧ u.sec.token = some t ∧ u.flag Fld.SEC_DEBUG_ARMED = true ∧
        u.flag Fld.SEC_DEBUG_EVER = true ∧ u.getF Fld.SEC_DEBUG_USES = t.uses ∧ u.getF Fld.SEC_CONSENT1_EXPLICIT = 0) ∧
    (s.admits 0x0A0B true c = true →
      answers (.svcSecDebugDisarm c) s c 0x0A0B fun u ws => ws = [] ∧ u.sec.token = none ∧ u.flag Fld.SEC_DEBUG_ARMED = false)

/-- Calls of area 0xC (Table 15.8): firmware images and slots, policy and recovery, and the cartridge (R488 to R493, R497, R500, R503, R504,
R507). -/
def Piece.FirmwareCalls : Prop :=
  ∀ (c : Caller) (s : State),
    (∀ buf, s.admits 0x0C01 false c = true → s.hbmRangeOk c.part buf 4096 = true → s.Canonical →
      answers (.svcFwQuery c buf) s c 0x0C01 fun u ws => ws = [] ∧ u.hbmRead c.part buf 4 = toLe 4 ((s.reg Reg.FW_STATUS).setWidth 32).toNat) ∧
    (∀ im ap, s.admits 0x0C02 true c = true → (∀ i, i < 2 → s.slotState i ≠ slWriting ∧ s.slotState i ≠ slPending) → s.imageCheck im ap = none →
      awaits (.svcFwUpdate c im ap) s c 0x0C02 (.fwWrite s.inactiveSlot im) fun u => u.slotState s.inactiveSlot = slWriting ∧
        u.flag Fld.FW_STATUS_BUSY = true) ∧
    (∀ i, s.admits 0x0C03 true c = true → i < 2 → s.slotState i = slPending → s.slotState (1 - i) ≠ slPending →
      answers (.svcFwCancel c) s c 0x0C03 fun u ws => ws = [] ∧ u.slotState i = slEmpty ∧ u.slotState (1 - i) = s.slotState (1 - i)) ∧
    (∀ i sig, s.admits 0x0C04 true c = true → i < 2 → s.slotState i = slActive → s.slotState (1 - i) ≠ slActive → s.isOwned = false →
      answers (.svcFwConfirm c sig) s c 0x0C04 fun u ws => ws = [] ∧ u.flag Fld.FW_STATUS_UNCONFIRMED = false ∧
        u.getF Fld.FW_SVN_MIN_MIN = max s.svnMin (min (((s.slotImage i).map FwImage.svn).getD 0) 64)) ∧
    (∀ sig minVersion approval, s.admits 0x0C05 true c = true → s.isOwned = true → minVersion < 2 ^ 32 →
      (s.ownerOk c (some sig) false).2 = true →
      answers (.svcFwPolicySet c sig minVersion approval) s c 0x0C05 fun u ws => ws = [] ∧ u.getF Fld.FW_POLICY_MIN_VERSION = minVersion ∧
        u.flag Fld.FW_POLICY_REQUIRE_APPROVAL = approval) ∧
    (∀ sig, s.admits 0x0C06 true c = true → s.lifecycle ≠ lcDecommissioned → s.isOwned = false →
      awaits (.svcFwRecovery c sig) s c 0x0C06 .replied fun u => u = s.reply c 0x0C06 svOk []) ∧
    (∀ buf, s.admits 0x0C07 false c = true → s.hbmRangeOk c.part buf (4096 + 32 * s.log.kept.length) = true → s.Canonical →
      answers (.svcCrtQuery c buf) s c 0x0C07 fun u ws => ws = [w s.log.kept.length] ∧
        u.hbmRead c.part buf 4 = toLe 4 ((s.reg Reg.CRT_STATUS).setWidth 32).toNat) ∧
    (∀ d k, s.crt.drive = some d →
      (s.admits 0x0C08 true c = true → s.sec.groupKey = some k → s.isOwned = true → s.crtState ∈ [crBlank, crForeign, crOrigin] →
        answers (.svcCrtBind c) s c 0x0C08 fun u ws => ws = [] ∧ u.crtState = crReseeding ∧ u.getF Fld.CRT_BIND_ORIGIN = s.ownDev ∧
          ∃ e l, u.crt.drive = some e ∧ e.label = some l ∧ l.key = k ∧ l.origin = s.ownDev) ∧
      (∀ sig, s.admits 0x0C09 true c = true → s.isOwned = true → s.crtState ∈ [crBlank, crForeign, crOrigin, crBound] →
        (s.ownerOk c (some sig) false).2 = true →
        answers (.svcCrtErase c sig) s c 0x0C09 fun u ws => ws = [] ∧ u.crtState = crBlank ∧
          ∃ e, u.crt.drive = some e ∧ e.label = none ∧ e.images = []) ∧
      (s.admits 0x0C0A true c = true →
        (s.crtIdle = true → answers (.svcCrtEject c) s c 0x0C0A fun u ws => ws = [] ∧ u.crt.ejected = true) ∧
        (s.crtIdle = false → awaits (.svcCrtEject c) s c 0x0C0A .eject fun u => u = s)) ∧
      (∀ im ap, s.admits 0x0C0B true c = true → s.crtWritable = true → driveLevel d < 3 → s.imageCheck im ap = none →
        answers (.svcCrtStage c im ap) s c 0x0C0B fun u ws => ws = [] ∧ ∃ e n, u.crt.drive = some e ∧ (n, im) ∈ e.images ∧
          ∀ x ∈ d.images, x.1 < n))
/-- SPDM and the tenant's commands: the sinter answers each message once, to the partition that sent it; KEY_EXCHANGE opens a session bound
to the partition and FINISH establishes it; inside it a tenant imports and deletes keys, sets a policy, seals its partition and consents to
a token, and makes calls: one of an unknown code is answered, one that names another device is forwarded, and any other is left to its own
row; a command outside an established session is refused (R393, R415, R425, R433 to R437, R443, R447).
Completion: exec answers a next state, with the effect stated, under hypotheses on the state and the operands alone, for
GET_VERSION, GET_CAPABILITIES, NEGOTIATE_ALGORITHMS, GET_DIGESTS, GET_CERTIFICATE, CHALLENGE, GET_MEASUREMENTS, KEY_EXCHANGE, FINISH, SPDM_FRAGMENT,
KEY_UPDATE, END_SESSION, SEAL, KEY_DELETE, HEARTBEAT, IDE_KM, KEY_IMPORT, POLICY_SET, CONSENT, CALL. -/
def Obligations.SpdmAndTenantCommands : Prop :=
  ∀ (p id : Nat) (s : State), s.alive = true → p < 64 → s.spdmServes p = true →
    let tells (i : Instr) (r : SpdmReply) (q : State → Prop) : Prop :=
      ∃ u, exec i s = .next u ∧ u.sec.replies = s.sec.replies ++ [(p, r)] ∧ q u
    (tells (.getVersion p) .version fun u => u = s.spdmSay p .version) ∧
    (tells (.getCapabilities p) .capabilities fun u => u = s.spdmSay p .capabilities) ∧
    (tells (.negotiateAlgorithms p) .algorithms fun u => u = s.spdmSay p .algorithms) ∧
    (s.lifecycle ≠ lcDecommissioned →
      (tells (.getDigests p) .digests fun u => u = s.spdmSay p .digests) ∧
      (tells (.getCertificate p 0) (.certificate 0) fun u => u = s.spdmSay p (.certificate 0)) ∧
      (∃ g, tells (.challenge p 0) (.challengeAuth g) fun u => u.regs = s.regs) ∧
      (∀ i, 1 ≤ i → i ≤ 8 → ∃ g, tells (.getMeasurements p none i) (.measurements [(i, s.measureBlock none i)] g) fun u => u.regs = s.regs) ∧
      (s.sec.sessions.length < 16 →
        tells (.keyExchange p) (.keyExchange s.sec.nextSession) fun u =>
          u.sec.sessions = s.sec.sessions ++ [⟨s.sec.nextSession, p, false, false⟩] ∧
          u.getF Fld.SEC_SESSIONS_OPEN = s.sec.sessions.length + 1) ∧
      (16 ≤ s.sec.sessions.length → tells (.keyExchange p) (.error spdmBusy) fun u => u.sec.sessions = s.sec.sessions)) ∧
    (∀ x owner, s.session p id = some x → x.established = false →
      tells (.finish p id true owner) (.finish id) fun u => ∃ y, u.session p id = some y ∧ y.established = true ∧
        y.owner = (owner && p == 0 && s.isOwned)) ∧
    (∀ n first last data, 1 ≤ n → n ≤ 52 → n ≤ data.length →
      (s.sec.assembling.find? fun x => x.part == p) = none →
      (∃ u, exec (.spdmFragment p n true true data) s = .next u ∧ u.sec.received = s.sec.received ++ [(p, data.take n)]) ∧
      (∃ u, exec (.spdmFragment p n true false data) s = .next u ∧ ⟨p, data.take n⟩ ∈ u.sec.assembling) ∧
      (first = false → tells (.spdmFragment p n first last data) (.error spdmInvalid) fun u => u.sec.received = s.sec.received)) ∧
    ((s.session p id = none ∨ ∃ x, s.session p id = some x ∧ x.established = false) →
      ∀ i ∈ [Instr.heartbeat p id, .keyUpdate p id, .endSession p id, .seal p id, .keyDelete p id 0],
        ∃ code, tells i (.error code) fun u => u.regs = s.regs ∧ u.sec.keys = s.sec.keys ∧ u.sec.sessions = s.sec.sessions) ∧
    (∀ x, s.session p id = some x → x.established = true →
      (tells (.heartbeat p id) (.heartbeat id) fun u => u = s.spdmSay p (.heartbeat id)) ∧
      (tells (.keyUpdate p id) (.keyUpdate id) fun u => u = s.spdmSay p (.keyUpdate id)) ∧
      (tells (.endSession p id) (.endSession id) fun u => u.session p id = none) ∧
      (∀ stream limit, stream ≤ 8 → tells (.ideKm p id stream limit) (.vendor id) fun u =>
        (stream, (if p = 0 then limit.getD wholeDevice else p), p != 0) ∈ u.sec.ide) ∧
      (p ≠ 0 → s.isOwned = true →
        (∀ slot key, slot ≤ storageSlot → key.length = 32 → tells (.keyImport p id slot key) (.vendor id) fun u =>
          ⟨p, slot, key, 0⟩ ∈ u.sec.keys ∧ (slot = storageSlot → fieldOf (u.reg Reg.SEC_SEAL1) p 1 = 1)) ∧
        (∀ slot, slot < storageSlot → tells (.keyDelete p id slot) (.vendor id) fun u => u.keyOf p slot = none ∧ u.regs = s.regs) ∧
        (∀ first count ap net mig, s.isSealed p = false → ap ≤ 2 → first + count ≤ s.getF (Fld.PRT_STATE_HBM_GIB p) →
          tells (.policySet p id first count ap net mig) (.vendor id) fun u => u.policy p = some ⟨p, first, count, ap, net, mig⟩) ∧
        (∀ x, s.policy p = some x → s.isSealed p = false → (s.keyOf p storageSlot).isSome = true → s.arraysStopped p = true →
          tells (.seal p id) (.vendor id) fun u => u.isSealed p = true ∧ u.sealOf p = some ⟨p, s.measureText x, x⟩) ∧
        (∀ t, s.sec.token = some t → tells (.consent p id t.digest) (.vendor id) fun u =>
          fieldOf (u.reg Reg.SEC_CONSENT1) p 1 = 1) ∧
        (∀ w0 w1,
          let code := bits w0.toNat 0 16
          let target := bits w1.toNat 16 8
          let c : Caller := ⟨p, bits w1.toNat 0 16, true, false⟩
          (knownCall code = false → exec (.call p id [w0, w1]) s = .next (s.reply c code svUnknownCall [])) ∧
          (knownCall code = true → w0.getLsbD 16 = false → exec (.call p id [w0, w1]) s = .next s) ∧
          (knownCall code = true → w0.getLsbD 16 = true → target ≠ s.ownDev → s.hasPath target = true → (s.callsOf p).length < 16 →
            s.acc.calls.any (Call.is p c.tag false) = false →
            ∃ u, exec (.call p id [w0, w1]) s = .next u ∧ u.acc.calls = s.acc.calls ++ [⟨c, code, some target, [], none⟩]))))
/-- What the contacts and the island do (R456, R457, R469, R470, R476 to R479, R521): power-on and RESET_N put the device through a
whole-device reset with their cause, a loss of 54 V or a thermal trip turns it off, FREEZE_N freezes it, WAKE_N wakes it, a loss of REFCLK holds
it and a return freezes or resets it, and a measurement trims the oscillator. -/
def Piece.ContactsAndClockSource : Prop :=
  ∀ s : State,
    let cause (u : State) : Nat := u.getF Fld.RST_CAUSE_CAUSE
    (∀ tj, (s.pow.tripped = false ∨ tj < 85) → s.pow.nextCause = none →
      ∃ u, exec (.powerOnReset tj) s = .next u ∧ cause u = 1 ∧ u.mem.hbm = [] ∧ u.mem.acc = [] ∧ u.pow.tripped = false ∧
        u.log.kept = s.log.kept ∧ u.sec.owner = s.sec.owner) ∧
    (∀ tj, s.pow.tripped = true → 85 ≤ tj → exec (.powerOnReset tj) s = .next s) ∧
    (∀ us, us < 50 → exec (.v54Fail us) s = .next s) ∧
    (∀ us, 50 ≤ us → s.pow.state ≠ .off → ∃ u, exec (.v54Fail us) s = .next u ∧ u.pow.state = .off ∧ u.regs = s.regs) ∧
    (∀ ns tj, ns < 200 → exec (.resetN ns tj) s = .next s) ∧
    (∀ ns tj, 200 ≤ ns → s.pow.state = .running →
      ∃ u, exec (.resetN ns tj) s = .next u ∧ cause u = 2 ∧ u.pow.state = .starting ∧ u.pow.resetLow = true ∧ u.mem.hbm = [] ∧
        u.lifecycle = s.lifecycle ∧ u.ret.list = s.ret.list) ∧
    (s.pow.state = .running → exec .resetNRelease s = .next { s with pow := { s.pow with resetLow := false } }) ∧
    (s.pow.state = .starting → s.pow.resetLow = true → s.pow.refclk = true →
      ∃ u, exec .resetNRelease s = .next u ∧ u.pow.resetLow = false ∧ u.pow.locked = true) ∧
    (∀ ns stays, ns < 40 → exec (.freezeN ns stays) s = .next s) ∧
    (∀ ns stays, 40 ≤ ns → s.pow.state = .running →
      ∃ u, exec (.freezeN ns stays) s = .next u ∧ u.pow.state = .frozen ∧ u.flag Fld.FRZ_STATUS_FROZEN = true ∧ u.getF Fld.FRZ_STATUS_CAUSE = 1 ∧
        u.mem = s.mem ∧ u.arrays = s.arrays) ∧
    (∀ us, s.pow.state = .dormant → 1000 ≤ us → s.flag Fld.PWR_WAKE_WAKE_N = true →
      ∃ u, exec (.wakeN us) s = .next u ∧ cause u = 6 ∧ u.pow.state ≠ .dormant) ∧
    (s.pow.refclk = false → (s.pow.state = .dormant ∨ (s.pow.state = .starting ∧ s.pow.locked = false)) →
      ∃ u, exec .refclkPresent s = .next u ∧ u.pow.refclk = true ∧ u.flag Fld.CLK_SRC_REFCLK_OK = true) ∧
    (s.pow.refclk = true → (s.pow.state = .running ∨ s.pow.state = .frozen) →
      ∃ u, exec .refclkLoss s = .next u ∧ u.pow.state = .hold ∧ u.flag Fld.FRZ_STATUS_HELD = true ∧ u.flag Fld.CLK_SRC_REFCLK_OK = false ∧
        u.getF Fld.CLK_SRC_LOSSES = min (s.getF Fld.CLK_SRC_LOSSES + 1) 65535 ∧ u.mem = s.mem) ∧
    (∀ us, s.pow.state = .hold →
      (s.flag Fld.FRZ_CFG_ON_REFCLK = true →
        ∃ u, exec (.refclkReturn us) s = .next u ∧ u.pow.state = .frozen ∧ u.getF Fld.FRZ_STATUS_CAUSE = 4 ∧ u.mem = s.mem) ∧
      (s.flag Fld.FRZ_CFG_ON_REFCLK = false → ∃ u, exec (.refclkReturn us) s = .next u ∧ cause u = 3 ∧ u.mem.hbm = [])) ∧
    (∀ trim err, s.pow.state ≠ .off → s.trimSource ≠ 0 →
      ∃ u, exec (.trimMeasurement trim err) s = .next u ∧ u.getF Fld.CLK_AON_TRIM_TRIM = trim % 2 ^ 16 ∧
        u.getF Fld.CLK_AON_TRIM_ERROR = min err 65535 ∧ u.flag Fld.CLK_SRC_TRIMMED = decide (err ≤ 20)) ∧
    (∀ tj, 115 ≤ tj → s.pow.state ≠ .off →
      ∃ u, exec (.thermalTrip tj) s = .next u ∧ u.pow.state = .off ∧ u.pow.tripped = true ∧ u.pow.nextCause = some 4) ∧
    (∀ tj, tj < 115 → exec (.thermalTrip tj) s = .next s)

/-- Device time, samples of power and temperature, the end of start-up, and the writes of gates, resets and freeze (R458, R462 to R468, R472,
R473, R475, R479, Table 1.11). -/
def Piece.PowerControl : Prop :=
  ∀ (rq : Requester) (s : State), s.alive = true →
    (∀ ns, s.ptpSource = true → s.unsync = true →
      ∃ u, exec (.ptpLock ns) s = .next u ∧ u.time = ns ∧ u.flag Fld.CLK_TIME_STATUS_SYNC = true) ∧
    (∀ p1 p100 energy,
      let f := s.getF Fld.PWR_CEIL_F_CAP
      let shown (u : State) : Prop := u.getF Fld.PWR_STATUS_P_1MS = min p1 8191 ∧ u.getF Fld.PWR_STATUS_P_100MS = min p100 8191
      (∃ u, exec (.powerSample p1 p100 energy) s = .next u ∧ shown u) ∧
      (s.pow.state = .running → s.capWatts < p1 → 100000 ≤ s.time - s.pow.capAt → 400 < f →
        ∃ u, exec (.powerSample p1 p100 energy) s = .next u ∧ shown u ∧ u.getF Fld.PWR_CEIL_F_CAP = max 400 (f - 25) ∧ u.pow.capAt = s.time) ∧
      (s.pow.state = .running → p1 * 100 < s.capWatts * 95 → 1000000 ≤ s.time - s.pow.capAt → s.getF Fld.PWR_CEIL_DUTY = 0 → f < 1300 →
        ∃ u, exec (.powerSample p1 p100 energy) s = .next u ∧ shown u ∧ u.getF Fld.PWR_CEIL_F_CAP = min 1300 (f + 25))) ∧
    (∀ sensor tj hbm,
      (∃ u, exec (.thermalSample sensor tj hbm) s = .next u ∧ u.getF Fld.PWR_TEMP_TJ = min tj 255 ∧ u.getF Fld.PWR_TEMP_HBM = min hbm 255) ∧
      (s.tCrit ≤ tj → s.pow.critical = false →
        ∃ u, exec (.thermalSample sensor tj hbm) s = .next u ∧ u.pow.critical = true ∧ u.getF Fld.PWR_CEIL_F_THERM = 400 ∧
          u.getF Fld.PWR_CEIL_DUTY = 3)) ∧
    (∀ ok, s.startReady = true → (∀ d ∈ [80, 81, 92, 93, 94], bits ok d 1 = 1) →
      ∃ u, exec (.startupComplete ok) s = .next u ∧ u.pow.state = .running ∧ u.level ≠ lvStarting) ∧
    (∀ k v, k < 4 → s.writable rq (Reg.CLK_GATE k) 4 = true → s.Canonical →
      ∃ u, exec (.clkGateWrite rq k v) s = .next u ∧ ∀ b, b < 32 → gateable (32 * k + b) = true → u.gateEn (32 * k + b) = v.getLsbD b) ∧
    (∀ d, d < 100 → s.gateEn d = false → s.domainRuns d = true → s.gateReady d = true → s.Canonical →
      ∃ u, exec (.gateTakeEffect d) s = .next u ∧ u.domainRuns d = false) ∧
    (∀ n, n < 144 → s.writable rq Reg.RST_ARRAY 4 = true → s.flag Fld.RST_ARRAY_BUSY = false → s.arrState n ≠ stRetired → s.Canonical →
      s.domainRuns (n / 4) = true →
      ∃ u, exec (.rstArrayGo rq n) s = .next u ∧ u.arrState n = stIdle ∧ (u.arr n).cur = none) ∧
    (s.writable rq Reg.RST_WARM 4 = true → s.pow.warm = false → s.slotWriting = false → s.Canonical →
      ∃ u, exec (.rstWarmKey rq 0x5741524D) s = .next u ∧ u.acc.calls = [] ∧ u.sec.nonces = [] ∧
        u.getF Fld.RST_CAUSE_WARM = min (s.getF Fld.RST_CAUSE_WARM + 1) 255) ∧
    (s.writable rq Reg.FRZ_CTL 4 = true → s.pow.state = .running →
      ∃ u, exec (.frzCtlTrigger rq) s = .next u ∧ u.pow.state = .frozen ∧ u.getF Fld.FRZ_STATUS_CAUSE = 2 ∧ u.mem = s.mem)
/-- The read-out of a capture through a port and through the TAP, the boundary register, and the I3C target (R448 to R451, R481 to R484, R523 to
R525, Tables 14.7, 16.7 and 16.8).
Completion: exec answers a next state, with the effect stated, under hypotheses on the state and the operands alone, for
READOUT_DATAGRAM, EXTEST, SAMPLE_PRELOAD, IDCODE, BYPASS, RDOUT_STATUS, RDOUT_STREAM, TAP_PRIVATE, TRST_N, ENTDAA, SETDASA, RSTDAA, I3C_WINDOW_UPDATE,
GETPID, GETBCR, GETDCR, GETSTATUS, GETMXDS, I3C_PRIVATE_WRITE, I3C_PRIVATE_READ. -/
def Obligations.ReadoutTapAndI3c : Prop :=
  ∀ s : State,
    let off := s.dbg.offset
    let total := s.capTotal true
    let n := min s.datagramBytes (total - off)
    (s.pow.state = .frozen → s.flag Fld.FRZ_CFG_MODE = true → s.flag Fld.FRZ_STATUS_PORT_FALLBACK = false → s.lifecycle ≠ lcDecommissioned →
      s.getF Fld.FRZ_STATUS_PASS < s.passes → s.portFallback = false → s.portUp 0 0 = true → s.flag Fld.FRZ_STATUS_PORT_WAIT = false →
      (off < total →
        ∃ u d, exec .readoutDatagram s = .next u ∧ u.dbg.sent = s.dbg.sent ++ [d] ∧ u.dbg.offset = off + n ∧
          d.mac = s.getF Fld.FRZ_DEST_MAC_MAC ∧ d.port = s.getF Fld.FRZ_CFG_DEST_PORT ∧
          d.payload = (Readout.payload ⟨1, s.getF Fld.FRZ_STATUS_PASS, s.dbg.captureId, off, total, (List.range n).map fun i => s.capByte true (off + i)⟩)) ∧
      (total ≤ off →
        ∃ u d, exec .readoutDatagram s = .next u ∧ u.dbg.sent = s.dbg.sent ++ [d] ∧ u.dbg.offset = 0 ∧
          d.payload = Readout.payload ⟨2, s.getF Fld.FRZ_STATUS_PASS, s.dbg.captureId, off, total, []⟩)) ∧
    (s.pow.state ≠ .frozen → exec .readoutDatagram s = .next s) ∧
    (s.tapUp = true →
      (∀ cells, ∃ u, exec (.extest cells) s = .next u ∧ u.dbg.instr = 0x00 ∧ u.dbg.boundary = cells.toNat ∧ u.dbg.tdo.length = 15) ∧
      (∀ cells, ∃ u, exec (.samplePreload cells) s = .next u ∧ u.dbg.instr = 0x02 ∧ u.dbg.boundary = cells.toNat ∧ u.dbg.tdo.length = 15) ∧
      exec .idcode s = .next (s.tapAnswer 0x01 (natBits 32 s.idcode)) ∧
      exec .bypass s = .next (s.tapAnswer 0xFF [false]) ∧
      (s.lifecycle ≠ lcDecommissioned → exec .rdoutStatus s = .next (s.tapAnswer 0x10 (natBits 32 (s.reg Reg.FRZ_STATUS).toNat))) ∧
      (s.lifecycle = lcDecommissioned →
        exec .rdoutStatus s = .next (s.tapAnswer 0x10 [false]) ∧ ∀ k, exec (.rdoutStream k) s = .next (s.tapAnswer 0x11 [false])) ∧
      (∀ k, s.lifecycle ≠ lcDecommissioned →
        (s.pow.state = .frozen → ∃ u, exec (.rdoutStream k) s = .next u ∧ u.dbg.tdo = (List.range k).map (fun i => s.streamBit (s.dbg.bit + i)) ∧
          u.dbg.bit = s.dbg.bit + k) ∧
        (s.pow.state ≠ .frozen → exec (.rdoutStream k) s = .next (s.tapAnswer 0x11 (List.replicate k false)))) ∧
      (∀ code, ¬(0x80 ≤ code ∧ code ≤ 0xFE ∧ s.privateAllowed = true) → exec (.tapPrivate code) s = .next (s.tapAnswer code [false])) ∧
      (∀ code, 0x80 ≤ code → code ≤ 0xFE → s.privateAllowed = true → exec (.tapPrivate code) s = .refused .privateTap) ∧
      (∃ u, exec .trstN s = .next u ∧ u.dbg.instr = 0x01 ∧ u.dbg.bit = 0 ∧ u.dbg.captureId = s.dbg.captureId)) ∧
    (s.i3cUp = true →
      let pid := (toLe 6 s.i3cPid).reverse
      (∀ a, s.i3c.addr = none → ∃ u, exec (.entdaa a) s = .next u ∧ u.i3c.addr = some (a % 128) ∧ u.i3c.answer = pid ++ [0, 0]) ∧
      (∀ a, s.i3c.addr = none → ∃ u, exec (.setdasa (0x30 + s.getF Fld.TOP_STRAPS_SLOT) a) s = .next u ∧ u.i3c.addr = some (a % 128)) ∧
      (∃ u, exec .rstdaa s = .next u ∧ u.i3c.addr = none ∧ u.i3c.window = s.i3c.window) ∧
      (∃ u, exec .i3cWindowUpdate s = .next u ∧ u.i3c.window = if s.pow.state = .running then s.i3cWindow else s.i3cCurrent) ∧
      (∀ a, s.i3c.addr = some a →
        (∃ u, exec (.getpid a) s = .next u ∧ u.i3c.answer = pid ∧ u.regs = s.regs) ∧
        (∃ u, exec (.getbcr a) s = .next u ∧ u.i3c.answer = [0]) ∧ (∃ u, exec (.getdcr a) s = .next u ∧ u.i3c.answer = [0]) ∧
        (∃ u, exec (.getstatus a) s = .next u ∧ u.i3c.answer.length = 2 ∧ u.regs = s.regs) ∧
        (∃ u, exec (.getmxds a) s = .next u ∧ u.i3c.answer.length = 2 ∧ u.regs = s.regs) ∧
        (∀ b rest, ∃ u, exec (.i3cPrivateWrite a (b :: rest)) s = .next u ∧ u.i3c.index = b.toNat % 32 ∧ u.regs = s.regs) ∧
        (∀ k, ∃ u, exec (.i3cPrivateRead a k) s = .next u ∧
          u.i3c.answer = (List.range k).map (fun i => s.i3cCurrent.getD ((s.i3c.index + i) % 32) 0) ∧
          u.i3c.index = (s.i3c.index + k) % 32)))
/-- BOOT_OK ends a boot and returns the slot's TRIES to 0; the third failure of a slot leaves it FAILED; in recovery mode a download erases
its slot, takes its bytes in order, and ends with a PENDING image or with a refusal; outside it the sinter does not know the calls (R391, R491,
R497 to R499). -/
def Piece.BootAndRecovery : Prop :=
  ∀ (tag seq : Nat) (s : State), s.alive = true →
    (∀ b, s.fw.boot = some b → b.slot < 2 →
      (b.warm = false → b.fallback = none → s.slotState b.slot ≠ slPending →
        ∃ u, exec .bootOk s = .next u ∧ u.fw.boot = none ∧ u.slotTries b.slot = 0 ∧ u.slotState b.slot = s.slotState b.slot ∧
          u.getF Fld.FW_STATUS_BOOTED = b.slot) ∧
      (3 ≤ s.slotTries b.slot → s.Canonical →
        (∃ u, exec .bootTimeout s = .next u ∧ u.slotState b.slot = slFailed) ∧ (∃ u, exec .bootTrap s = .next u ∧ u.slotState b.slot = slFailed))) ∧
    (s.inRecovery = true →
      (∀ n, s.rcvTaken 1 = false → imageLength n = true →
        ∃ v : State, exec (.rcvBegin tag n) s = .next (v.rcvReply 0x0C80 tag svOk []) ∧ v.fw.download = some ⟨1, s.recoverySlot, n, 0, []⟩ ∧
          v.slotState s.recoverySlot = slWriting) ∧
      (∀ n, s.rcvTaken 2 = false → imageLength n = true →
        ∃ v : State, exec (.recoveryBegin seq n) s = .next (v.frameReply svOk seq []) ∧
          v.fw.download = some ⟨2, s.recoverySlot, n, 0, []⟩) ∧
      (∀ d, s.rcvMine 1 = some d →
        (∀ count data, 0 < count → count ≤ 48 → count ≤ data.length → d.got + count ≤ d.length →
          ∃ v : State, exec (.rcvData tag d.got count data) s = .next (v.rcvReply 0x0C81 tag svOk []) ∧
            v.fw.download = some { d with got := d.got + count, data := d.data ++ data.take count }) ∧
        (∀ off count data, off ≠ d.got → exec (.rcvData tag off count data) s = .next (s.rcvReply 0x0C81 tag svInvalid [1])) ∧
        (∀ im, d.slot < 2 → d.slot < s.fw.slots.length → d.got = d.length → s.imageCheck im none = none →
          ∃ u, exec (.rcvEnd tag im) s = .next u ∧ u.slotState d.slot = slPending ∧ u.slotImage d.slot = some im) ∧
        (∀ im k, d.slot < 2 → d.got = d.length → s.imageCheck im none = some k →
          ∃ v : State, exec (.rcvEnd tag im) s = .next (v.rcvReply 0x0C82 tag svInvalid [w k]) ∧ v.slotState d.slot = slEmpty)) ∧
      (∀ d, s.rcvMine 2 = some d →
        (∀ data, data.length ≤ 8192 → d.got + data.length ≤ d.length →
          ∃ v : State, exec (.recoveryData seq d.got data) s = .next (v.frameReply svOk seq []) ∧
            v.fw.download = some { d with got := d.got + data.length, data := d.data ++ data }) ∧
        (∀ off data, off ≠ d.got → exec (.recoveryData seq off data) s = .next (s.frameReply svOk seq [])) ∧
        (∀ im, d.got = d.length → s.imageCheck im none = none →
          ∃ u, exec (.recoveryEnd seq im) s = .next u ∧ u.getF Fld.RST_CAUSE_CAUSE = 2 ∧ u.mem.hbm = [])) ∧
      (∃ ws, exec (.rcvStatus tag) s = .next (s.rcvReply 0x0C83 tag svOk ws) ∧ ws.length = 8 ∧ ws.headD 0 = (s.reg Reg.FW_STATUS).setWidth 32)) ∧
    (s.inRecovery = false → s.level ≠ lvStarting → s.pow.warm = false →
      (∀ n, exec (.rcvBegin tag n) s = .next (s.rcvReply 0x0C80 tag svUnknownCall [])) ∧
      (∀ off count data, exec (.rcvData tag off count data) s = .next (s.rcvReply 0x0C81 tag svUnknownCall [])) ∧
      (∀ im, exec (.rcvEnd tag im) s = .next (s.rcvReply 0x0C82 tag svUnknownCall [])) ∧
      exec (.rcvStatus tag) s = .next (s.rcvReply 0x0C83 tag svUnknownCall [])) ∧
    (∃ (u : State) (nonce : Nat), exec (.recoveryQuery seq) s = .next u ∧ u.sec.nonces = s.sec.nonces ++ [nonce] ∧
      ∃ r : RcvReply, u.fw.recoveryOut = s.fw.recoveryOut ++ [r] ∧ r.status = svOk ∧ r.seq = seq ∧
        r.extra.drop 36 = toBe 16 nonce ∧ r.extra.take 4 = toBe 4 (s.reg Reg.FW_STATUS).toNat) ∧
    (∀ sig, s.lifecycle ≠ lcDecommissioned → s.isOwned = false →
      ∃ u, exec (.enterRecovery seq sig) s = .next u ∧ u.inRecovery = true ∧ u.level = lvMinimal ∧ u.fw.download = none) ∧
    (∀ sig g, s.isOwned = true → s.signedFault sig .owner = none →
      ∃ v : State, exec (.groupRecord seq sig g) s = .next (v.frameReply svOk seq []) ∧ v.fw.group = some g ∧ sig.nonce ∉ v.sec.nonces) ∧
    (∀ sig g, s.isOwned = true → s.signedFault sig .owner ≠ none →
      ∃ v : State, exec (.groupRecord seq sig g) s = .next (v.frameReply svDenied seq []) ∧ v.fw.group = s.fw.group)

/-- The cartridge: a drive that is inserted is authenticated, a failure rejects it, its label decides its state, and LIFE is read; it leaves
by being pulled, a command that fails makes it FAULTY, and a reseed ends with it BOUND (R501 to R508, Table 15.5). -/
def Piece.Cartridge : Prop :=
  ∀ (d : Drive) (s : State), s.alive = true →
    (s.crt.drive = none → s.portRuns = true →
      ∃ u, exec (.cartridgeInsert d) s = .next u ∧ u.crt.drive = some d ∧ u.crtState = crAuth ∧ u.flag Fld.CRT_STATUS_PRESENT = true) ∧
    (s.crt.drive = some d →
      (s.crtState = crAuth → s.inRecovery = false →
        (d.fails ≠ 0 → ∃ u, exec .cartridgeAuthComplete s = .next u ∧ u.crtState = crRejected ∧ u.flag Fld.CRT_STATUS_WRITABLE = false) ∧
        (d.fails = 0 → s.sec.groupKey = none → driveLevel d < 4 →
          ∃ u, exec .cartridgeAuthComplete s = .next u ∧ u.crtState = s.labelState d ∧ u.reg Reg.CRT_ID = d.id ∧
            u.getF Fld.CRT_STATUS_LIFE = driveLife d) ∧
        (∀ l, d.fails = 0 → d.label = some l → s.sec.groupKey = some l.key → l.origin = s.ownDev → driveLevel d < 4 →
          ∃ u, exec .cartridgeAuthComplete s = .next u ∧ u.crtState = crBound ∧ u.crt.lastBound = d.id)) ∧
      (∃ u, exec .cartridgeRemove s = .next u ∧ u.crt.drive = none ∧ u.crtState = crAbsent ∧ u.flag Fld.CRT_STATUS_PRESENT = false) ∧
      (∀ status lba, s.crtState ≠ crAbsent → s.crtState ≠ crFaulty →
        ∃ u, exec (.cartridgeCommandFail status lba) s = .next u ∧ u.crtState = crFaulty ∧
          u.getF Fld.CRT_ERR_IO = min (s.getF Fld.CRT_ERR_IO + 1) 65535) ∧
      (∀ used units ro, crBlank ≤ s.crtState → s.crtState ≠ crFaulty →
        ∃ u, exec (.lifePoll used units ro) s = .next u ∧ u.crt.drive = some { d with used := used, units := units, readOnly := ro } ∧
          u.getF Fld.CRT_STATUS_LIFE = driveLife { d with used := used, units := units, readOnly := ro })) ∧
    (s.crtState = crReseeding → ∃ u, exec .reseedEnd s = .next u ∧ u.crtState = crBound ∧ ∀ b ∈ u.log.blocks, b.acked = true → b.written = true)

/-! ## Statements of two parts -/

/-- A device whose clocks are stopped: no command of a unit of the die changes it, and it stays stopped. -/
def Obligations.StoppedDevice : Prop := Piece.StoppedClocksKeepState ∧ Piece.StoppedDeviceStaysStopped

/-- Conversions of registers and of tensors in the operand cache.
Completion: exec answers a next state, with the effect stated, under hypotheses on the state and the operands alone, for
CVT, CVT_T. -/
def Obligations.Conversions : Prop := Piece.RegisterConversionResult ∧ Piece.TileConversionResult

/-- Posting and taking through a bank, and flushes of the conduit table.
Completion: exec answers a next state, with the effect stated, under hypotheses on the state and the operands alone, for
CND_CMD_POST, CND_CMD_TAKE, CND_FLUSH_WRITEBACK, CND_FLUSH_HOLD, CND_FLUSH_RELEASE. -/
def Obligations.ConduitBanksAndFlush : Prop := Piece.BankPostsAndTakes ∧ Piece.ConduitFlush

/-- The start and the end of a plume, and what befalls it.
Completion: exec answers a next state, with the effect stated, under hypotheses on the state and the operands alone, for
PLM_CTL_START, PLM_CTL_ABORT, PLM_ABORT_NOTICE, PLM_HOP_TIMEOUT_EXPIRY, JOIN_RECORD, PLM_SEGMENT_ARRIVE, REDUCER_ADD, LATE_DECISION,
POSITION_STATUS_RECORD, GATHER_REQUEST, VERSION_RETIRE. -/
def Obligations.PlumeRunsAndEvents : Prop := Piece.PlumeStartAndEnd ∧ Piece.PlumeEvents

/-- Branches, jumps and the other control instructions.
Completion: exec answers a next state, with the effect stated, under hypotheses on the state and the operands alone, for
JMP, JMPR, BR_EQ, BR_NE, BR_LT, BR_GE, BR_LTU, BR_GEU, NOP, HALT, BRK, YIELD. -/
def Obligations.ControlFlow : Prop := Piece.BranchTarget ∧ Piece.ControlInstructions

/-- The register files of a context, and the scalar operations over them.
Completion: exec answers a next state, with the effect stated, under hypotheses on the state and the operands alone, for
ADD, SUB, MUL, MULH, AND, OR, XOR, SHL, SHR, SRA, MIN, MAX, MINU, MAXU, SLT, SLTU. -/
def Obligations.ScalarRegistersAndOperations : Prop := Piece.ContextRegisterFiles ∧ Piece.ScalarOperationResult

/-- Moves, address arithmetic and special registers.
Completion: exec answers a next state, with the effect stated, under hypotheses on the state and the operands alone, for
MOVI, AADD, AMOV, ASET, AFAB, SMOV, SREG_RD, SREG_WR, VL_SET. -/
def Obligations.MovesAndSpecialRegisters : Prop := Piece.MoveAndAddressResult ∧ Piece.SpecialRegisterWrite

/-- Transfers between HBM and an operand cache are deferred to the commit of their group, and then move lines.
Completion: exec answers a next state, with the effect stated, under hypotheses on the state and the operands alone, for
OC_LOAD, OC_STORE, OC_PREF, OC_EVICT, TRANSFER_COMPLETE. -/
def Obligations.Transfers : Prop := Piece.TransferIsDeferred ∧ Piece.TransferMovesLines

/-- Register loads, and stores into the buffer of the group.
Completion: exec answers a next state, with the effect stated, under hypotheses on the state and the operands alone, for
VLD, SLD, PLD, VST, SST, PST. -/
def Obligations.LoadsAndStores : Prop := Piece.LoadResult ∧ Piece.StoreIsBuffered

/-- Drains are queued at issue and deliver a group of accumulators later.
Completion: exec answers a next state, with the effect stated, under hypotheses on the state and the operands alone, for
ACC_DRAIN, DRAIN_START, DRAIN_COMPLETE, LAST_ACCUMULATOR_UPDATE. -/
def Obligations.Drains : Prop := Piece.DrainIsQueued ∧ Piece.DrainRuns

/-- Vector operations and comparisons.
Completion: exec answers a next state, with the effect stated, under hypotheses on the state and the operands alone, for
VADD, VSUB, VMUL, VFMA, VFMS, VMIN, VMAX, VABS, VNEG, VAND, VOR, VXOR, VSHL, VSHR, VSEL, VDUP, VDIV, VRCP, VSQRT, VRSQ, VEXP2, VLOG2, VCMP_EQ,
VCMP_LT, VCMP_LE. -/
def Obligations.VectorOperations : Prop := Piece.VectorOperationResult ∧ Piece.VectorComparisonResult

/-- Permutes and broadcasts.
Completion: exec answers a next state, with the effect stated, under hypotheses on the state and the operands alone, for
PERM, SHUF, PACK, UNPACK, BCAST_COL, BCAST_ROW. -/
def Obligations.PermutesAndBroadcasts : Prop := Piece.PermuteResult ∧ Piece.BroadcastResult

/-- Posting to and taking from a conduit.
Completion: exec answers a next state, with the effect stated, under hypotheses on the state and the operands alone, for
CND_POST, CND_TAKE. -/
def Obligations.ConduitPostAndTake : Prop := Piece.ConduitPost ∧ Piece.ConduitTake

/-- Timers of a path and entries of the path table.
Completion: exec answers a next state, with the effect stated, under hypotheses on the state and the operands alone, for
RTO_EXPIRY, ACK_DELAY_EXPIRY, RATE_PERIOD_TICK, PROBE_INTERVAL_TICK, PATH_IDLE_PROBE, PATH_ENTRY_VALID, PATH_ENTRY_INVALID. -/
def Obligations.PathTimersAndEntries : Prop := Piece.PathTimers ∧ Piece.PathEntries

/-- Frames that a port receives and transmits.
Completion: exec answers a next state, with the effect stated, under hypotheses on the state and the operands alone, for
FRAME_RECEIVE, FRAME_TRANSMIT_START, TRANSMIT_UNDERRUN. -/
def Obligations.VentFrames : Prop := Piece.VentReceives ∧ Piece.VentTransmits

/-- Links of ports, ENABLE and resets of vents, and the wake detector.
Completion: exec answers a next state, with the effect stated, under hypotheses on the state and the operands alone, for
PORT_LINK_UP, PORT_LINK_DOWN, VNT_ENABLE, VNT_CTL_RESET, RST_VENT_GO, VNT_PTP_FIFO_POP, WAKE_DETECTOR_ARM, WAKE_PATTERN_MATCH. -/
def Obligations.VentLinksAndControl : Prop := Piece.VentLinks ∧ Piece.VentControl ∧ Piece.WakeDetector

/-- The aperture, configuration requests and the link, resets of the endpoint and of functions, and signals.
Completion: exec answers a next state, with the effect stated, under hypotheses on the state and the operands alone, for
APERTURE_READ, APERTURE_WRITE, PCIE_CONFIG_REQUEST, PCIE_LINK_UP, PCIE_LINK_DOWN, PERST_N, PERST_N_DEASSERT, HOT_RESET, FLR, VF_ENABLE_CLEAR,
IRQ_COALESCE_EXPIRY, PCI_GEY_INC, DBL_RING. -/
def Obligations.HostSide : Prop := Piece.HostAperture ∧ Piece.HostConfiguration ∧ Piece.HostResets ∧ Piece.HostSignals

/-- Mailbox channels, replies and aborts of calls.
Completion: exec answers a next state, with the effect stated, under hypotheses on the state and the operands alone, for
MBX_GO, MBX_TAKE, MBX_TIMEOUT_EXPIRY, REPLY_POST, FORWARDED_REPLY, SVC_CALL_ABORT. -/
def Obligations.MailboxesAndReplies : Prop := Piece.MailboxPost ∧ Piece.MailboxTake ∧ Piece.RepliesAndAborts

/-- Service calls of areas 0x0 to 0x3.
Completion: exec answers a next state, with the effect stated, under hypotheses on the state and the operands alone, for
SVC_DEVICE_SET, SVC_EVENT_ROUTE, SVC_DEVICE_QUERY, SVC_NUM_QUERY, SVC_NUM_EVENT_SET, SVC_AMAX_TABLE_SET, SVC_ARRAY_LOAD, SVC_ARRAY_START,
SVC_ARRAY_STOP, SVC_ARRAY_RESUME, SVC_ARRAY_QUERY, SVC_ARRAY_DUMP, SVC_ACC_QUERY, SVC_ACC_DEBUG_READ, SVC_ACC_RESERVE, SVC_EPROG_CHECK, SVC_OC_QUERY,
SVC_OC_SCRUB, SVC_HBM_QUERY, SVC_OC_RESERVE, SVC_CND_CREATE, SVC_CND_DESTROY, SVC_CND_QUERY, SVC_GEY_SET, SVC_GEY_QUERY. -/
def Obligations.ServiceCallsDeviceAndArrays : Prop := Piece.ServiceCallReplies ∧ Piece.DeviceAndNumericsCalls ∧ Piece.ArrayCalls ∧ Piece.MemoryCalls

/-- Service calls of areas 0x4 to 0x6.
Completion: exec answers a next state, with the effect stated, under hypotheses on the state and the operands alone, for
SVC_ZRT_SET, SVC_ZRT_PEER_SET, SVC_ZRT_PEER_QUERY, SVC_RMO_SUBMIT, SVC_RMO_ABORT, SVC_PLM_CREATE, SVC_PLM_START, SVC_PLM_ABORT, SVC_PLM_QUERY,
SVC_PLM_DESTROY, SVC_PLM_RESHARD, SVC_STEP_BANK_SET, SVC_STEP_CONFIG, SVC_STEP_ABORT, SVC_STEP_QUERY, SVC_AMAX_QUERY. -/
def Obligations.ServiceCallsTransportToSteps : Prop := Piece.TransportCalls ∧ Piece.PlumeAndStepCalls

/-- Service calls of areas 0x7 and 0x8.
Completion: exec answers a next state, with the effect stated, under hypotheses on the state and the operands alone, for
SVC_LOG_SET, SVC_LOG_APPEND, SVC_LOG_READ, SVC_BUDDY_SET, SVC_PROT_SET, SVC_SNAP_TAKE, SVC_SNAP_ABORT, SVC_REFILL, SVC_SHADOW_RESTORE, SVC_REPLAY_SET,
SVC_RETIRE_QUERY, SVC_RETIRE_CLEAR, SVC_VNT_SET, SVC_VNT_QUERY, SVC_VNT_MACSEC_SET, SVC_PTP_SET, SVC_VNT_WAKE_SET. -/
def Obligations.ServiceCallsSurvivalAndVents : Prop := Piece.SurvivalCalls ∧ Piece.VentCalls

/-- Service calls of areas 0x9 and 0xB.
Completion: exec answers a next state, with the effect stated, under hypotheses on the state and the operands alone, for
SVC_PART_CREATE, SVC_PART_DESTROY, SVC_PART_RESET, SVC_PART_QUERY, SVC_PERF_QUERY, SVC_PART_GRANT, SVC_QOS_SET, SVC_IRQ_SET, SVC_GROUP_SET,
SVC_GROUP_QUERY, SVC_PERF_SET, SVC_DBL_SET, SVC_CLK_SET, SVC_CLK_GATE, SVC_PWR_SET, SVC_PWR_QUERY, SVC_PWR_DORMANT, SVC_RST_ARRAY, SVC_RST_VENT,
SVC_RST_WARM, SVC_FRZ_SET. -/
def Obligations.ServiceCallsPartitionsAndPower : Prop := Piece.PartitionCalls ∧ Piece.PowerCalls

/-- Service calls of areas 0xA and 0xC.
Completion: exec answers a next state, with the effect stated, under hypotheses on the state and the operands alone, for
SVC_SEC_QUERY, SVC_SEC_NONCE, SVC_SEC_OWN, SVC_SEC_RELEASE, SVC_SEC_LIFECYCLE, SVC_SEC_GROUP_KEY, SVC_SEC_CAK_SET, SVC_SEC_IMPORT, SVC_SEC_EXPORT,
SVC_SEC_DEBUG_ARM, SVC_SEC_DEBUG_DISARM, SVC_FW_QUERY, SVC_FW_UPDATE, SVC_FW_CANCEL, SVC_FW_CONFIRM, SVC_FW_POLICY_SET, SVC_FW_RECOVERY,
SVC_CRT_QUERY, SVC_CRT_BIND, SVC_CRT_ERASE, SVC_CRT_EJECT, SVC_CRT_STAGE. -/
def Obligations.ServiceCallsSecrecyAndFirmware : Prop := Piece.SecrecyCalls ∧ Piece.FirmwareCalls

/-- Contacts, clock source, power, resets and freeze.
Completion: exec answers a next state, with the effect stated, under hypotheses on the state and the operands alone, for
POWER_ON_RESET, V54_FAIL, RESET_N, RESET_N_RELEASE, FREEZE_N, WAKE_N, REFCLK_PRESENT, REFCLK_LOSS, REFCLK_RETURN, TRIM_MEASUREMENT, THERMAL_TRIP,
PTP_LOCK, POWER_SAMPLE, THERMAL_SAMPLE, STARTUP_COMPLETE, CLK_GATE_WRITE, GATE_TAKE_EFFECT, RST_ARRAY_GO, RST_WARM_KEY, FRZ_CTL_TRIGGER. -/
def Obligations.PowerAndResets : Prop := Piece.ContactsAndClockSource ∧ Piece.PowerControl

/-- Boots, recovery and the cartridge.
Completion: exec answers a next state, with the effect stated, under hypotheses on the state and the operands alone, for
BOOT_OK, BOOT_TIMEOUT, BOOT_TRAP, RCV_BEGIN, RECOVERY_BEGIN, RCV_DATA, RCV_END, RECOVERY_DATA, RECOVERY_END, RCV_STATUS, RECOVERY_QUERY,
ENTER_RECOVERY, GROUP_RECORD, CARTRIDGE_INSERT, CARTRIDGE_AUTH_COMPLETE, CARTRIDGE_REMOVE, CARTRIDGE_COMMAND_FAIL, LIFE_POLL, RESEED_END. -/
def Obligations.BootRecoveryAndCartridge : Prop := Piece.BootAndRecovery ∧ Piece.Cartridge

/-- Commit and release of groups, and the replay of a group after a transient upset.
Completion: exec answers a next state, with the effect stated, under hypotheses on the state and the operands alone, for
GROUP_COMMIT, DEFERRED_RELEASE, TRANSIENT_UPSET. -/
def Obligations.GroupsAndReplays : Prop := Piece.GroupCommitAndRelease ∧ Piece.TransientUpsetReplays

/-- Element programs, and SCALE.PICK.
Completion: exec answers a next state, with the effect stated, under hypotheses on the state and the operands alone, for
EPROG_LOAD, EPROG_RUN, SCALE_PICK. -/
def Obligations.ElementProgramsAndScales : Prop := Piece.ElementProgram ∧ Piece.ScalePickResult

/-- Counts and firings of geysers, and the actions that waited.
Completion: exec answers a next state, with the effect stated, under hypotheses on the state and the operands alone, for
GEY_INCREMENT_APPLY, GEY_REGISTER_WRITE, GEY_POST_ACTION. -/
def Obligations.GeysersCountAndFire : Prop := Piece.GeyserCounts ∧ Piece.GeyserPostProceeds
end

