-- ==== Sys2Proof/Laws/Sparse.lean ====
section
/-! SUPPORT. The laws of the sparse stores: a read after a write, and that a write keeps the canonical form. -/
namespace Sys2Proof

theorem sparse_get_dropTo_ge {V : Type} (d : Nat → V) (k j : Nat) (m : Sparse V) (h : k < j) :
    Sparse.get d (Sparse.dropTo k m) j = Sparse.get d m j := by
  induction m with
  | nil => rfl
  | cons e t ih =>
    obtain ⟨k', v⟩ := e
    unfold Sparse.dropTo
    by_cases hk : k' ≤ k
    · have h1 : ¬ j = k' := by omega
      have h2 : ¬ j < k' := by omega
      rw [if_pos hk, ih]
      conv => rhs; unfold Sparse.get
      rw [if_neg h1, if_neg h2]
    · rw [if_neg hk]

theorem sparse_get_dropTo_le {V : Type} (d : Nat → V) (k j : Nat) (m : Sparse V) (h : j ≤ k) :
    Sparse.get d (Sparse.dropTo k m) j = d j := by
  induction m with
  | nil => rfl
  | cons e t ih =>
    obtain ⟨k', v⟩ := e
    unfold Sparse.dropTo
    by_cases hk : k' ≤ k
    · rw [if_pos hk, ih]
    · have h1 : ¬ j = k' := by omega
      have h2 : j < k' := by omega
      rw [if_neg hk]
      unfold Sparse.get
      rw [if_neg h1, if_pos h2]

@[simp] theorem sparse_get_set_same {V : Type} [DecidableEq V] (d : Nat → V) (m : Sparse V) (k : Nat) (v : V) :
    Sparse.get d (Sparse.set d m k v) k = v := by
  induction m with
  | nil => unfold Sparse.set; by_cases h : v = d k <;> simp [h, Sparse.get]
  | cons e t ih =>
    obtain ⟨k', v'⟩ := e
    unfold Sparse.set
    by_cases h1 : k < k'
    · have hne : ¬ k = k' := by omega
      by_cases h : v = d k
      · simp [h1, h, Sparse.get, hne]
      · simp [h1, h, Sparse.get]
    · by_cases h2 : k = k'
      · subst h2
        by_cases h : v = d k
        · rw [if_neg h1, if_pos rfl, if_pos h, sparse_get_dropTo_le d k k t le_rfl, h]
        · simp [h, Sparse.get]
      · rw [if_neg h1, if_neg h2]
        unfold Sparse.get
        rw [if_neg h2, if_neg h1]
        exact ih

theorem sparse_get_set_other {V : Type} [DecidableEq V] (d : Nat → V) (m : Sparse V) (k j : Nat) (v : V)
    (hj : j ≠ k) : Sparse.get d (Sparse.set d m k v) j = Sparse.get d m j := by
  induction m with
  | nil =>
    unfold Sparse.set
    by_cases h : v = d k
    · simp [h]
    · by_cases h3 : j < k <;> simp [h, Sparse.get, hj, h3]
  | cons e t ih =>
    obtain ⟨k', v'⟩ := e
    unfold Sparse.set
    by_cases h1 : k < k'
    · by_cases h : v = d k
      · rw [if_pos h1, if_pos h]
      · rw [if_pos h1, if_neg h]
        conv => lhs; unfold Sparse.get
        rw [if_neg hj]
        by_cases h3 : j < k
        · have h4 : j < k' := by omega
          have h5 : ¬ j = k' := by omega
          rw [if_pos h3]
          unfold Sparse.get
          rw [if_neg h5, if_pos h4]
        · rw [if_neg h3]
    · by_cases h2 : k = k'
      · subst h2
        by_cases h : v = d k
        · rw [if_neg h1, if_pos rfl, if_pos h]
          conv => rhs; unfold Sparse.get
          rw [if_neg hj]
          by_cases h3 : j < k
          · rw [if_pos h3, sparse_get_dropTo_le d k j t (by omega)]
          · rw [if_neg h3, sparse_get_dropTo_ge d k j t (by omega)]
        · rw [if_neg h1, if_pos rfl, if_neg h]
          conv => lhs; unfold Sparse.get
          conv => rhs; unfold Sparse.get
          simp only [if_neg hj]
      · rw [if_neg h1, if_neg h2]
        conv => lhs; unfold Sparse.get
        conv => rhs; unfold Sparse.get
        rw [ih]

theorem sparse_wfFrom_mono {V : Type} [DecidableEq V] (d : Nat → V) (m : Sparse V) (a b : Nat)
    (h : a ≤ b) (hw : Sparse.wfFrom d (some b) m = true) : Sparse.wfFrom d (some a) m = true := by
  cases m with
  | nil => rfl
  | cons e t =>
    obtain ⟨k, v⟩ := e
    simp only [Sparse.wfFrom, Bool.and_eq_true, decide_eq_true_eq] at hw ⊢
    exact ⟨⟨by omega, hw.1.2⟩, hw.2⟩

theorem sparse_dropTo_wf {V : Type} [DecidableEq V] (d : Nat → V) (m : Sparse V) (k : Nat)
    (hw : Sparse.wfFrom d (some k) m = true) : Sparse.dropTo k m = m := by
  cases m with
  | nil => rfl
  | cons e t =>
    obtain ⟨k', v⟩ := e
    simp only [Sparse.wfFrom, Bool.and_eq_true, decide_eq_true_eq] at hw
    unfold Sparse.dropTo
    rw [if_neg (by omega)]

theorem sparse_set_wfFrom {V : Type} [DecidableEq V] (d : Nat → V) (m : Sparse V) (k : Nat) (v : V)
    (b : Option Nat) (hb : ∀ x, b = some x → x < k) (hw : Sparse.wfFrom d b m = true) :
    Sparse.wfFrom d b (Sparse.set d m k v) = true := by
  induction m generalizing b with
  | nil =>
    unfold Sparse.set
    by_cases h : v = d k
    · simp [h, Sparse.wfFrom]
    · rw [if_neg h]
      cases b with
      | none => simp [Sparse.wfFrom, h]
      | some x => simp [Sparse.wfFrom, h, hb x rfl]
  | cons e t ih =>
    obtain ⟨k', v'⟩ := e
    have hw' := hw
    simp only [Sparse.wfFrom, Bool.and_eq_true, decide_eq_true_eq] at hw
    unfold Sparse.set
    by_cases h1 : k < k'
    · rw [if_pos h1]
      by_cases h : v = d k
      · rw [if_pos h]; exact hw'
      · rw [if_neg h]
        simp only [Sparse.wfFrom, Bool.and_eq_true, decide_eq_true_eq]
        refine ⟨⟨?_, h⟩, ⟨h1, hw.1.2⟩, hw.2⟩
        cases b with
        | none => rfl
        | some x => exact decide_eq_true (hb x rfl)
    · rw [if_neg h1]
      by_cases h2 : k = k'
      · subst h2
        rw [if_pos rfl]
        by_cases h : v = d k
        · rw [if_pos h, sparse_dropTo_wf d t k hw.2]
          cases b with
          | none => 
            cases t with
            | nil => rfl
            | cons e2 t2 =>
              obtain ⟨k2, v2⟩ := e2
              have := hw.2
              simp only [Sparse.wfFrom, Bool.and_eq_true, decide_eq_true_eq] at this ⊢
              exact ⟨⟨trivial, this.1.2⟩, this.2⟩
          | some x => exact sparse_wfFrom_mono d t x k (by have := hb x rfl; omega) hw.2
        · rw [if_neg h]
          simp only [Sparse.wfFrom, Bool.and_eq_true, decide_eq_true_eq]
          exact ⟨⟨hw.1.1, h⟩, hw.2⟩
      · rw [if_neg h2]
        simp only [Sparse.wfFrom, Bool.and_eq_true, decide_eq_true_eq]
        refine ⟨hw.1, ih (some k') ?_ hw.2⟩
        intro x hx
        cases hx
        omega

/-- A write keeps the canonical form. -/
theorem sparse_set_wf {V : Type} [DecidableEq V] (d : Nat → V) (m : Sparse V) (k : Nat) (v : V)
    (hw : Sparse.wf d m = true) : Sparse.wf d (Sparse.set d m k v) = true :=
  sparse_set_wfFrom d m k v none (by intro x hx; cases hx) hw

theorem sparse_clear_wfFrom {V : Type} [DecidableEq V] (d : Nat → V) (m : Sparse V) (lo hi : Nat) (b : Option Nat)
    (hw : Sparse.wfFrom d b m = true) : Sparse.wfFrom d b (Sparse.clear m lo hi) = true := by
  induction m generalizing b with
  | nil => rfl
  | cons e t ih =>
    obtain ⟨k, v⟩ := e
    simp only [Sparse.wfFrom, Bool.and_eq_true, decide_eq_true_eq] at hw
    unfold Sparse.clear at ih ⊢
    rw [List.filter_cons]
    split
    · simp only [Sparse.wfFrom, Bool.and_eq_true, decide_eq_true_eq]
      exact ⟨hw.1, ih (some k) hw.2⟩
    · apply ih
      cases b with
      | none =>
        have h2 := hw.2
        cases t with
        | nil => rfl
        | cons e2 t2 =>
          obtain ⟨k2, v2⟩ := e2
          simp only [Sparse.wfFrom, Bool.and_eq_true, decide_eq_true_eq] at h2 ⊢
          exact ⟨⟨trivial, h2.1.2⟩, h2.2⟩
      | some x =>
        have hx := hw.1.1
        simp only [decide_eq_true_eq] at hx
        exact sparse_wfFrom_mono d t x k (by omega) hw.2

/-- Clearing a range keeps the canonical form. -/
theorem sparse_clear_wf {V : Type} [DecidableEq V] (d : Nat → V) (m : Sparse V) (lo hi : Nat)
    (hw : Sparse.wf d m = true) : Sparse.wf d (Sparse.clear m lo hi) = true :=
  sparse_clear_wfFrom d m lo hi none hw

/-- Writing bytes keeps the canonical form. -/
theorem writeBytes_wf (m : Sparse Byte) (a : Nat) (l : List Byte) (hw : Memory.wf m = true) :
    Memory.wf (writeBytes m a l) = true := by
  induction l generalizing m a with
  | nil => exact hw
  | cons b t ih => exact ih _ _ (sparse_set_wf zeroByte m a b hw)

/-- A byte outside the written range reads as before. -/
theorem writeBytes_get_other (m : Sparse Byte) (a : Nat) (l : List Byte) (x : Nat)
    (h : x < a ∨ a + l.length ≤ x) : Sparse.get zeroByte (writeBytes m a l) x = Sparse.get zeroByte m x := by
  induction l generalizing m a with
  | nil => rfl
  | cons b t ih =>
    simp only [List.length_cons] at h
    rw [writeBytes, ih _ _ (by omega), sparse_get_set_other zeroByte m a x b (by omega)]

theorem writeBytes_get_in (m : Sparse Byte) (a : Nat) (l : List Byte) (i : Nat) (h : i < l.length) :
    Sparse.get zeroByte (writeBytes m a l) (a + i) = l[i] := by
  induction l generalizing m a i with
  | nil => simp at h
  | cons b t ih =>
    cases i with
    | zero =>
      rw [writeBytes, writeBytes_get_other _ _ _ _ (by omega)]
      simp
    | succ i =>
      have := ih (Sparse.set zeroByte m a b) (a + 1) i (by simpa using h)
      rw [writeBytes, show a + (i + 1) = a + 1 + i by omega, this]
      simp

end Sys2Proof
end

