-- ==== Sys2Proof/Laws/State.lean ====
section
/-! SUPPORT. What each named update of the state leaves as it was: one lemma per update and field. -/
namespace Sys2Proof.Machine

@[simp] theorem setReg_pending (s : State) (off : Nat) (v : Word64) : (s.setReg off v).pending = s.pending := rfl
@[simp] theorem setReg_time (s : State) (off : Nat) (v : Word64) : (s.setReg off v).time = s.time := rfl
@[simp] theorem setReg_fresh (s : State) (off : Nat) (v : Word64) : (s.setReg off v).fresh = s.fresh := rfl
@[simp] theorem setReg_arrays (s : State) (off : Nat) (v : Word64) : (s.setReg off v).arrays = s.arrays := rfl
@[simp] theorem setReg_parked (s : State) (off : Nat) (v : Word64) : (s.setReg off v).parked = s.parked := rfl
@[simp] theorem setReg_contexts (s : State) (off : Nat) (v : Word64) : (s.setReg off v).contexts = s.contexts := rfl
@[simp] theorem setReg_claims (s : State) (off : Nat) (v : Word64) : (s.setReg off v).claims = s.claims := rfl
@[simp] theorem setReg_mem (s : State) (off : Nat) (v : Word64) : (s.setReg off v).mem = s.mem := rfl
@[simp] theorem setReg_cnd (s : State) (off : Nat) (v : Word64) : (s.setReg off v).cnd = s.cnd := rfl
@[simp] theorem setReg_gey (s : State) (off : Nat) (v : Word64) : (s.setReg off v).gey = s.gey := rfl
@[simp] theorem setReg_streams (s : State) (off : Nat) (v : Word64) : (s.setReg off v).streams = s.streams := rfl
@[simp] theorem setReg_seqs (s : State) (off : Nat) (v : Word64) : (s.setReg off v).seqs = s.seqs := rfl
@[simp] theorem setReg_raised (s : State) (off : Nat) (v : Word64) : (s.setReg off v).raised = s.raised := rfl
@[simp] theorem setReg_amax (s : State) (off : Nat) (v : Word64) : (s.setReg off v).amax = s.amax := rfl
@[simp] theorem setReg_amaxEmpty (s : State) (off : Nat) (v : Word64) : (s.setReg off v).amaxEmpty = s.amaxEmpty := rfl
@[simp] theorem setReg_stopped (s : State) (off : Nat) (v : Word64) : (s.setReg off v).stopped = s.stopped := rfl
@[simp] theorem setReg_rmo (s : State) (off : Nat) (v : Word64) : (s.setReg off v).rmo = s.rmo := rfl
@[simp] theorem setReg_plm (s : State) (off : Nat) (v : Word64) : (s.setReg off v).plm = s.plm := rfl
@[simp] theorem setReg_plmSent (s : State) (off : Nat) (v : Word64) : (s.setReg off v).plmSent = s.plmSent := rfl
@[simp] theorem setReg_eth (s : State) (off : Nat) (v : Word64) : (s.setReg off v).eth = s.eth := rfl
@[simp] theorem setReg_host (s : State) (off : Nat) (v : Word64) : (s.setReg off v).host = s.host := rfl
@[simp] theorem setReg_sec (s : State) (off : Nat) (v : Word64) : (s.setReg off v).sec = s.sec := rfl
@[simp] theorem setReg_devTable (s : State) (off : Nat) (v : Word64) : (s.setReg off v).devTable = s.devTable := rfl
@[simp] theorem setReg_parts (s : State) (off : Nat) (v : Word64) : (s.setReg off v).parts = s.parts := rfl
@[simp] theorem setReg_buddies (s : State) (off : Nat) (v : Word64) : (s.setReg off v).buddies = s.buddies := rfl
@[simp] theorem setReg_banks (s : State) (off : Nat) (v : Word64) : (s.setReg off v).banks = s.banks := rfl
@[simp] theorem setReg_log (s : State) (off : Nat) (v : Word64) : (s.setReg off v).log = s.log := rfl
@[simp] theorem setReg_ret (s : State) (off : Nat) (v : Word64) : (s.setReg off v).ret = s.ret := rfl
@[simp] theorem setReg_acc (s : State) (off : Nat) (v : Word64) : (s.setReg off v).acc = s.acc := rfl
@[simp] theorem setReg_pow (s : State) (off : Nat) (v : Word64) : (s.setReg off v).pow = s.pow := rfl
@[simp] theorem setReg_dbg (s : State) (off : Nat) (v : Word64) : (s.setReg off v).dbg = s.dbg := rfl
@[simp] theorem setReg_i3c (s : State) (off : Nat) (v : Word64) : (s.setReg off v).i3c = s.i3c := rfl
@[simp] theorem setReg_fw (s : State) (off : Nat) (v : Word64) : (s.setReg off v).fw = s.fw := rfl
@[simp] theorem setReg_crt (s : State) (off : Nat) (v : Word64) : (s.setReg off v).crt = s.crt := rfl

@[simp] theorem setF_pending (s : State) (f : FieldRef) (x : Nat) : (s.setF f x).pending = s.pending := rfl
@[simp] theorem setF_time (s : State) (f : FieldRef) (x : Nat) : (s.setF f x).time = s.time := rfl
@[simp] theorem setF_fresh (s : State) (f : FieldRef) (x : Nat) : (s.setF f x).fresh = s.fresh := rfl
@[simp] theorem setF_arrays (s : State) (f : FieldRef) (x : Nat) : (s.setF f x).arrays = s.arrays := rfl
@[simp] theorem setF_parked (s : State) (f : FieldRef) (x : Nat) : (s.setF f x).parked = s.parked := rfl
@[simp] theorem setF_contexts (s : State) (f : FieldRef) (x : Nat) : (s.setF f x).contexts = s.contexts := rfl
@[simp] theorem setF_claims (s : State) (f : FieldRef) (x : Nat) : (s.setF f x).claims = s.claims := rfl
@[simp] theorem setF_mem (s : State) (f : FieldRef) (x : Nat) : (s.setF f x).mem = s.mem := rfl
@[simp] theorem setF_cnd (s : State) (f : FieldRef) (x : Nat) : (s.setF f x).cnd = s.cnd := rfl
@[simp] theorem setF_gey (s : State) (f : FieldRef) (x : Nat) : (s.setF f x).gey = s.gey := rfl
@[simp] theorem setF_streams (s : State) (f : FieldRef) (x : Nat) : (s.setF f x).streams = s.streams := rfl
@[simp] theorem setF_seqs (s : State) (f : FieldRef) (x : Nat) : (s.setF f x).seqs = s.seqs := rfl
@[simp] theorem setF_raised (s : State) (f : FieldRef) (x : Nat) : (s.setF f x).raised = s.raised := rfl
@[simp] theorem setF_amax (s : State) (f : FieldRef) (x : Nat) : (s.setF f x).amax = s.amax := rfl
@[simp] theorem setF_amaxEmpty (s : State) (f : FieldRef) (x : Nat) : (s.setF f x).amaxEmpty = s.amaxEmpty := rfl
@[simp] theorem setF_stopped (s : State) (f : FieldRef) (x : Nat) : (s.setF f x).stopped = s.stopped := rfl
@[simp] theorem setF_rmo (s : State) (f : FieldRef) (x : Nat) : (s.setF f x).rmo = s.rmo := rfl
@[simp] theorem setF_plm (s : State) (f : FieldRef) (x : Nat) : (s.setF f x).plm = s.plm := rfl
@[simp] theorem setF_plmSent (s : State) (f : FieldRef) (x : Nat) : (s.setF f x).plmSent = s.plmSent := rfl
@[simp] theorem setF_eth (s : State) (f : FieldRef) (x : Nat) : (s.setF f x).eth = s.eth := rfl
@[simp] theorem setF_host (s : State) (f : FieldRef) (x : Nat) : (s.setF f x).host = s.host := rfl
@[simp] theorem setF_sec (s : State) (f : FieldRef) (x : Nat) : (s.setF f x).sec = s.sec := rfl
@[simp] theorem setF_devTable (s : State) (f : FieldRef) (x : Nat) : (s.setF f x).devTable = s.devTable := rfl
@[simp] theorem setF_parts (s : State) (f : FieldRef) (x : Nat) : (s.setF f x).parts = s.parts := rfl
@[simp] theorem setF_buddies (s : State) (f : FieldRef) (x : Nat) : (s.setF f x).buddies = s.buddies := rfl
@[simp] theorem setF_banks (s : State) (f : FieldRef) (x : Nat) : (s.setF f x).banks = s.banks := rfl
@[simp] theorem setF_log (s : State) (f : FieldRef) (x : Nat) : (s.setF f x).log = s.log := rfl
@[simp] theorem setF_ret (s : State) (f : FieldRef) (x : Nat) : (s.setF f x).ret = s.ret := rfl
@[simp] theorem setF_acc (s : State) (f : FieldRef) (x : Nat) : (s.setF f x).acc = s.acc := rfl
@[simp] theorem setF_pow (s : State) (f : FieldRef) (x : Nat) : (s.setF f x).pow = s.pow := rfl
@[simp] theorem setF_dbg (s : State) (f : FieldRef) (x : Nat) : (s.setF f x).dbg = s.dbg := rfl
@[simp] theorem setF_i3c (s : State) (f : FieldRef) (x : Nat) : (s.setF f x).i3c = s.i3c := rfl
@[simp] theorem setF_fw (s : State) (f : FieldRef) (x : Nat) : (s.setF f x).fw = s.fw := rfl
@[simp] theorem setF_crt (s : State) (f : FieldRef) (x : Nat) : (s.setF f x).crt = s.crt := rfl

@[simp] theorem incF_pending (s : State) (f : FieldRef) (x : Nat) : (s.incF f x).pending = s.pending := rfl
@[simp] theorem incF_time (s : State) (f : FieldRef) (x : Nat) : (s.incF f x).time = s.time := rfl
@[simp] theorem incF_fresh (s : State) (f : FieldRef) (x : Nat) : (s.incF f x).fresh = s.fresh := rfl
@[simp] theorem incF_arrays (s : State) (f : FieldRef) (x : Nat) : (s.incF f x).arrays = s.arrays := rfl
@[simp] theorem incF_parked (s : State) (f : FieldRef) (x : Nat) : (s.incF f x).parked = s.parked := rfl
@[simp] theorem incF_contexts (s : State) (f : FieldRef) (x : Nat) : (s.incF f x).contexts = s.contexts := rfl
@[simp] theorem incF_claims (s : State) (f : FieldRef) (x : Nat) : (s.incF f x).claims = s.claims := rfl
@[simp] theorem incF_mem (s : State) (f : FieldRef) (x : Nat) : (s.incF f x).mem = s.mem := rfl
@[simp] theorem incF_cnd (s : State) (f : FieldRef) (x : Nat) : (s.incF f x).cnd = s.cnd := rfl
@[simp] theorem incF_gey (s : State) (f : FieldRef) (x : Nat) : (s.incF f x).gey = s.gey := rfl
@[simp] theorem incF_streams (s : State) (f : FieldRef) (x : Nat) : (s.incF f x).streams = s.streams := rfl
@[simp] theorem incF_seqs (s : State) (f : FieldRef) (x : Nat) : (s.incF f x).seqs = s.seqs := rfl
@[simp] theorem incF_raised (s : State) (f : FieldRef) (x : Nat) : (s.incF f x).raised = s.raised := rfl
@[simp] theorem incF_amax (s : State) (f : FieldRef) (x : Nat) : (s.incF f x).amax = s.amax := rfl
@[simp] theorem incF_amaxEmpty (s : State) (f : FieldRef) (x : Nat) : (s.incF f x).amaxEmpty = s.amaxEmpty := rfl
@[simp] theorem incF_stopped (s : State) (f : FieldRef) (x : Nat) : (s.incF f x).stopped = s.stopped := rfl
@[simp] theorem incF_rmo (s : State) (f : FieldRef) (x : Nat) : (s.incF f x).rmo = s.rmo := rfl
@[simp] theorem incF_plm (s : State) (f : FieldRef) (x : Nat) : (s.incF f x).plm = s.plm := rfl
@[simp] theorem incF_plmSent (s : State) (f : FieldRef) (x : Nat) : (s.incF f x).plmSent = s.plmSent := rfl
@[simp] theorem incF_eth (s : State) (f : FieldRef) (x : Nat) : (s.incF f x).eth = s.eth := rfl
@[simp] theorem incF_host (s : State) (f : FieldRef) (x : Nat) : (s.incF f x).host = s.host := rfl
@[simp] theorem incF_sec (s : State) (f : FieldRef) (x : Nat) : (s.incF f x).sec = s.sec := rfl
@[simp] theorem incF_devTable (s : State) (f : FieldRef) (x : Nat) : (s.incF f x).devTable = s.devTable := rfl
@[simp] theorem incF_parts (s : State) (f : FieldRef) (x : Nat) : (s.incF f x).parts = s.parts := rfl
@[simp] theorem incF_buddies (s : State) (f : FieldRef) (x : Nat) : (s.incF f x).buddies = s.buddies := rfl
@[simp] theorem incF_banks (s : State) (f : FieldRef) (x : Nat) : (s.incF f x).banks = s.banks := rfl
@[simp] theorem incF_log (s : State) (f : FieldRef) (x : Nat) : (s.incF f x).log = s.log := rfl
@[simp] theorem incF_ret (s : State) (f : FieldRef) (x : Nat) : (s.incF f x).ret = s.ret := rfl
@[simp] theorem incF_acc (s : State) (f : FieldRef) (x : Nat) : (s.incF f x).acc = s.acc := rfl
@[simp] theorem incF_pow (s : State) (f : FieldRef) (x : Nat) : (s.incF f x).pow = s.pow := rfl
@[simp] theorem incF_dbg (s : State) (f : FieldRef) (x : Nat) : (s.incF f x).dbg = s.dbg := rfl
@[simp] theorem incF_i3c (s : State) (f : FieldRef) (x : Nat) : (s.incF f x).i3c = s.i3c := rfl
@[simp] theorem incF_fw (s : State) (f : FieldRef) (x : Nat) : (s.incF f x).fw = s.fw := rfl
@[simp] theorem incF_crt (s : State) (f : FieldRef) (x : Nat) : (s.incF f x).crt = s.crt := rfl

@[simp] theorem incSat_pending (s : State) (f : FieldRef) (x : Nat) : (s.incSat f x).pending = s.pending := rfl
@[simp] theorem incSat_time (s : State) (f : FieldRef) (x : Nat) : (s.incSat f x).time = s.time := rfl
@[simp] theorem incSat_fresh (s : State) (f : FieldRef) (x : Nat) : (s.incSat f x).fresh = s.fresh := rfl
@[simp] theorem incSat_arrays (s : State) (f : FieldRef) (x : Nat) : (s.incSat f x).arrays = s.arrays := rfl
@[simp] theorem incSat_parked (s : State) (f : FieldRef) (x : Nat) : (s.incSat f x).parked = s.parked := rfl
@[simp] theorem incSat_contexts (s : State) (f : FieldRef) (x : Nat) : (s.incSat f x).contexts = s.contexts := rfl
@[simp] theorem incSat_claims (s : State) (f : FieldRef) (x : Nat) : (s.incSat f x).claims = s.claims := rfl
@[simp] theorem incSat_mem (s : State) (f : FieldRef) (x : Nat) : (s.incSat f x).mem = s.mem := rfl
@[simp] theorem incSat_cnd (s : State) (f : FieldRef) (x : Nat) : (s.incSat f x).cnd = s.cnd := rfl
@[simp] theorem incSat_gey (s : State) (f : FieldRef) (x : Nat) : (s.incSat f x).gey = s.gey := rfl
@[simp] theorem incSat_streams (s : State) (f : FieldRef) (x : Nat) : (s.incSat f x).streams = s.streams := rfl
@[simp] theorem incSat_seqs (s : State) (f : FieldRef) (x : Nat) : (s.incSat f x).seqs = s.seqs := rfl
@[simp] theorem incSat_raised (s : State) (f : FieldRef) (x : Nat) : (s.incSat f x).raised = s.raised := rfl
@[simp] theorem incSat_amax (s : State) (f : FieldRef) (x : Nat) : (s.incSat f x).amax = s.amax := rfl
@[simp] theorem incSat_amaxEmpty (s : State) (f : FieldRef) (x : Nat) : (s.incSat f x).amaxEmpty = s.amaxEmpty := rfl
@[simp] theorem incSat_stopped (s : State) (f : FieldRef) (x : Nat) : (s.incSat f x).stopped = s.stopped := rfl
@[simp] theorem incSat_rmo (s : State) (f : FieldRef) (x : Nat) : (s.incSat f x).rmo = s.rmo := rfl
@[simp] theorem incSat_plm (s : State) (f : FieldRef) (x : Nat) : (s.incSat f x).plm = s.plm := rfl
@[simp] theorem incSat_plmSent (s : State) (f : FieldRef) (x : Nat) : (s.incSat f x).plmSent = s.plmSent := rfl
@[simp] theorem incSat_eth (s : State) (f : FieldRef) (x : Nat) : (s.incSat f x).eth = s.eth := rfl
@[simp] theorem incSat_host (s : State) (f : FieldRef) (x : Nat) : (s.incSat f x).host = s.host := rfl
@[simp] theorem incSat_sec (s : State) (f : FieldRef) (x : Nat) : (s.incSat f x).sec = s.sec := rfl
@[simp] theorem incSat_devTable (s : State) (f : FieldRef) (x : Nat) : (s.incSat f x).devTable = s.devTable := rfl
@[simp] theorem incSat_parts (s : State) (f : FieldRef) (x : Nat) : (s.incSat f x).parts = s.parts := rfl
@[simp] theorem incSat_buddies (s : State) (f : FieldRef) (x : Nat) : (s.incSat f x).buddies = s.buddies := rfl
@[simp] theorem incSat_banks (s : State) (f : FieldRef) (x : Nat) : (s.incSat f x).banks = s.banks := rfl
@[simp] theorem incSat_log (s : State) (f : FieldRef) (x : Nat) : (s.incSat f x).log = s.log := rfl
@[simp] theorem incSat_ret (s : State) (f : FieldRef) (x : Nat) : (s.incSat f x).ret = s.ret := rfl
@[simp] theorem incSat_acc (s : State) (f : FieldRef) (x : Nat) : (s.incSat f x).acc = s.acc := rfl
@[simp] theorem incSat_pow (s : State) (f : FieldRef) (x : Nat) : (s.incSat f x).pow = s.pow := rfl
@[simp] theorem incSat_dbg (s : State) (f : FieldRef) (x : Nat) : (s.incSat f x).dbg = s.dbg := rfl
@[simp] theorem incSat_i3c (s : State) (f : FieldRef) (x : Nat) : (s.incSat f x).i3c = s.i3c := rfl
@[simp] theorem incSat_fw (s : State) (f : FieldRef) (x : Nat) : (s.incSat f x).fw = s.fw := rfl
@[simp] theorem incSat_crt (s : State) (f : FieldRef) (x : Nat) : (s.incSat f x).crt = s.crt := rfl

@[simp] theorem resetRegs_pending (s : State) (lo hi : Nat) : (s.resetRegs lo hi).pending = s.pending := rfl
@[simp] theorem resetRegs_time (s : State) (lo hi : Nat) : (s.resetRegs lo hi).time = s.time := rfl
@[simp] theorem resetRegs_fresh (s : State) (lo hi : Nat) : (s.resetRegs lo hi).fresh = s.fresh := rfl
@[simp] theorem resetRegs_arrays (s : State) (lo hi : Nat) : (s.resetRegs lo hi).arrays = s.arrays := rfl
@[simp] theorem resetRegs_parked (s : State) (lo hi : Nat) : (s.resetRegs lo hi).parked = s.parked := rfl
@[simp] theorem resetRegs_contexts (s : State) (lo hi : Nat) : (s.resetRegs lo hi).contexts = s.contexts := rfl
@[simp] theorem resetRegs_claims (s : State) (lo hi : Nat) : (s.resetRegs lo hi).claims = s.claims := rfl
@[simp] theorem resetRegs_mem (s : State) (lo hi : Nat) : (s.resetRegs lo hi).mem = s.mem := rfl
@[simp] theorem resetRegs_cnd (s : State) (lo hi : Nat) : (s.resetRegs lo hi).cnd = s.cnd := rfl
@[simp] theorem resetRegs_gey (s : State) (lo hi : Nat) : (s.resetRegs lo hi).gey = s.gey := rfl
@[simp] theorem resetRegs_streams (s : State) (lo hi : Nat) : (s.resetRegs lo hi).streams = s.streams := rfl
@[simp] theorem resetRegs_seqs (s : State) (lo hi : Nat) : (s.resetRegs lo hi).seqs = s.seqs := rfl
@[simp] theorem resetRegs_raised (s : State) (lo hi : Nat) : (s.resetRegs lo hi).raised = s.raised := rfl
@[simp] theorem resetRegs_amax (s : State) (lo hi : Nat) : (s.resetRegs lo hi).amax = s.amax := rfl
@[simp] theorem resetRegs_amaxEmpty (s : State) (lo hi : Nat) : (s.resetRegs lo hi).amaxEmpty = s.amaxEmpty := rfl
@[simp] theorem resetRegs_stopped (s : State) (lo hi : Nat) : (s.resetRegs lo hi).stopped = s.stopped := rfl
@[simp] theorem resetRegs_rmo (s : State) (lo hi : Nat) : (s.resetRegs lo hi).rmo = s.rmo := rfl
@[simp] theorem resetRegs_plm (s : State) (lo hi : Nat) : (s.resetRegs lo hi).plm = s.plm := rfl
@[simp] theorem resetRegs_plmSent (s : State) (lo hi : Nat) : (s.resetRegs lo hi).plmSent = s.plmSent := rfl
@[simp] theorem resetRegs_eth (s : State) (lo hi : Nat) : (s.resetRegs lo hi).eth = s.eth := rfl
@[simp] theorem resetRegs_host (s : State) (lo hi : Nat) : (s.resetRegs lo hi).host = s.host := rfl
@[simp] theorem resetRegs_sec (s : State) (lo hi : Nat) : (s.resetRegs lo hi).sec = s.sec := rfl
@[simp] theorem resetRegs_devTable (s : State) (lo hi : Nat) : (s.resetRegs lo hi).devTable = s.devTable := rfl
@[simp] theorem resetRegs_parts (s : State) (lo hi : Nat) : (s.resetRegs lo hi).parts = s.parts := rfl
@[simp] theorem resetRegs_buddies (s : State) (lo hi : Nat) : (s.resetRegs lo hi).buddies = s.buddies := rfl
@[simp] theorem resetRegs_banks (s : State) (lo hi : Nat) : (s.resetRegs lo hi).banks = s.banks := rfl
@[simp] theorem resetRegs_log (s : State) (lo hi : Nat) : (s.resetRegs lo hi).log = s.log := rfl
@[simp] theorem resetRegs_ret (s : State) (lo hi : Nat) : (s.resetRegs lo hi).ret = s.ret := rfl
@[simp] theorem resetRegs_pow (s : State) (lo hi : Nat) : (s.resetRegs lo hi).pow = s.pow := rfl
@[simp] theorem resetRegs_dbg (s : State) (lo hi : Nat) : (s.resetRegs lo hi).dbg = s.dbg := rfl
@[simp] theorem resetRegs_i3c (s : State) (lo hi : Nat) : (s.resetRegs lo hi).i3c = s.i3c := rfl
@[simp] theorem resetRegs_fw (s : State) (lo hi : Nat) : (s.resetRegs lo hi).fw = s.fw := rfl
@[simp] theorem resetRegs_crt (s : State) (lo hi : Nat) : (s.resetRegs lo hi).crt = s.crt := rfl

@[simp] theorem setArr_pending (s : State) (n : Nat) (a : Arr) : (s.setArr n a).pending = s.pending := rfl
@[simp] theorem setArr_regs (s : State) (n : Nat) (a : Arr) : (s.setArr n a).regs = s.regs := rfl
@[simp] theorem setArr_time (s : State) (n : Nat) (a : Arr) : (s.setArr n a).time = s.time := rfl
@[simp] theorem setArr_fresh (s : State) (n : Nat) (a : Arr) : (s.setArr n a).fresh = s.fresh := rfl
@[simp] theorem setArr_parked (s : State) (n : Nat) (a : Arr) : (s.setArr n a).parked = s.parked := rfl
@[simp] theorem setArr_contexts (s : State) (n : Nat) (a : Arr) : (s.setArr n a).contexts = s.contexts := rfl
@[simp] theorem setArr_claims (s : State) (n : Nat) (a : Arr) : (s.setArr n a).claims = s.claims := rfl
@[simp] theorem setArr_mem (s : State) (n : Nat) (a : Arr) : (s.setArr n a).mem = s.mem := rfl
@[simp] theorem setArr_cnd (s : State) (n : Nat) (a : Arr) : (s.setArr n a).cnd = s.cnd := rfl
@[simp] theorem setArr_gey (s : State) (n : Nat) (a : Arr) : (s.setArr n a).gey = s.gey := rfl
@[simp] theorem setArr_streams (s : State) (n : Nat) (a : Arr) : (s.setArr n a).streams = s.streams := rfl
@[simp] theorem setArr_seqs (s : State) (n : Nat) (a : Arr) : (s.setArr n a).seqs = s.seqs := rfl
@[simp] theorem setArr_raised (s : State) (n : Nat) (a : Arr) : (s.setArr n a).raised = s.raised := rfl
@[simp] theorem setArr_amax (s : State) (n : Nat) (a : Arr) : (s.setArr n a).amax = s.amax := rfl
@[simp] theorem setArr_amaxEmpty (s : State) (n : Nat) (a : Arr) : (s.setArr n a).amaxEmpty = s.amaxEmpty := rfl
@[simp] theorem setArr_stopped (s : State) (n : Nat) (a : Arr) : (s.setArr n a).stopped = s.stopped := rfl
@[simp] theorem setArr_rmo (s : State) (n : Nat) (a : Arr) : (s.setArr n a).rmo = s.rmo := rfl
@[simp] theorem setArr_plm (s : State) (n : Nat) (a : Arr) : (s.setArr n a).plm = s.plm := rfl
@[simp] theorem setArr_plmSent (s : State) (n : Nat) (a : Arr) : (s.setArr n a).plmSent = s.plmSent := rfl
@[simp] theorem setArr_eth (s : State) (n : Nat) (a : Arr) : (s.setArr n a).eth = s.eth := rfl
@[simp] theorem setArr_host (s : State) (n : Nat) (a : Arr) : (s.setArr n a).host = s.host := rfl
@[simp] theorem setArr_sec (s : State) (n : Nat) (a : Arr) : (s.setArr n a).sec = s.sec := rfl
@[simp] theorem setArr_devTable (s : State) (n : Nat) (a : Arr) : (s.setArr n a).devTable = s.devTable := rfl
@[simp] theorem setArr_parts (s : State) (n : Nat) (a : Arr) : (s.setArr n a).parts = s.parts := rfl
@[simp] theorem setArr_buddies (s : State) (n : Nat) (a : Arr) : (s.setArr n a).buddies = s.buddies := rfl
@[simp] theorem setArr_banks (s : State) (n : Nat) (a : Arr) : (s.setArr n a).banks = s.banks := rfl
@[simp] theorem setArr_log (s : State) (n : Nat) (a : Arr) : (s.setArr n a).log = s.log := rfl
@[simp] theorem setArr_ret (s : State) (n : Nat) (a : Arr) : (s.setArr n a).ret = s.ret := rfl
@[simp] theorem setArr_acc (s : State) (n : Nat) (a : Arr) : (s.setArr n a).acc = s.acc := rfl
@[simp] theorem setArr_pow (s : State) (n : Nat) (a : Arr) : (s.setArr n a).pow = s.pow := rfl
@[simp] theorem setArr_dbg (s : State) (n : Nat) (a : Arr) : (s.setArr n a).dbg = s.dbg := rfl
@[simp] theorem setArr_i3c (s : State) (n : Nat) (a : Arr) : (s.setArr n a).i3c = s.i3c := rfl
@[simp] theorem setArr_fw (s : State) (n : Nat) (a : Arr) : (s.setArr n a).fw = s.fw := rfl
@[simp] theorem setArr_crt (s : State) (n : Nat) (a : Arr) : (s.setArr n a).crt = s.crt := rfl

@[simp] theorem modArr_pending (s : State) (n : Nat) (g : Arr → Arr) : (s.modArr n g).pending = s.pending := rfl
@[simp] theorem modArr_regs (s : State) (n : Nat) (g : Arr → Arr) : (s.modArr n g).regs = s.regs := rfl
@[simp] theorem modArr_time (s : State) (n : Nat) (g : Arr → Arr) : (s.modArr n g).time = s.time := rfl
@[simp] theorem modArr_fresh (s : State) (n : Nat) (g : Arr → Arr) : (s.modArr n g).fresh = s.fresh := rfl
@[simp] theorem modArr_parked (s : State) (n : Nat) (g : Arr → Arr) : (s.modArr n g).parked = s.parked := rfl
@[simp] theorem modArr_contexts (s : State) (n : Nat) (g : Arr → Arr) : (s.modArr n g).contexts = s.contexts := rfl
@[simp] theorem modArr_claims (s : State) (n : Nat) (g : Arr → Arr) : (s.modArr n g).claims = s.claims := rfl
@[simp] theorem modArr_mem (s : State) (n : Nat) (g : Arr → Arr) : (s.modArr n g).mem = s.mem := rfl
@[simp] theorem modArr_cnd (s : State) (n : Nat) (g : Arr → Arr) : (s.modArr n g).cnd = s.cnd := rfl
@[simp] theorem modArr_gey (s : State) (n : Nat) (g : Arr → Arr) : (s.modArr n g).gey = s.gey := rfl
@[simp] theorem modArr_streams (s : State) (n : Nat) (g : Arr → Arr) : (s.modArr n g).streams = s.streams := rfl
@[simp] theorem modArr_seqs (s : State) (n : Nat) (g : Arr → Arr) : (s.modArr n g).seqs = s.seqs := rfl
@[simp] theorem modArr_raised (s : State) (n : Nat) (g : Arr → Arr) : (s.modArr n g).raised = s.raised := rfl
@[simp] theorem modArr_amax (s : State) (n : Nat) (g : Arr → Arr) : (s.modArr n g).amax = s.amax := rfl
@[simp] theorem modArr_amaxEmpty (s : State) (n : Nat) (g : Arr → Arr) : (s.modArr n g).amaxEmpty = s.amaxEmpty := rfl
@[simp] theorem modArr_stopped (s : State) (n : Nat) (g : Arr → Arr) : (s.modArr n g).stopped = s.stopped := rfl
@[simp] theorem modArr_rmo (s : State) (n : Nat) (g : Arr → Arr) : (s.modArr n g).rmo = s.rmo := rfl
@[simp] theorem modArr_plm (s : State) (n : Nat) (g : Arr → Arr) : (s.modArr n g).plm = s.plm := rfl
@[simp] theorem modArr_plmSent (s : State) (n : Nat) (g : Arr → Arr) : (s.modArr n g).plmSent = s.plmSent := rfl
@[simp] theorem modArr_eth (s : State) (n : Nat) (g : Arr → Arr) : (s.modArr n g).eth = s.eth := rfl
@[simp] theorem modArr_host (s : State) (n : Nat) (g : Arr → Arr) : (s.modArr n g).host = s.host := rfl
@[simp] theorem modArr_sec (s : State) (n : Nat) (g : Arr → Arr) : (s.modArr n g).sec = s.sec := rfl
@[simp] theorem modArr_devTable (s : State) (n : Nat) (g : Arr → Arr) : (s.modArr n g).devTable = s.devTable := rfl
@[simp] theorem modArr_parts (s : State) (n : Nat) (g : Arr → Arr) : (s.modArr n g).parts = s.parts := rfl
@[simp] theorem modArr_buddies (s : State) (n : Nat) (g : Arr → Arr) : (s.modArr n g).buddies = s.buddies := rfl
@[simp] theorem modArr_banks (s : State) (n : Nat) (g : Arr → Arr) : (s.modArr n g).banks = s.banks := rfl
@[simp] theorem modArr_log (s : State) (n : Nat) (g : Arr → Arr) : (s.modArr n g).log = s.log := rfl
@[simp] theorem modArr_ret (s : State) (n : Nat) (g : Arr → Arr) : (s.modArr n g).ret = s.ret := rfl
@[simp] theorem modArr_acc (s : State) (n : Nat) (g : Arr → Arr) : (s.modArr n g).acc = s.acc := rfl
@[simp] theorem modArr_pow (s : State) (n : Nat) (g : Arr → Arr) : (s.modArr n g).pow = s.pow := rfl
@[simp] theorem modArr_dbg (s : State) (n : Nat) (g : Arr → Arr) : (s.modArr n g).dbg = s.dbg := rfl
@[simp] theorem modArr_i3c (s : State) (n : Nat) (g : Arr → Arr) : (s.modArr n g).i3c = s.i3c := rfl
@[simp] theorem modArr_fw (s : State) (n : Nat) (g : Arr → Arr) : (s.modArr n g).fw = s.fw := rfl
@[simp] theorem modArr_crt (s : State) (n : Nat) (g : Arr → Arr) : (s.modArr n g).crt = s.crt := rfl

@[simp] theorem modCtx_pending (s : State) (n : Nat) (g : Ctx → Ctx) : (s.modCtx n g).pending = s.pending := rfl
@[simp] theorem modCtx_regs (s : State) (n : Nat) (g : Ctx → Ctx) : (s.modCtx n g).regs = s.regs := rfl
@[simp] theorem modCtx_time (s : State) (n : Nat) (g : Ctx → Ctx) : (s.modCtx n g).time = s.time := rfl
@[simp] theorem modCtx_fresh (s : State) (n : Nat) (g : Ctx → Ctx) : (s.modCtx n g).fresh = s.fresh := rfl
@[simp] theorem modCtx_parked (s : State) (n : Nat) (g : Ctx → Ctx) : (s.modCtx n g).parked = s.parked := rfl
@[simp] theorem modCtx_contexts (s : State) (n : Nat) (g : Ctx → Ctx) : (s.modCtx n g).contexts = s.contexts := rfl
@[simp] theorem modCtx_claims (s : State) (n : Nat) (g : Ctx → Ctx) : (s.modCtx n g).claims = s.claims := rfl
@[simp] theorem modCtx_mem (s : State) (n : Nat) (g : Ctx → Ctx) : (s.modCtx n g).mem = s.mem := rfl
@[simp] theorem modCtx_cnd (s : State) (n : Nat) (g : Ctx → Ctx) : (s.modCtx n g).cnd = s.cnd := rfl
@[simp] theorem modCtx_gey (s : State) (n : Nat) (g : Ctx → Ctx) : (s.modCtx n g).gey = s.gey := rfl
@[simp] theorem modCtx_streams (s : State) (n : Nat) (g : Ctx → Ctx) : (s.modCtx n g).streams = s.streams := rfl
@[simp] theorem modCtx_seqs (s : State) (n : Nat) (g : Ctx → Ctx) : (s.modCtx n g).seqs = s.seqs := rfl
@[simp] theorem modCtx_raised (s : State) (n : Nat) (g : Ctx → Ctx) : (s.modCtx n g).raised = s.raised := rfl
@[simp] theorem modCtx_amax (s : State) (n : Nat) (g : Ctx → Ctx) : (s.modCtx n g).amax = s.amax := rfl
@[simp] theorem modCtx_amaxEmpty (s : State) (n : Nat) (g : Ctx → Ctx) : (s.modCtx n g).amaxEmpty = s.amaxEmpty := rfl
@[simp] theorem modCtx_stopped (s : State) (n : Nat) (g : Ctx → Ctx) : (s.modCtx n g).stopped = s.stopped := rfl
@[simp] theorem modCtx_rmo (s : State) (n : Nat) (g : Ctx → Ctx) : (s.modCtx n g).rmo = s.rmo := rfl
@[simp] theorem modCtx_plm (s : State) (n : Nat) (g : Ctx → Ctx) : (s.modCtx n g).plm = s.plm := rfl
@[simp] theorem modCtx_plmSent (s : State) (n : Nat) (g : Ctx → Ctx) : (s.modCtx n g).plmSent = s.plmSent := rfl
@[simp] theorem modCtx_eth (s : State) (n : Nat) (g : Ctx → Ctx) : (s.modCtx n g).eth = s.eth := rfl
@[simp] theorem modCtx_host (s : State) (n : Nat) (g : Ctx → Ctx) : (s.modCtx n g).host = s.host := rfl
@[simp] theorem modCtx_sec (s : State) (n : Nat) (g : Ctx → Ctx) : (s.modCtx n g).sec = s.sec := rfl
@[simp] theorem modCtx_devTable (s : State) (n : Nat) (g : Ctx → Ctx) : (s.modCtx n g).devTable = s.devTable := rfl
@[simp] theorem modCtx_parts (s : State) (n : Nat) (g : Ctx → Ctx) : (s.modCtx n g).parts = s.parts := rfl
@[simp] theorem modCtx_buddies (s : State) (n : Nat) (g : Ctx → Ctx) : (s.modCtx n g).buddies = s.buddies := rfl
@[simp] theorem modCtx_banks (s : State) (n : Nat) (g : Ctx → Ctx) : (s.modCtx n g).banks = s.banks := rfl
@[simp] theorem modCtx_log (s : State) (n : Nat) (g : Ctx → Ctx) : (s.modCtx n g).log = s.log := rfl
@[simp] theorem modCtx_ret (s : State) (n : Nat) (g : Ctx → Ctx) : (s.modCtx n g).ret = s.ret := rfl
@[simp] theorem modCtx_acc (s : State) (n : Nat) (g : Ctx → Ctx) : (s.modCtx n g).acc = s.acc := rfl
@[simp] theorem modCtx_pow (s : State) (n : Nat) (g : Ctx → Ctx) : (s.modCtx n g).pow = s.pow := rfl
@[simp] theorem modCtx_dbg (s : State) (n : Nat) (g : Ctx → Ctx) : (s.modCtx n g).dbg = s.dbg := rfl
@[simp] theorem modCtx_i3c (s : State) (n : Nat) (g : Ctx → Ctx) : (s.modCtx n g).i3c = s.i3c := rfl
@[simp] theorem modCtx_fw (s : State) (n : Nat) (g : Ctx → Ctx) : (s.modCtx n g).fw = s.fw := rfl
@[simp] theorem modCtx_crt (s : State) (n : Nat) (g : Ctx → Ctx) : (s.modCtx n g).crt = s.crt := rfl

@[simp] theorem modGroup_pending (s : State) (n : Nat) (g : Group → Group) : (s.modGroup n g).pending = s.pending := rfl
@[simp] theorem modGroup_regs (s : State) (n : Nat) (g : Group → Group) : (s.modGroup n g).regs = s.regs := rfl
@[simp] theorem modGroup_time (s : State) (n : Nat) (g : Group → Group) : (s.modGroup n g).time = s.time := rfl
@[simp] theorem modGroup_fresh (s : State) (n : Nat) (g : Group → Group) : (s.modGroup n g).fresh = s.fresh := rfl
@[simp] theorem modGroup_parked (s : State) (n : Nat) (g : Group → Group) : (s.modGroup n g).parked = s.parked := rfl
@[simp] theorem modGroup_contexts (s : State) (n : Nat) (g : Group → Group) : (s.modGroup n g).contexts = s.contexts := rfl
@[simp] theorem modGroup_claims (s : State) (n : Nat) (g : Group → Group) : (s.modGroup n g).claims = s.claims := rfl
@[simp] theorem modGroup_mem (s : State) (n : Nat) (g : Group → Group) : (s.modGroup n g).mem = s.mem := rfl
@[simp] theorem modGroup_cnd (s : State) (n : Nat) (g : Group → Group) : (s.modGroup n g).cnd = s.cnd := rfl
@[simp] theorem modGroup_gey (s : State) (n : Nat) (g : Group → Group) : (s.modGroup n g).gey = s.gey := rfl
@[simp] theorem modGroup_streams (s : State) (n : Nat) (g : Group → Group) : (s.modGroup n g).streams = s.streams := rfl
@[simp] theorem modGroup_seqs (s : State) (n : Nat) (g : Group → Group) : (s.modGroup n g).seqs = s.seqs := rfl
@[simp] theorem modGroup_raised (s : State) (n : Nat) (g : Group → Group) : (s.modGroup n g).raised = s.raised := rfl
@[simp] theorem modGroup_amax (s : State) (n : Nat) (g : Group → Group) : (s.modGroup n g).amax = s.amax := rfl
@[simp] theorem modGroup_amaxEmpty (s : State) (n : Nat) (g : Group → Group) : (s.modGroup n g).amaxEmpty = s.amaxEmpty := rfl
@[simp] theorem modGroup_stopped (s : State) (n : Nat) (g : Group → Group) : (s.modGroup n g).stopped = s.stopped := rfl
@[simp] theorem modGroup_rmo (s : State) (n : Nat) (g : Group → Group) : (s.modGroup n g).rmo = s.rmo := rfl
@[simp] theorem modGroup_plm (s : State) (n : Nat) (g : Group → Group) : (s.modGroup n g).plm = s.plm := rfl
@[simp] theorem modGroup_plmSent (s : State) (n : Nat) (g : Group → Group) : (s.modGroup n g).plmSent = s.plmSent := rfl
@[simp] theorem modGroup_eth (s : State) (n : Nat) (g : Group → Group) : (s.modGroup n g).eth = s.eth := rfl
@[simp] theorem modGroup_host (s : State) (n : Nat) (g : Group → Group) : (s.modGroup n g).host = s.host := rfl
@[simp] theorem modGroup_sec (s : State) (n : Nat) (g : Group → Group) : (s.modGroup n g).sec = s.sec := rfl
@[simp] theorem modGroup_devTable (s : State) (n : Nat) (g : Group → Group) : (s.modGroup n g).devTable = s.devTable := rfl
@[simp] theorem modGroup_parts (s : State) (n : Nat) (g : Group → Group) : (s.modGroup n g).parts = s.parts := rfl
@[simp] theorem modGroup_buddies (s : State) (n : Nat) (g : Group → Group) : (s.modGroup n g).buddies = s.buddies := rfl
@[simp] theorem modGroup_banks (s : State) (n : Nat) (g : Group → Group) : (s.modGroup n g).banks = s.banks := rfl
@[simp] theorem modGroup_log (s : State) (n : Nat) (g : Group → Group) : (s.modGroup n g).log = s.log := rfl
@[simp] theorem modGroup_ret (s : State) (n : Nat) (g : Group → Group) : (s.modGroup n g).ret = s.ret := rfl
@[simp] theorem modGroup_acc (s : State) (n : Nat) (g : Group → Group) : (s.modGroup n g).acc = s.acc := rfl
@[simp] theorem modGroup_pow (s : State) (n : Nat) (g : Group → Group) : (s.modGroup n g).pow = s.pow := rfl
@[simp] theorem modGroup_dbg (s : State) (n : Nat) (g : Group → Group) : (s.modGroup n g).dbg = s.dbg := rfl
@[simp] theorem modGroup_i3c (s : State) (n : Nat) (g : Group → Group) : (s.modGroup n g).i3c = s.i3c := rfl
@[simp] theorem modGroup_fw (s : State) (n : Nat) (g : Group → Group) : (s.modGroup n g).fw = s.fw := rfl
@[simp] theorem modGroup_crt (s : State) (n : Nat) (g : Group → Group) : (s.modGroup n g).crt = s.crt := rfl

@[simp] theorem openGroup_pending (s : State) (n : Nat) : (s.openGroup n).pending = s.pending := rfl
@[simp] theorem openGroup_regs (s : State) (n : Nat) : (s.openGroup n).regs = s.regs := rfl
@[simp] theorem openGroup_time (s : State) (n : Nat) : (s.openGroup n).time = s.time := rfl
@[simp] theorem openGroup_fresh (s : State) (n : Nat) : (s.openGroup n).fresh = s.fresh := rfl
@[simp] theorem openGroup_parked (s : State) (n : Nat) : (s.openGroup n).parked = s.parked := rfl
@[simp] theorem openGroup_contexts (s : State) (n : Nat) : (s.openGroup n).contexts = s.contexts := rfl
@[simp] theorem openGroup_claims (s : State) (n : Nat) : (s.openGroup n).claims = s.claims := rfl
@[simp] theorem openGroup_mem (s : State) (n : Nat) : (s.openGroup n).mem = s.mem := rfl
@[simp] theorem openGroup_cnd (s : State) (n : Nat) : (s.openGroup n).cnd = s.cnd := rfl
@[simp] theorem openGroup_gey (s : State) (n : Nat) : (s.openGroup n).gey = s.gey := rfl
@[simp] theorem openGroup_streams (s : State) (n : Nat) : (s.openGroup n).streams = s.streams := rfl
@[simp] theorem openGroup_seqs (s : State) (n : Nat) : (s.openGroup n).seqs = s.seqs := rfl
@[simp] theorem openGroup_raised (s : State) (n : Nat) : (s.openGroup n).raised = s.raised := rfl
@[simp] theorem openGroup_amax (s : State) (n : Nat) : (s.openGroup n).amax = s.amax := rfl
@[simp] theorem openGroup_amaxEmpty (s : State) (n : Nat) : (s.openGroup n).amaxEmpty = s.amaxEmpty := rfl
@[simp] theorem openGroup_stopped (s : State) (n : Nat) : (s.openGroup n).stopped = s.stopped := rfl
@[simp] theorem openGroup_rmo (s : State) (n : Nat) : (s.openGroup n).rmo = s.rmo := rfl
@[simp] theorem openGroup_plm (s : State) (n : Nat) : (s.openGroup n).plm = s.plm := rfl
@[simp] theorem openGroup_plmSent (s : State) (n : Nat) : (s.openGroup n).plmSent = s.plmSent := rfl
@[simp] theorem openGroup_eth (s : State) (n : Nat) : (s.openGroup n).eth = s.eth := rfl
@[simp] theorem openGroup_host (s : State) (n : Nat) : (s.openGroup n).host = s.host := rfl
@[simp] theorem openGroup_sec (s : State) (n : Nat) : (s.openGroup n).sec = s.sec := rfl
@[simp] theorem openGroup_devTable (s : State) (n : Nat) : (s.openGroup n).devTable = s.devTable := rfl
@[simp] theorem openGroup_parts (s : State) (n : Nat) : (s.openGroup n).parts = s.parts := rfl
@[simp] theorem openGroup_buddies (s : State) (n : Nat) : (s.openGroup n).buddies = s.buddies := rfl
@[simp] theorem openGroup_banks (s : State) (n : Nat) : (s.openGroup n).banks = s.banks := rfl
@[simp] theorem openGroup_log (s : State) (n : Nat) : (s.openGroup n).log = s.log := rfl
@[simp] theorem openGroup_ret (s : State) (n : Nat) : (s.openGroup n).ret = s.ret := rfl
@[simp] theorem openGroup_acc (s : State) (n : Nat) : (s.openGroup n).acc = s.acc := rfl
@[simp] theorem openGroup_pow (s : State) (n : Nat) : (s.openGroup n).pow = s.pow := rfl
@[simp] theorem openGroup_dbg (s : State) (n : Nat) : (s.openGroup n).dbg = s.dbg := rfl
@[simp] theorem openGroup_i3c (s : State) (n : Nat) : (s.openGroup n).i3c = s.i3c := rfl
@[simp] theorem openGroup_fw (s : State) (n : Nat) : (s.openGroup n).fw = s.fw := rfl
@[simp] theorem openGroup_crt (s : State) (n : Nat) : (s.openGroup n).crt = s.crt := rfl

@[simp] theorem hbmWritePhys_pending (s : State) (pa : Nat) (l : List Byte) : (s.hbmWritePhys pa l).pending = s.pending := rfl
@[simp] theorem hbmWritePhys_regs (s : State) (pa : Nat) (l : List Byte) : (s.hbmWritePhys pa l).regs = s.regs := rfl
@[simp] theorem hbmWritePhys_time (s : State) (pa : Nat) (l : List Byte) : (s.hbmWritePhys pa l).time = s.time := rfl
@[simp] theorem hbmWritePhys_fresh (s : State) (pa : Nat) (l : List Byte) : (s.hbmWritePhys pa l).fresh = s.fresh := rfl
@[simp] theorem hbmWritePhys_arrays (s : State) (pa : Nat) (l : List Byte) : (s.hbmWritePhys pa l).arrays = s.arrays := rfl
@[simp] theorem hbmWritePhys_parked (s : State) (pa : Nat) (l : List Byte) : (s.hbmWritePhys pa l).parked = s.parked := rfl
@[simp] theorem hbmWritePhys_contexts (s : State) (pa : Nat) (l : List Byte) : (s.hbmWritePhys pa l).contexts = s.contexts := rfl
@[simp] theorem hbmWritePhys_claims (s : State) (pa : Nat) (l : List Byte) : (s.hbmWritePhys pa l).claims = s.claims := rfl
@[simp] theorem hbmWritePhys_cnd (s : State) (pa : Nat) (l : List Byte) : (s.hbmWritePhys pa l).cnd = s.cnd := rfl
@[simp] theorem hbmWritePhys_gey (s : State) (pa : Nat) (l : List Byte) : (s.hbmWritePhys pa l).gey = s.gey := rfl
@[simp] theorem hbmWritePhys_streams (s : State) (pa : Nat) (l : List Byte) : (s.hbmWritePhys pa l).streams = s.streams := rfl
@[simp] theorem hbmWritePhys_seqs (s : State) (pa : Nat) (l : List Byte) : (s.hbmWritePhys pa l).seqs = s.seqs := rfl
@[simp] theorem hbmWritePhys_raised (s : State) (pa : Nat) (l : List Byte) : (s.hbmWritePhys pa l).raised = s.raised := rfl
@[simp] theorem hbmWritePhys_amax (s : State) (pa : Nat) (l : List Byte) : (s.hbmWritePhys pa l).amax = s.amax := rfl
@[simp] theorem hbmWritePhys_amaxEmpty (s : State) (pa : Nat) (l : List Byte) : (s.hbmWritePhys pa l).amaxEmpty = s.amaxEmpty := rfl
@[simp] theorem hbmWritePhys_stopped (s : State) (pa : Nat) (l : List Byte) : (s.hbmWritePhys pa l).stopped = s.stopped := rfl
@[simp] theorem hbmWritePhys_rmo (s : State) (pa : Nat) (l : List Byte) : (s.hbmWritePhys pa l).rmo = s.rmo := rfl
@[simp] theorem hbmWritePhys_plm (s : State) (pa : Nat) (l : List Byte) : (s.hbmWritePhys pa l).plm = s.plm := rfl
@[simp] theorem hbmWritePhys_plmSent (s : State) (pa : Nat) (l : List Byte) : (s.hbmWritePhys pa l).plmSent = s.plmSent := rfl
@[simp] theorem hbmWritePhys_eth (s : State) (pa : Nat) (l : List Byte) : (s.hbmWritePhys pa l).eth = s.eth := rfl
@[simp] theorem hbmWritePhys_host (s : State) (pa : Nat) (l : List Byte) : (s.hbmWritePhys pa l).host = s.host := rfl
@[simp] theorem hbmWritePhys_sec (s : State) (pa : Nat) (l : List Byte) : (s.hbmWritePhys pa l).sec = s.sec := rfl
@[simp] theorem hbmWritePhys_devTable (s : State) (pa : Nat) (l : List Byte) : (s.hbmWritePhys pa l).devTable = s.devTable := rfl
@[simp] theorem hbmWritePhys_parts (s : State) (pa : Nat) (l : List Byte) : (s.hbmWritePhys pa l).parts = s.parts := rfl
@[simp] theorem hbmWritePhys_buddies (s : State) (pa : Nat) (l : List Byte) : (s.hbmWritePhys pa l).buddies = s.buddies := rfl
@[simp] theorem hbmWritePhys_banks (s : State) (pa : Nat) (l : List Byte) : (s.hbmWritePhys pa l).banks = s.banks := rfl
@[simp] theorem hbmWritePhys_log (s : State) (pa : Nat) (l : List Byte) : (s.hbmWritePhys pa l).log = s.log := rfl
@[simp] theorem hbmWritePhys_ret (s : State) (pa : Nat) (l : List Byte) : (s.hbmWritePhys pa l).ret = s.ret := rfl
@[simp] theorem hbmWritePhys_acc (s : State) (pa : Nat) (l : List Byte) : (s.hbmWritePhys pa l).acc = s.acc := rfl
@[simp] theorem hbmWritePhys_pow (s : State) (pa : Nat) (l : List Byte) : (s.hbmWritePhys pa l).pow = s.pow := rfl
@[simp] theorem hbmWritePhys_dbg (s : State) (pa : Nat) (l : List Byte) : (s.hbmWritePhys pa l).dbg = s.dbg := rfl
@[simp] theorem hbmWritePhys_i3c (s : State) (pa : Nat) (l : List Byte) : (s.hbmWritePhys pa l).i3c = s.i3c := rfl
@[simp] theorem hbmWritePhys_fw (s : State) (pa : Nat) (l : List Byte) : (s.hbmWritePhys pa l).fw = s.fw := rfl
@[simp] theorem hbmWritePhys_crt (s : State) (pa : Nat) (l : List Byte) : (s.hbmWritePhys pa l).crt = s.crt := rfl

@[simp] theorem ocWrite_pending (s : State) (n off : Nat) (l : List Byte) : (s.ocWrite n off l).pending = s.pending := rfl
@[simp] theorem ocWrite_regs (s : State) (n off : Nat) (l : List Byte) : (s.ocWrite n off l).regs = s.regs := rfl
@[simp] theorem ocWrite_time (s : State) (n off : Nat) (l : List Byte) : (s.ocWrite n off l).time = s.time := rfl
@[simp] theorem ocWrite_fresh (s : State) (n off : Nat) (l : List Byte) : (s.ocWrite n off l).fresh = s.fresh := rfl
@[simp] theorem ocWrite_arrays (s : State) (n off : Nat) (l : List Byte) : (s.ocWrite n off l).arrays = s.arrays := rfl
@[simp] theorem ocWrite_parked (s : State) (n off : Nat) (l : List Byte) : (s.ocWrite n off l).parked = s.parked := rfl
@[simp] theorem ocWrite_contexts (s : State) (n off : Nat) (l : List Byte) : (s.ocWrite n off l).contexts = s.contexts := rfl
@[simp] theorem ocWrite_claims (s : State) (n off : Nat) (l : List Byte) : (s.ocWrite n off l).claims = s.claims := rfl
@[simp] theorem ocWrite_cnd (s : State) (n off : Nat) (l : List Byte) : (s.ocWrite n off l).cnd = s.cnd := rfl
@[simp] theorem ocWrite_gey (s : State) (n off : Nat) (l : List Byte) : (s.ocWrite n off l).gey = s.gey := rfl
@[simp] theorem ocWrite_streams (s : State) (n off : Nat) (l : List Byte) : (s.ocWrite n off l).streams = s.streams := rfl
@[simp] theorem ocWrite_seqs (s : State) (n off : Nat) (l : List Byte) : (s.ocWrite n off l).seqs = s.seqs := rfl
@[simp] theorem ocWrite_raised (s : State) (n off : Nat) (l : List Byte) : (s.ocWrite n off l).raised = s.raised := rfl
@[simp] theorem ocWrite_amax (s : State) (n off : Nat) (l : List Byte) : (s.ocWrite n off l).amax = s.amax := rfl
@[simp] theorem ocWrite_amaxEmpty (s : State) (n off : Nat) (l : List Byte) : (s.ocWrite n off l).amaxEmpty = s.amaxEmpty := rfl
@[simp] theorem ocWrite_stopped (s : State) (n off : Nat) (l : List Byte) : (s.ocWrite n off l).stopped = s.stopped := rfl
@[simp] theorem ocWrite_rmo (s : State) (n off : Nat) (l : List Byte) : (s.ocWrite n off l).rmo = s.rmo := rfl
@[simp] theorem ocWrite_plm (s : State) (n off : Nat) (l : List Byte) : (s.ocWrite n off l).plm = s.plm := rfl
@[simp] theorem ocWrite_plmSent (s : State) (n off : Nat) (l : List Byte) : (s.ocWrite n off l).plmSent = s.plmSent := rfl
@[simp] theorem ocWrite_eth (s : State) (n off : Nat) (l : List Byte) : (s.ocWrite n off l).eth = s.eth := rfl
@[simp] theorem ocWrite_host (s : State) (n off : Nat) (l : List Byte) : (s.ocWrite n off l).host = s.host := rfl
@[simp] theorem ocWrite_sec (s : State) (n off : Nat) (l : List Byte) : (s.ocWrite n off l).sec = s.sec := rfl
@[simp] theorem ocWrite_devTable (s : State) (n off : Nat) (l : List Byte) : (s.ocWrite n off l).devTable = s.devTable := rfl
@[simp] theorem ocWrite_parts (s : State) (n off : Nat) (l : List Byte) : (s.ocWrite n off l).parts = s.parts := rfl
@[simp] theorem ocWrite_buddies (s : State) (n off : Nat) (l : List Byte) : (s.ocWrite n off l).buddies = s.buddies := rfl
@[simp] theorem ocWrite_banks (s : State) (n off : Nat) (l : List Byte) : (s.ocWrite n off l).banks = s.banks := rfl
@[simp] theorem ocWrite_log (s : State) (n off : Nat) (l : List Byte) : (s.ocWrite n off l).log = s.log := rfl
@[simp] theorem ocWrite_ret (s : State) (n off : Nat) (l : List Byte) : (s.ocWrite n off l).ret = s.ret := rfl
@[simp] theorem ocWrite_acc (s : State) (n off : Nat) (l : List Byte) : (s.ocWrite n off l).acc = s.acc := rfl
@[simp] theorem ocWrite_pow (s : State) (n off : Nat) (l : List Byte) : (s.ocWrite n off l).pow = s.pow := rfl
@[simp] theorem ocWrite_dbg (s : State) (n off : Nat) (l : List Byte) : (s.ocWrite n off l).dbg = s.dbg := rfl
@[simp] theorem ocWrite_i3c (s : State) (n off : Nat) (l : List Byte) : (s.ocWrite n off l).i3c = s.i3c := rfl
@[simp] theorem ocWrite_fw (s : State) (n off : Nat) (l : List Byte) : (s.ocWrite n off l).fw = s.fw := rfl
@[simp] theorem ocWrite_crt (s : State) (n off : Nat) (l : List Byte) : (s.ocWrite n off l).crt = s.crt := rfl

@[simp] theorem logRecord_pending (s : State) (k p src : Nat) (b : List Byte) : (s.logRecord k p src b).pending = s.pending := rfl
@[simp] theorem logRecord_regs (s : State) (k p src : Nat) (b : List Byte) : (s.logRecord k p src b).regs = s.regs := rfl
@[simp] theorem logRecord_time (s : State) (k p src : Nat) (b : List Byte) : (s.logRecord k p src b).time = s.time := rfl
@[simp] theorem logRecord_fresh (s : State) (k p src : Nat) (b : List Byte) : (s.logRecord k p src b).fresh = s.fresh := rfl
@[simp] theorem logRecord_arrays (s : State) (k p src : Nat) (b : List Byte) : (s.logRecord k p src b).arrays = s.arrays := rfl
@[simp] theorem logRecord_parked (s : State) (k p src : Nat) (b : List Byte) : (s.logRecord k p src b).parked = s.parked := rfl
@[simp] theorem logRecord_contexts (s : State) (k p src : Nat) (b : List Byte) : (s.logRecord k p src b).contexts = s.contexts := rfl
@[simp] theorem logRecord_claims (s : State) (k p src : Nat) (b : List Byte) : (s.logRecord k p src b).claims = s.claims := rfl
@[simp] theorem logRecord_mem (s : State) (k p src : Nat) (b : List Byte) : (s.logRecord k p src b).mem = s.mem := rfl
@[simp] theorem logRecord_cnd (s : State) (k p src : Nat) (b : List Byte) : (s.logRecord k p src b).cnd = s.cnd := rfl
@[simp] theorem logRecord_gey (s : State) (k p src : Nat) (b : List Byte) : (s.logRecord k p src b).gey = s.gey := rfl
@[simp] theorem logRecord_streams (s : State) (k p src : Nat) (b : List Byte) : (s.logRecord k p src b).streams = s.streams := rfl
@[simp] theorem logRecord_seqs (s : State) (k p src : Nat) (b : List Byte) : (s.logRecord k p src b).seqs = s.seqs := rfl
@[simp] theorem logRecord_raised (s : State) (k p src : Nat) (b : List Byte) : (s.logRecord k p src b).raised = s.raised := rfl
@[simp] theorem logRecord_amax (s : State) (k p src : Nat) (b : List Byte) : (s.logRecord k p src b).amax = s.amax := rfl
@[simp] theorem logRecord_amaxEmpty (s : State) (k p src : Nat) (b : List Byte) : (s.logRecord k p src b).amaxEmpty = s.amaxEmpty := rfl
@[simp] theorem logRecord_stopped (s : State) (k p src : Nat) (b : List Byte) : (s.logRecord k p src b).stopped = s.stopped := rfl
@[simp] theorem logRecord_rmo (s : State) (k p src : Nat) (b : List Byte) : (s.logRecord k p src b).rmo = s.rmo := rfl
@[simp] theorem logRecord_plm (s : State) (k p src : Nat) (b : List Byte) : (s.logRecord k p src b).plm = s.plm := rfl
@[simp] theorem logRecord_plmSent (s : State) (k p src : Nat) (b : List Byte) : (s.logRecord k p src b).plmSent = s.plmSent := rfl
@[simp] theorem logRecord_eth (s : State) (k p src : Nat) (b : List Byte) : (s.logRecord k p src b).eth = s.eth := rfl
@[simp] theorem logRecord_host (s : State) (k p src : Nat) (b : List Byte) : (s.logRecord k p src b).host = s.host := rfl
@[simp] theorem logRecord_sec (s : State) (k p src : Nat) (b : List Byte) : (s.logRecord k p src b).sec = s.sec := rfl
@[simp] theorem logRecord_devTable (s : State) (k p src : Nat) (b : List Byte) : (s.logRecord k p src b).devTable = s.devTable := rfl
@[simp] theorem logRecord_parts (s : State) (k p src : Nat) (b : List Byte) : (s.logRecord k p src b).parts = s.parts := rfl
@[simp] theorem logRecord_buddies (s : State) (k p src : Nat) (b : List Byte) : (s.logRecord k p src b).buddies = s.buddies := rfl
@[simp] theorem logRecord_banks (s : State) (k p src : Nat) (b : List Byte) : (s.logRecord k p src b).banks = s.banks := rfl
@[simp] theorem logRecord_ret (s : State) (k p src : Nat) (b : List Byte) : (s.logRecord k p src b).ret = s.ret := rfl
@[simp] theorem logRecord_acc (s : State) (k p src : Nat) (b : List Byte) : (s.logRecord k p src b).acc = s.acc := rfl
@[simp] theorem logRecord_pow (s : State) (k p src : Nat) (b : List Byte) : (s.logRecord k p src b).pow = s.pow := rfl
@[simp] theorem logRecord_dbg (s : State) (k p src : Nat) (b : List Byte) : (s.logRecord k p src b).dbg = s.dbg := rfl
@[simp] theorem logRecord_i3c (s : State) (k p src : Nat) (b : List Byte) : (s.logRecord k p src b).i3c = s.i3c := rfl
@[simp] theorem logRecord_fw (s : State) (k p src : Nat) (b : List Byte) : (s.logRecord k p src b).fw = s.fw := rfl
@[simp] theorem logRecord_crt (s : State) (k p src : Nat) (b : List Byte) : (s.logRecord k p src b).crt = s.crt := rfl

@[simp] theorem geyRelease_pending (s : State) (d g : Nat) (x : Word64) : (s.geyRelease d g x).pending = s.pending := rfl
@[simp] theorem geyRelease_regs (s : State) (d g : Nat) (x : Word64) : (s.geyRelease d g x).regs = s.regs := rfl
@[simp] theorem geyRelease_time (s : State) (d g : Nat) (x : Word64) : (s.geyRelease d g x).time = s.time := rfl
@[simp] theorem geyRelease_fresh (s : State) (d g : Nat) (x : Word64) : (s.geyRelease d g x).fresh = s.fresh := rfl
@[simp] theorem geyRelease_arrays (s : State) (d g : Nat) (x : Word64) : (s.geyRelease d g x).arrays = s.arrays := rfl
@[simp] theorem geyRelease_parked (s : State) (d g : Nat) (x : Word64) : (s.geyRelease d g x).parked = s.parked := rfl
@[simp] theorem geyRelease_contexts (s : State) (d g : Nat) (x : Word64) : (s.geyRelease d g x).contexts = s.contexts := rfl
@[simp] theorem geyRelease_claims (s : State) (d g : Nat) (x : Word64) : (s.geyRelease d g x).claims = s.claims := rfl
@[simp] theorem geyRelease_mem (s : State) (d g : Nat) (x : Word64) : (s.geyRelease d g x).mem = s.mem := rfl
@[simp] theorem geyRelease_cnd (s : State) (d g : Nat) (x : Word64) : (s.geyRelease d g x).cnd = s.cnd := rfl
@[simp] theorem geyRelease_streams (s : State) (d g : Nat) (x : Word64) : (s.geyRelease d g x).streams = s.streams := rfl
@[simp] theorem geyRelease_seqs (s : State) (d g : Nat) (x : Word64) : (s.geyRelease d g x).seqs = s.seqs := rfl
@[simp] theorem geyRelease_raised (s : State) (d g : Nat) (x : Word64) : (s.geyRelease d g x).raised = s.raised := rfl
@[simp] theorem geyRelease_amax (s : State) (d g : Nat) (x : Word64) : (s.geyRelease d g x).amax = s.amax := rfl
@[simp] theorem geyRelease_amaxEmpty (s : State) (d g : Nat) (x : Word64) : (s.geyRelease d g x).amaxEmpty = s.amaxEmpty := rfl
@[simp] theorem geyRelease_stopped (s : State) (d g : Nat) (x : Word64) : (s.geyRelease d g x).stopped = s.stopped := rfl
@[simp] theorem geyRelease_rmo (s : State) (d g : Nat) (x : Word64) : (s.geyRelease d g x).rmo = s.rmo := rfl
@[simp] theorem geyRelease_plm (s : State) (d g : Nat) (x : Word64) : (s.geyRelease d g x).plm = s.plm := rfl
@[simp] theorem geyRelease_plmSent (s : State) (d g : Nat) (x : Word64) : (s.geyRelease d g x).plmSent = s.plmSent := rfl
@[simp] theorem geyRelease_eth (s : State) (d g : Nat) (x : Word64) : (s.geyRelease d g x).eth = s.eth := rfl
@[simp] theorem geyRelease_host (s : State) (d g : Nat) (x : Word64) : (s.geyRelease d g x).host = s.host := rfl
@[simp] theorem geyRelease_sec (s : State) (d g : Nat) (x : Word64) : (s.geyRelease d g x).sec = s.sec := rfl
@[simp] theorem geyRelease_devTable (s : State) (d g : Nat) (x : Word64) : (s.geyRelease d g x).devTable = s.devTable := rfl
@[simp] theorem geyRelease_parts (s : State) (d g : Nat) (x : Word64) : (s.geyRelease d g x).parts = s.parts := rfl
@[simp] theorem geyRelease_buddies (s : State) (d g : Nat) (x : Word64) : (s.geyRelease d g x).buddies = s.buddies := rfl
@[simp] theorem geyRelease_banks (s : State) (d g : Nat) (x : Word64) : (s.geyRelease d g x).banks = s.banks := rfl
@[simp] theorem geyRelease_log (s : State) (d g : Nat) (x : Word64) : (s.geyRelease d g x).log = s.log := rfl
@[simp] theorem geyRelease_ret (s : State) (d g : Nat) (x : Word64) : (s.geyRelease d g x).ret = s.ret := rfl
@[simp] theorem geyRelease_acc (s : State) (d g : Nat) (x : Word64) : (s.geyRelease d g x).acc = s.acc := rfl
@[simp] theorem geyRelease_pow (s : State) (d g : Nat) (x : Word64) : (s.geyRelease d g x).pow = s.pow := rfl
@[simp] theorem geyRelease_dbg (s : State) (d g : Nat) (x : Word64) : (s.geyRelease d g x).dbg = s.dbg := rfl
@[simp] theorem geyRelease_i3c (s : State) (d g : Nat) (x : Word64) : (s.geyRelease d g x).i3c = s.i3c := rfl
@[simp] theorem geyRelease_fw (s : State) (d g : Nat) (x : Word64) : (s.geyRelease d g x).fw = s.fw := rfl
@[simp] theorem geyRelease_crt (s : State) (d g : Nat) (x : Word64) : (s.geyRelease d g x).crt = s.crt := rfl

end Sys2Proof.Machine
end

