-- ==== Sys2Proof/Laws/Registers.lean ====
section
/-! SUPPORT. Reading registers, fields and arrays after writing them. -/
namespace Sys2Proof.Machine

@[simp] theorem reg_setReg_same (s : State) (r : Nat) (v : Word64) : (s.setReg r v).reg r = v :=
  sparse_get_set_same resetReg s.regs r v
theorem reg_setReg_other (s : State) (r q : Nat) (v : Word64) (h : q ≠ r) : (s.setReg r v).reg q = s.reg q :=
  sparse_get_set_other resetReg s.regs r q v h
theorem reg_setF_other (s : State) (f : FieldRef) (x q : Nat) (h : q ≠ f.reg) : (s.setF f x).reg q = s.reg q :=
  reg_setReg_other s f.reg q _ h
theorem reg_incF_other (s : State) (f : FieldRef) (x q : Nat) (h : q ≠ f.reg) : (s.incF f x).reg q = s.reg q :=
  reg_setF_other s f _ q h
theorem reg_incSat_other (s : State) (f : FieldRef) (x q : Nat) (h : q ≠ f.reg) : (s.incSat f x).reg q = s.reg q :=
  reg_setF_other s f _ q h
theorem getF_of_reg (s t : State) (f : FieldRef) (h : t.reg f.reg = s.reg f.reg) : t.getF f = s.getF f := by
  simp only [State.getF, h]

/-- A field that a write of it does not cut reads as what was written. -/
theorem fieldOf_putField (v : Word64) (lo w x : Nat) (h : lo + w ≤ 64) : fieldOf (putField v lo w x) lo w = x % 2 ^ w := by
  have h1 : (x % 2 ^ w) * 2 ^ lo < 2 ^ 64 :=
    calc (x % 2 ^ w) * 2 ^ lo < 2 ^ w * 2 ^ lo :=
          Nat.mul_lt_mul_of_pos_right (Nat.mod_lt _ (Nat.two_pow_pos w)) (Nat.two_pow_pos lo)
      _ = 2 ^ (lo + w) := by rw [← Nat.pow_add, Nat.add_comm]
      _ ≤ 2 ^ 64 := Nat.pow_le_pow_right (by decide) h
  apply Nat.eq_of_testBit_eq
  intro i
  simp only [fieldOf, bits, putField, Nat.testBit_mod_two_pow, Nat.testBit_shiftRight, BitVec.testBit_toNat,
    BitVec.getLsbD_or, BitVec.getLsbD_and, BitVec.getLsbD_not, BitVec.getLsbD_ofNat, Nat.testBit_mul_two_pow,
    Nat.testBit_two_pow_sub_one]
  by_cases hi : i < w
  · have a1 : lo + i < 64 := by omega
    have a2 : lo ≤ lo + i := by omega
    have a3 : lo + i - lo = i := by omega
    simp [hi, a1, a3]
  · simp [hi]

theorem getF_setF_same (s : State) (f : FieldRef) (x : Nat) (h : f.lo + f.width ≤ 64) :
    (s.setF f x).getF f = x % 2 ^ f.width := by
  simp only [State.getF, State.setF, reg_setReg_same]
  exact fieldOf_putField _ _ _ _ h

@[simp] theorem arr_setArr_same (s : State) (n : Nat) (a : Arr) : (s.setArr n a).arr n = a :=
  sparse_get_set_same arrDefault s.arrays n a
theorem arr_setArr_other (s : State) (n m : Nat) (a : Arr) (h : m ≠ n) : (s.setArr n a).arr m = s.arr m :=
  sparse_get_set_other arrDefault s.arrays n m a h
@[simp] theorem arr_modArr_same (s : State) (n : Nat) (g : Arr → Arr) : (s.modArr n g).arr n = g (s.arr n) :=
  arr_setArr_same s n _
theorem arr_modArr_other (s : State) (n m : Nat) (g : Arr → Arr) (h : m ≠ n) : (s.modArr n g).arr m = s.arr m :=
  arr_setArr_other s n m _ h
@[simp] theorem arr_setReg (s : State) (r n : Nat) (v : Word64) : (s.setReg r v).arr n = s.arr n := rfl
@[simp] theorem arr_setF (s : State) (f : FieldRef) (x n : Nat) : (s.setF f x).arr n = s.arr n := rfl
@[simp] theorem arr_incF (s : State) (f : FieldRef) (x n : Nat) : (s.incF f x).arr n = s.arr n := rfl
@[simp] theorem reg_setArr (s : State) (n r : Nat) (a : Arr) : (s.setArr n a).reg r = s.reg r := rfl
@[simp] theorem reg_modArr (s : State) (n r : Nat) (g : Arr → Arr) : (s.modArr n g).reg r = s.reg r := rfl
@[simp] theorem reg_modCtx (s : State) (n r : Nat) (g : Ctx → Ctx) : (s.modCtx n g).reg r = s.reg r := rfl
@[simp] theorem reg_modGroup (s : State) (n r : Nat) (g : Group → Group) : (s.modGroup n g).reg r = s.reg r := rfl
@[simp] theorem reg_openGroup (s : State) (n r : Nat) : (s.openGroup n).reg r = s.reg r := rfl

/-! ## The canonical form of the register store and of the memories -/

theorem setReg_regs_wf (s : State) (r : Nat) (v : Word64) (h : Sparse.wf resetReg s.regs = true) :
    Sparse.wf resetReg (s.setReg r v).regs = true := sparse_set_wf resetReg s.regs r v h
theorem setF_regs_wf (s : State) (f : FieldRef) (x : Nat) (h : Sparse.wf resetReg s.regs = true) :
    Sparse.wf resetReg (s.setF f x).regs = true := setReg_regs_wf s _ _ h
theorem resetRegs_regs_wf (s : State) (lo hi : Nat) (h : Sparse.wf resetReg s.regs = true) :
    Sparse.wf resetReg (s.resetRegs lo hi).regs = true := sparse_clear_wf resetReg s.regs lo hi h
theorem hbmWritePhys_wf (s : State) (pa : Nat) (l : List Byte) (h : Memory.wf s.mem.hbm = true) :
    Memory.wf (s.hbmWritePhys pa l).mem.hbm = true := writeBytes_wf s.mem.hbm pa l h
theorem hbmWriteSeg_wf (s : State) (p a : Nat) (l : List Byte) (h : Memory.wf s.mem.hbm = true) :
    Memory.wf (s.hbmWriteSeg p a l).mem.hbm = true := by
  unfold State.hbmWriteSeg
  split
  · exact hbmWritePhys_wf s _ _ h
  · exact h
theorem hbmWrite_wf (s : State) (p a : Nat) (l : List Byte) (h : Memory.wf s.mem.hbm = true) :
    Memory.wf (s.hbmWrite p a l).mem.hbm = true := by
  unfold State.hbmWrite
  split
  · exact hbmWriteSeg_wf s p a l h
  · generalize segParts a l.length = ps
    induction ps generalizing s with
    | nil => exact h
    | cons e t ih => exact ih _ (hbmWriteSeg_wf s p _ _ h)
theorem ocWrite_wf (s : State) (n off : Nat) (l : List Byte) (h : Memory.wf s.mem.oc = true) :
    Memory.wf (s.ocWrite n off l).mem.oc = true := writeBytes_wf s.mem.oc _ l h

end Sys2Proof.Machine
end

