-- ==== Sys2Proof/Laws/Issue.lean ====
section
/-! SUPPORT. What an array does with an instruction that issues: everything `issue` can answer once the checks pass. -/
namespace Sys2Proof.Machine

/-- Opening a group changes nothing that the checks of an instruction read. -/
theorem arr_openGroup_other (s : State) (n m : Nat) (h : m ≠ n) : (s.openGroup n).arr m = s.arr m :=
  arr_modArr_other s n m _ h
theorem openGroup_pc (s : State) (n : Nat) : ((s.openGroup n).arr n).pc = (s.arr n).pc := by
  simp only [State.openGroup, arr_modArr_same]; cases (s.arr n).cur <;> rfl
theorem openGroup_ctx (s : State) (n : Nat) : ((s.openGroup n).arr n).ctx = (s.arr n).ctx := by
  simp only [State.openGroup, arr_modArr_same]; cases (s.arr n).cur <;> rfl
theorem openGroup_ident (s : State) (n : Nat) : (s.openGroup n).ident n = s.ident n := by
  simp only [State.ident, State.openGroup, arr_modArr_same]; cases (s.arr n).cur <;> rfl
theorem openGroup_done (s : State) (n : Nat) : ((s.openGroup n).arr n).done = (s.arr n).done := by
  simp only [State.openGroup, arr_modArr_same]; cases (s.arr n).cur <;> rfl
/-- The group that an instruction issues into: the open one, or a new one that starts here. -/
theorem openGroup_cur (s : State) (n : Nat) :
    ∃ g, ((s.openGroup n).arr n).cur = some g ∧ ((s.arr n).cur = some g ∨ (s.arr n).cur = none ∧ g.count = 0 ∧ g.wait = none) := by
  simp only [State.openGroup, arr_modArr_same]
  cases h : (s.arr n).cur with
  | some g => exact ⟨g, h, .inl rfl⟩
  | none => exact ⟨_, rfl, .inr ⟨rfl, rfl, rfl⟩⟩

/-- Fetching changes nothing but the instruction cache of the array. -/
theorem arr_fetched_other (s : State) (n m : Nat) (h : m ≠ n) : (s.fetched n).arr m = s.arr m := by
  simp only [State.fetched]; split
  · rfl
  · exact arr_modArr_other s n m _ h
theorem fetched_arr (s : State) (n : Nat) : ∃ l, (s.fetched n).arr n = { s.arr n with icache := l } := by
  simp only [State.fetched]; split
  · exact ⟨_, rfl⟩
  · exact ⟨_, arr_modArr_same s n _⟩
theorem fetched_rest (s : State) (n : Nat) : s.fetched n = { s with arrays := (s.fetched n).arrays } := by
  simp only [State.fetched]; split <;> rfl
theorem fetched_reg (s : State) (n r : Nat) : (s.fetched n).reg r = s.reg r := by
  rw [fetched_rest]; rfl

/-- Bits of a concatenation that lie in its high part. -/
theorem extract_append_high {v w : Nat} (x : BitVec v) (y : BitVec w) (st len : Nat) (h : w ≤ st) :
    (x ++ y).extractLsb' st len = x.extractLsb' (st - w) len := by
  apply BitVec.eq_of_getLsbD_eq
  intro i hi
  simp only [BitVec.getLsbD_extractLsb', BitVec.getLsbD_append, hi, decide_true, Bool.true_and]
  rw [if_neg (by omega)]
  congr 1; omega
theorem extract_append_low {v w : Nat} (x : BitVec v) (y : BitVec w) : (x ++ y).extractLsb' 0 w = y := by
  apply BitVec.eq_of_getLsbD_eq
  intro i hi
  simp [BitVec.getLsbD_append, hi]
/-- The word of an instruction names an operation exactly where its CLASS has its OP. -/
theorem wordKnown_word (cls op : Nat) (f : Fields) (hc : cls < 64) (ho : op < 64) :
    wordKnown (f.word cls op) = decide (op < opCount cls) := by
  have h1 : wordClass (f.word cls op) = cls := by
    simp only [wordClass, Fields.word]
    repeat rw [extract_append_high _ _ _ _ (by omega)]
    simp; omega
  have h2 : wordOp (f.word cls op) = op := by
    simp only [wordOp, Fields.word]
    repeat rw [extract_append_high _ _ _ _ (by omega)]
    rw [extract_append_low]; simp; omega
  rw [wordKnown, h1, h2]

/-- An instruction whose checks pass and whose meaning answers a state issues. -/
theorem issue_done (s s1 : State) (n : Nat) (sp : OpSpec) (f : Fields) (extra : Bool) (sem : State → Sem)
    (pcOf : State → Option Nat) (after : State → State) (h : s.issues n sp f extra = true)
    (hs : sem ((s.openGroup n).fetched n) = .done s1) :
    live s (issue n sp f extra sem pcOf after s) =
      .next ((after (s1.retire n sp f (pcOf ((s.openGroup n).fetched n)))).retireIfDue n) := by
  simp only [State.issues, Bool.and_eq_true, decide_eq_true_eq, beq_iff_eq, Option.isNone_iff_eq_none] at h
  obtain ⟨⟨⟨⟨⟨⟨⟨⟨⟨⟨ha, hn⟩, hst⟩, hd⟩, hm⟩, hc⟩, hf⟩, hw⟩, hk⟩, hi⟩, -⟩ := h
  obtain ⟨g, hg, hcase⟩ := openGroup_cur s n
  have hfull : ¬ 32 ≤ g.count := by
    rcases hcase with h | ⟨-, h, -⟩
    · rw [h] at hc; simpa using hc
    · omega
  unfold live issue
  rw [if_pos ha, if_neg (by omega), if_neg (by simp [hst, hd]), if_neg (by simp [hm])]
  simp only [hg, decide_eq_true_eq, hfull, if_false, hf, hw, hk, hi, hs, Bool.not_true, Bool.false_eq_true, ne_eq, not_true_eq_false]

/-- Retiring an array that has no threshold due changes nothing. -/
theorem retireIfDue_eq (s : State) (n : Nat) (h : s.retireDue n = false) : s.retireIfDue n = s := by
  simp [State.retireIfDue, h]

/-- Whether a retirement is due depends on the upsets counted and on the thresholds alone. -/
theorem retireDue_congr (s t : State) (n : Nat) (hr : t.ret.upsets = s.ret.upsets)
    (hg : t.reg Reg.LOG_THR0 = s.reg Reg.LOG_THR0) : t.retireDue n = s.retireDue n := by
  have g1 := getF_of_reg s t Fld.LOG_THR0_ARRAY_REPLAY hg
  have g2 := getF_of_reg s t Fld.LOG_THR0_ARRAY_ECC hg
  have g3 := getF_of_reg s t Fld.LOG_THR0_ARRAY_UE hg
  unfold State.retireDue State.upsetDue State.upsets
  rw [hr, g1, g2, g3]

/-! ## What counting an instruction in its group leaves -/

theorem retire_ctx (s : State) (n : Nat) (sp : OpSpec) (f : Fields) (pc : Option Nat) :
    ((s.retire n sp f pc).arr n).ctx = (s.arr n).ctx := by
  simp only [State.retire]
  split
  · simp only [arr_modArr_same, arr_incF]; split <;> (try split) <;> rfl
  · simp
theorem retire_pc (s : State) (n : Nat) (sp : OpSpec) (f : Fields) (pc : Option Nat) :
    ((s.retire n sp f pc).arr n).pc = pc.getD ((s.arr n).pc + 16) := by
  cases pc <;> (simp only [State.retire]; split)
  · simp only [arr_modArr_same, arr_incF]; cases (s.arr n).cur <;> dsimp only [Option.map_none, Option.map_some]
    · rfl
    · split <;> rfl
  · simp only [arr_modArr_same, arr_incF]; rfl
  · simp only [arr_modArr_same, arr_incF]; cases (s.arr n).cur <;> dsimp only [Option.map_none, Option.map_some]
    · rfl
    · split <;> rfl
  · simp only [arr_modArr_same, arr_incF]; rfl
theorem retire_arr_other (s : State) (n m : Nat) (sp : OpSpec) (f : Fields) (pc : Option Nat) (h : m ≠ n) :
    (s.retire n sp f pc).arr m = s.arr m := by
  simp only [State.retire]
  split <;> simp [arr_modArr_other, h]
theorem retire_reg_other (s : State) (n r : Nat) (sp : OpSpec) (f : Fields) (pc : Option Nat) (h : r ≠ Reg.ARR_VEC_BUSY n) :
    (s.retire n sp f pc).reg r = s.reg r := by
  have hf : (Fld.ARR_VEC_BUSY_CYCLES n).reg = Reg.ARR_VEC_BUSY n := rfl
  simp only [State.retire]
  split <;> simp [reg_incF_other, hf, h]
/-- Only the arrays and the registers change. -/
theorem retire_rest (s : State) (n : Nat) (sp : OpSpec) (f : Fields) (pc : Option Nat) :
    s.retire n sp f pc = { s with arrays := (s.retire n sp f pc).arrays, regs := (s.retire n sp f pc).regs } := by
  simp only [State.retire]
  split <;> rfl

end Sys2Proof.Machine
end

