-- ==== Sys2Proof/Laws/Commands.lean ====
section
/-! SUPPORT. What the wrappers of the meanings can answer, each said once: a command on a stopped device, a service call, a write of one
register, a TAP instruction, an I3C transfer, an SPDM request. -/
namespace Sys2Proof.Machine

theorem live_stopped (s : State) (o : Host.Outcome State Fault Refusal) (h : s.alive = false) : live s o = .next s := by
  simp [live, h]
theorem live_running (s : State) (o : Host.Outcome State Fault Refusal) (h : s.alive = true) : live s o = o := by
  simp [live, h]
/-- A command on a stopped device changes nothing; on a running one it answers what its meaning says. -/
theorem live_next {s t : State} {o : Host.Outcome State Fault Refusal} (h : live s o = .next t) :
    (s.alive = false ∧ t = s) ∨ (s.alive = true ∧ o = .next t) := by
  cases a : s.alive
  · rw [live_stopped s o a] at h; exact .inl ⟨rfl, by injection h with h; exact h.symm⟩
  · rw [live_running s o a] at h; exact .inr ⟨rfl, h⟩

theorem svcCmd_next {code : Nat} {zero : Bool} {c : Caller} {body : State → State × SvcOut} {s t : State}
    (h : svcCmd code zero c body s = .next t) : (s.alive = false ∧ t = s) ∨ (s.alive = true ∧ c.part < 64 ∧ t = s.svc code zero c body) := by
  rcases live_next h with ⟨a, e⟩ | ⟨a, e⟩
  · exact .inl ⟨a, e⟩
  · by_cases b : 64 ≤ c.part
    · simp [b] at e
    · simp only [if_neg b] at e
      exact .inr ⟨a, by omega, by injection e with e; exact e.symm⟩

/-- Everything a service call can do once it is taken: a refusal by level, load, tag or partition; else what its body says, answered at
once or waiting. -/
theorem svc_cases (s : State) (code : Nat) (zero : Bool) (c : Caller) (body : State → State × SvcOut) :
    s.svc code zero c body = s ∨ (∃ st ws, st ∈ [svLevel, svBusy, svInvalid, svDenied] ∧ s.svc code zero c body = s.reply c code st ws) ∨
    (∃ s1 st ws, body s = (s1, .reply st ws) ∧ s.svc code zero c body = s1.reply c code st ws) ∨
    (∃ s1 x, body s = (s1, .waits x) ∧ s.svc code zero c body =
      { s1 with acc := { s1.acc with calls := s1.acc.calls ++ [⟨c, code, none, callBlocks code, some x⟩] } }) := by
  unfold State.svc
  split
  · exact .inl rfl
  split
  · exact .inr (.inl ⟨svLevel, [], by simp, rfl⟩)
  split
  · exact .inr (.inl ⟨svBusy, [], by simp, rfl⟩)
  split
  · exact .inr (.inl ⟨svInvalid, [0], by simp, rfl⟩)
  split
  · exact .inr (.inl ⟨svDenied, [], by simp, rfl⟩)
  · split
    · rename_i s1 st ws e; exact .inr (.inr (.inl ⟨s1, st, ws, e, rfl⟩))
    · rename_i s1 x e; exact .inr (.inr (.inr ⟨s1, x, e, rfl⟩))

/-- The write of a register of a unit that the device has is a write of the register space. -/
theorem unitWriteCmd_ok (n : Nat) (rq : Requester) (reg width : Nat) (v : Word64) (s : State) :
    unitWriteCmd true n rq reg width v s = spaceWriteCmd rq reg width v s := rfl
theorem spaceWriteCmd_next {rq : Requester} {reg width : Nat} {v : Word64} {s t : State} (h : spaceWriteCmd rq reg width v s = .next t) :
    (s.alive = false ∧ t = s) ∨ (s.alive = true ∧ t = s.regWrite ⟨rq, false, reg, width, v⟩) := by
  rcases live_next h with ⟨a, e⟩ | ⟨a, e⟩
  · exact .inl ⟨a, e⟩
  · exact .inr ⟨a, by injection e with e; exact e.symm⟩

theorem tapCmd_next {f : State → State} {s t : State} (h : tapCmd f s = .next t) :
    (s.tapUp = false ∧ t = s) ∨ (s.tapUp = true ∧ t = f s) := by
  unfold tapCmd at h
  cases a : s.tapUp <;> simp [a] at h
  · exact .inl ⟨rfl, h.symm⟩
  · exact .inr ⟨rfl, h.symm⟩
theorem i3cCmd_next {f : State → State} {s t : State} (h : i3cCmd f s = .next t) :
    (s.i3cUp = false ∧ t = s) ∨ (s.i3cUp = true ∧ t = f s) := by
  unfold i3cCmd at h
  cases a : s.i3cUp <;> simp [a] at h
  · exact .inl ⟨rfl, h.symm⟩
  · exact .inr ⟨rfl, h.symm⟩
theorem spdmCmd_next {p : Nat} {f : State → State} {s t : State} (h : spdmCmd p f s = .next t) :
    ((s.alive = false ∨ s.spdmServes p = false) ∧ t = s) ∨ (s.alive = true ∧ p < 64 ∧ s.spdmServes p = true ∧ t = f s) := by
  rcases live_next h with ⟨a, e⟩ | ⟨a, e⟩
  · exact .inl ⟨.inl a, e⟩
  · by_cases b : 64 ≤ p
    · simp [b] at e
    · cases d : s.spdmServes p <;> simp [b, d] at e
      · exact .inl ⟨.inr rfl, e.symm⟩
      · exact .inr ⟨a, by omega, rfl, e.symm⟩

end Sys2Proof.Machine
end

