-- ==== Sys2Proof/Laws/Memory.lean ====
section
/-! SUPPORT. Every operation on HBM, the operand caches and accumulator memory keeps the canonical form of its store, and reset has it. -/
namespace Sys2Proof.Machine

theorem reset_stores_wf : Memory.wf State.reset.mem.hbm = true ∧ Memory.wf State.reset.mem.oc = true ∧ Memory.wf State.reset.mem.acc = true ∧
    Sparse.wf resetReg State.reset.regs = true := ⟨rfl, rfl, rfl, rfl⟩

theorem clearOc_wf (s : State) (n off len : Nat) (h : Memory.wf s.mem.oc = true) : Memory.wf (s.clearOc n off len).mem.oc = true :=
  sparse_clear_wf zeroByte s.mem.oc _ _ h
theorem setAccRow_wf (s : State) (n o store : Nat) (l : List Nat) (h : Memory.wf s.mem.acc = true) :
    Memory.wf (s.setAccRow n o store l).mem.acc = true := writeBytes_wf s.mem.acc _ _ h
theorem zeroLines_wf (s : State) (n first count : Nat) (h : Memory.wf s.mem.acc = true) :
    Memory.wf (s.zeroLines n first count).mem.acc = true := sparse_clear_wf zeroByte s.mem.acc _ _ h
theorem clearAcc_wf (s : State) (n : Nat) (h : Memory.wf s.mem.acc = true) : Memory.wf (s.clearAcc n).mem.acc = true :=
  sparse_clear_wf zeroByte s.mem.acc _ _ h
theorem zeroSegs_wf (s : State) (l : List Nat) (h : Memory.wf s.mem.hbm = true) : Memory.wf (s.zeroSegs l).mem.hbm = true := by
  induction l generalizing s with
  | nil => exact h
  | cons t l ih => exact ih _ (sparse_clear_wf zeroByte s.mem.hbm _ _ h)

/-- Writing an operand cache leaves what is outside the bytes written alone. -/
theorem ocWrite_get_other (s : State) (n off : Nat) (l : List Byte) (x : Nat) (h : x < n * ocBytes + off ∨ n * ocBytes + off + l.length ≤ x) :
    Sparse.get zeroByte (s.ocWrite n off l).mem.oc x = Sparse.get zeroByte s.mem.oc x := writeBytes_get_other s.mem.oc _ l x h
theorem ocWrite_get_in (s : State) (n off : Nat) (l : List Byte) (i : Nat) (h : i < l.length) :
    Sparse.get zeroByte (s.ocWrite n off l).mem.oc (n * ocBytes + off + i) = l[i] := writeBytes_get_in s.mem.oc (n * ocBytes + off) l i h

end Sys2Proof.Machine
end

