-- ==== Sys2Proof/Tests/Slice0.lean ====
section
/-! SUPPORT. Small states on which the hypotheses of the statements hold (the theorems `witness_…`), ill-formed commands that the checks of
WellFormed refuse, and single steps whose results the spec gives (`test_…`). -/
open Sys2Proof Sys2Proof.Machine Sys2Proof.Num
namespace Sys2Proof.Tests
set_option Elab.async false

/-! ## States -/

/-- A device that runs at FULL with every domain clocked, and the table of conduits in the last segment but one. -/
def up : State :=
  ({ State.reset with time := 1000000, pow := { Power.initial with state := .running, refclk := true, locked := true } }).setFs
    ([(Fld.TOP_SERVICE_LEVEL, 3), (Fld.SEC_LIFECYCLE_STATE, 1), (Fld.PRT_STATE_STATE 0, 2), (Fld.PRT_STATE_LARRAYS 0, 128),
      (Fld.PRT_STATE_HBM_GIB 0, 768), (Fld.TOP_DEVNUM_VALID, 1)] ++
     [0, 1, 2, 3].map fun k => (Fld.CLK_GATE_STAT_RUN k, 2 ^ 32 - 1))

/-- Array 0 runs with its program counter at 0x1000, two units of its operand cache, and scalars 1 to 4. -/
def ctx0 : Ctx := ((((Ctx.zero.sset 1 7).sset 2 3).sset 3 64).sset 4 (-5))
def runs (c : Ctx) : State :=
  (((up.setArr 0 { Arr.initial with pc := 0x1000, ctx := c }).setArrState 0 stRunning).setFs
    [(Fld.ARR_OC_CFG_UNITS 0, 2), (Fld.ARR_ACC_CFG_RES_COUNT 0, 2048)])
def ar : State := runs ctx0
/-- No field set. -/
def fz : Fields := { ge := false, pred := 0, pn := false, mod := 0, d := 0, a := 0, b := 0, c := 0, imm := 0 }
/-- Array 0 holds the instruction's word in its instruction cache at its program counter, and is otherwise as it was. -/
def loaded (sp : OpSpec) (f : Fields) (s : State) : State := s.modArr 0 fun a => { a with icache := [(a.pc, f.word sp.cls sp.op)] }
theorem loaded_only (sp : OpSpec) (f : Fields) (s : State) : loaded sp f s =
    { s with arrays := Sparse.set arrDefault s.arrays 0 { s.arr 0 with icache := [((s.arr 0).pc, f.word sp.cls sp.op)] } } := rfl
/-- Array 0 of a state that so holds an instruction issues it; the other hypotheses of a statement do not read the cache. -/
def iss (s : State) (sp : OpSpec) (f : Fields) (extra : Bool) : Bool := (loaded sp f s).issues 0 sp f extra
/-- A conduit of partition 0 of depth 16, ring at 0x10000, with `p` entries posted. -/
def cnd1 (kind p : Nat) : Cnd :=
  { ring := 0x10000, valid := true, kind, home := 0, log2depth := 4, owner := 0, cls := 0, notifyEn := false, notify := 0, prod := p,
    cons := 0, granted := 0, dropped := 0, posted := p, taken := 0 }
/-- Conduits 5 (descriptor `a`), 6 of kind 1 and 7 of kind 2 are cached, and the table is enabled at the last segment. -/
def withCnd (s : State) (a : Cnd) : State :=
  ({ s with cnd := { s.cnd with cache := [(5, a), (6, { cnd1 1 0 with ring := 0x20000 }), (7, { cnd1 2 0 with ring := 0x30000 })] } }).setFs
    [(Fld.CND_TABLE_BASE_ENABLE, 1), (Fld.CND_TABLE_BASE_BASE, 767 * 16), (Fld.PRT_SEG_OWNER_WITHHELD 767, 1)]
/-- The stores are in canonical form, as one check. -/
def canon (s : State) : Bool := Sparse.wf resetReg s.regs && Memory.wf s.mem.hbm && Memory.wf s.mem.oc && Memory.wf s.mem.acc
theorem canonical_of_canon {s : State} (h : canon s = true) : s.Canonical := by
  simpa [canon, State.Canonical, and_assoc] using h

/-! ## Runen: scalars, addresses, special registers, control -/

theorem witness_ScalarOperationResult :
    (∀ r ∈ intRows, iss ar (intSpec r.op) { fz with d := 5, a := 1, b := 2 } (immFormOk { fz with d := 5, a := 1, b := 2 }) = true) ∧
    (∀ r ∈ intRows, iss ar (intSpec r.op) { fz with d := 0, a := 1, mod := 1, imm := 9, ge := true }
      (immFormOk { fz with a := 1, mod := 1, imm := 9 }) = true) := by decide +kernel

theorem witness_MoveAndAddressResult :
    iss ar { intSpec 0x0E with a := .none, b := .none } { fz with d := 5, imm := 9 } true = true ∧
    iss ar (adrSpec 0x00 .ad .ad .s .none 1 (BitVec.allOnes 64)) { fz with d := 0x61, a := 0x62, b := 1 } (immFormOk { fz with b := 1 }) = true ∧
    iss ar (adrSpec 0x01 .ad .sa .none .none 0 0) { fz with d := 0x61, a := 1 } true = true ∧
    iss ar (adrSpec 0x02 .ad .none .none .none 0 (BitVec.allOnes 64)) { fz with d := 0x6F, imm := 64 } true = true ∧
    iss ar (adrSpec 0x03 .ad .ad .s .s 0 0) { fz with d := 0x61, a := 0x62, b := 1, c := 2 } true = true ∧
    iss ar (adrSpec 0x04 .s .ad .none .none 0 0) { fz with d := 5, a := 0x61 } true = true ∧
    (∀ x ∈ List.range 15, iss ar (srgSpec 0x00 .s .none 0xFF) { fz with d := 5, imm := BitVec.ofNat 64 x } (sregOk { fz with imm := BitVec.ofNat 64 x }) = true) := by
  decide +kernel

theorem witness_SpecialRegisterWrite :
    (∀ x ∈ List.range 15, iss ar (srgSpec 0x01 .none .s 0xFF) { fz with a := 1, imm := BitVec.ofNat 64 x } (sregOk { fz with imm := BitVec.ofNat 64 x }) = true) ∧
    1 ≤ (ctx0.sget 1).toNat ∧ (ctx0.sget 1).toNat ≤ 256 ∧
    iss ar (srgSpec 0x02 .s .s 0) { fz with d := 5, a := 1 } true = true ∧ ctx0.sget 1 ≠ 0 := by decide +kernel

theorem witness_BranchTarget :
    (∀ r ∈ branchRows, iss ar (ctlSpec r.op .s .s (BitVec.allOnes 64) true) { fz with a := 1, b := 2, imm := 0xFFFFFFFFFFFFFFFE, ge := true } true = true) ∧
    iss ar (ctlSpec 0x01 .none .none (BitVec.allOnes 64) true) { fz with imm := 4, ge := true } true = true ∧
    iss ar (ctlSpec 0x02 .s .none 0 true) { fz with a := 3, ge := true } true = true ∧ (ctx0.sget 3).toNat % 16 = 0 := by decide +kernel

theorem witness_ControlInstructions :
    iss ar (ctlSpec 0x00 .none .none 0 false) fz true = true ∧ iss ar (ctlSpec 0x09 .none .none 0 true) { fz with ge := true } true = true ∧
    iss ar (ctlSpec 0x0A .none .none 0xFFFF true) { fz with ge := true, imm := 0xFFFF } true = true ∧
    iss ar (ctlSpec 0x0B .none .none 0 true) { fz with ge := true } true = true := by decide +kernel

/-! ## Runen: operand cache and HBM -/

/-- a1 = 0x100 in the operand cache, a2 = 0x2000 in HBM; rows of 128 bytes, 256 apart. -/
def ctxT : Ctx := (((ctx0.aset 1 0x100).aset 2 0x2000).sset 1 128).sset 2 256
def arT : State := runs ctxT
def fT : Fields := { fz with d := 0x61, a := 0x62, b := 1, c := 2, imm := 3 }
def fS : Fields := { fz with d := 0x62, a := 0x61, b := 1, c := 2, imm := 3 }

theorem witness_TransferIsDeferred :
    (∀ r ∈ xferRows, iss arT (ocxSpec r.op) (if r.kind == .load || r.kind == .pref then fT else fS) true = true ∧
      ∀ x ∈ rowAddrs 0x2000 256 3, localKind x = .hbm ∧ arT.hbmRangeOk 0 x 128 = true ∧ arT.textHit 0 x 128 = false) ∧
    (ctxT.sget 1).toNat % 64 = 0 ∧ (ctxT.sget 2).toNat % 64 = 0 ∧ (0x100 : Nat) + 128 * 3 ≤ arT.ocSize 0 ∧
    (arT.arr 0).access [] [(arT.ocFirst 0 + 0x100, 384)] = .ok ∧ (arT.arr 0).access [(arT.ocFirst 0 + 0x100, 384)] [] = .ok := by decide +kernel

def xferOne (k : XferKind) : Xfer := { kind := k, part := 0, oc := 0x100, hbm := 0x2000, row := 128, stride := 256, rows := 3 }
def arX (k : XferKind) : State := ar.modArr 0 fun a => { a with xfers := [xferOne k] }

theorem witness_TransferMovesLines :
    ∀ k ∈ [XferKind.load, .store, .pref, .evict], (arX k).alive = true ∧ Sparse.wf resetReg (arX k).regs = true ∧ Memory.wf (arX k).mem.hbm = true ∧
      Memory.wf (arX k).mem.oc = true ∧ Memory.wf (arX k).mem.acc = true ∧ ((arX k).arr 0).undisturbed = true ∧ (arX k).retireDue 0 = false ∧
      ((arX k).arr 0).xfers[0]? = some (xferOne k) ∧ ((0x100 : Nat) + 128 * 3 ≤ ocBytes) ∧
      ∀ i ∈ List.range 3, ∀ j ∈ List.range 2, (arX k).hbmBadTag 0 ((xferOne k).lineAddr i j) 64 = false := by decide +kernel

/-- Four lanes, p1 on lanes 0 and 2, a3 = 64. -/
def ctxL : Ctx := ({ ctx0 with vl := 4 }.aset 3 64).pset 1 0xF0F
def arL : State := runs ctxL
def fL : Fields := { fz with a := 0x63 }

theorem witness_LoadResult :
    iss arL (vlsSpec 0x00 .v .none 0 true) { fL with d := 0x41, pred := 1 } true = true ∧
    (∀ m ∈ List.range 8, iss arL (vlsSpec 0x02 .s .none 7 false) { fL with d := 5, mod := BitVec.ofNat 15 m } true = true) ∧
    iss arL (vlsSpec 0x04 .p .none 0 false) { fL with d := 0x72 } true = true ∧
    (arL.arr 0).access [(arL.ocFirst 0 + 64, 16)] [] = .ok ∧ (arL.arr 0).access [(arL.ocFirst 0 + 64, 8)] [] = .ok ∧
    (arL.arr 0).access [(arL.ocFirst 0 + 64, 128)] [] = .ok ∧ arL.ocViewPoison 0 64 128 = none ∧ arL.ocViewPoison 0 64 16 = none := by decide +kernel

theorem witness_StoreIsBuffered :
    iss arL (vlsSpec 0x01 .none .v 0 true) { fL with b := 0x41, pred := 1 } true = true ∧
    (∀ m ∈ List.range 4, iss arL (vlsSpec 0x03 .none .s 3 false) { fL with b := 4, mod := BitVec.ofNat 15 m } true = true) ∧
    iss arL (vlsSpec 0x05 .none .p 0 false) { fL with b := 0x71 } true = true ∧
    (arL.arr 0).access [] [(arL.ocFirst 0 + 64, 16)] = .ok ∧ (arL.arr 0).access [] [(arL.ocFirst 0 + 64, 8)] = .ok ∧
    (arL.arr 0).access [] [(arL.ocFirst 0 + 64, 128)] = .ok ∧ (arL.arr 0).bytesNow + 128 ≤ 65536 := by decide +kernel

/-- The words of Runen: CLASS and OP at their highest values, and an array that holds no word cached. -/
theorem witness_InstructionWord :
    (63 < 64 ∧ (0x3F : Nat) < 64) ∧ (ar.arr 0).cached = none ∧ canon ar = true ∧ (15 : Nat) < 16 := by decide +kernel

/-! ## Runen: matrix engine and accumulation -/

/-- ACC.OPEN of slots 0 and 1 as group 2: shape 0, binary32. -/
def fOpen : Fields := { fz with mod := 0x2000, imm := 0x20000, ge := true }
def fClose : Fields := { fz with mod := 0x2000, ge := true }
def grp0 : AccGroup := { state := 1, shape := 0, store := 0, idx := 0, first := 0, count := 2, res := 0 }
def arG (st : Nat) : State := ar.modArr 0 fun a => { a with acc := a.acc.set 2 { grp0 with store := st } }

theorem witness_AccumulatorOpenAndClose :
    (accAlone (ar.arr 0) = true ∧ (ar.arr 0).acc.length = 8 ∧
      iss ar (accSpec 0x00 .none .none 0x703E 0xFFFFFFFF) fOpen (accShape fOpen != 3) = true ∧ accIdx fOpen = ar.modeIdx 0 ∧
      (ar.accGroup 0 2).state = 0 ∧ 2 * grp0.lines ≤ ar.getF (Fld.ARR_ACC_CFG_RES_COUNT 0) ∧
      (∀ y ∈ (ar.arr 0).acc, overlaps grp0.span.1 grp0.span.2 y.span.1 y.span.2 = false)) ∧
    (accAlone ((arG 0).arr 0) = true ∧ ((arG 0).arr 0).acc.length = 8 ∧ iss (arG 0) (accSpec 0x01 .none .none 0x7000 0) fClose true = true ∧
      ((arG 0).accGroup 0 2).state ≠ 0) := by decide +kernel

/-- MMA of binary32, K = 2, one line a row, A at 0 and B at 0x2000, into slot 0 of group 2. -/
def ctxM : Ctx := (((ctx0.aset 1 0).aset 2 0x2000).sset 1 2)
def fM : Fields := { fz with a := 0x61, b := 0x62, c := 1, mod := 0x2000, imm := 0x100010000, ge := true }
def arM : State := (runs ctxM).modArr 0 fun a => { a with acc := a.acc.set 2 grp0 }

theorem witness_MmaAccumulates :
    iss arM mmaSpec fM (mmaPairOk (mmaAfmt fM) (mmaBfmt fM) && accShape fM != 3) = true ∧ accAlone (arM.arr 0) = true ∧
    accIdx fM = arM.modeIdx 0 ∧ mmaKOk (mmaAfmt fM) (mmaBfmt fM) 2 = true ∧
    mmaExtent 0 2 1 64 ≤ arM.ocSize 0 ∧ 0x2000 + mmaExtent 0 2 1 64 ≤ arM.ocSize 0 ∧ (arM.accGroup 0 2).state = 1 ∧
    (arM.accGroup 0 2).holds 0 = true ∧ (arM.ident 0).part < 64 ∧
    (arM.arr 0).access (mmaRanges 0 2 0 1 64 ++ mmaRanges 0 2 0x2000 1 64) [] = .ok ∧
    mmaPoison arM 0 (mmaRanges 0 2 0 1 64 ++ mmaRanges 0 2 0x2000 1 64) = none := by decide +kernel

/-- ACC.DRAIN of slot 0 of group 2 to a1 in HBM, and to a3 in the operand cache, as binary32 and as bfloat16. -/
def ctxD : Ctx := (ctx0.aset 1 0x4000).aset 3 (BitVec.ofNat 64 ocBase + 0x1000)
def arD : State := (runs ctxD).modArr 0 fun a => { a with acc := a.acc.set 2 grp0 }
def fD (tgt rm ad : Nat) : Fields :=
  { fz with a := BitVec.ofNat 8 ad, mod := BitVec.ofNat 15 (0x2000 + tgt * 256 + rm * 64), imm := 0x400010000, ge := true }
def drOne (toOc : Bool) (addr : Nat) (started : Bool) : Drain :=
  { grp := 2, first := 0, count := 1, target := 0, rm := 0, sat := false, ftz := false, add := false, close := true, scale := none, addr, toOc,
    stride := 256, rows := 64, cols := 64, seed := 0, ctr := 0, started, ahead := 1, held := none }
def arQ (toOc st : Bool) : State := arD.modArr 0 fun a => { a with drains := [drOne toOc (if toOc then 0x1000 else 0x4000) st], mma := [⟨1, 0, 1, true⟩] }

theorem witness_DrainIsQueued :
    (∀ t ∈ [0, 2], iss arD (accSpec 0x02 .ad .s 0x7FFC 0xFFFFFFFFFFFF) (fD t t 0x61)
      (([0, 1, 2, 10] : List Nat).contains t && (decide (t ≤ 1) || (t == 2 && t == 2))) = true) ∧
    (arD.accGroup 0 2).state = 1 ∧ (arD.accGroup 0 2).holds 0 = true ∧ (arD.arr 0).drains.length < 4 ∧
    drainTarget arD 0 false 0x4000 ((List.range 64).map fun r => (0x4000 + r * 256, 256)) = .ok (false, 0x4000) := by
  refine ⟨by decide +kernel, by decide +kernel, by decide +kernel, by decide +kernel, by rfl⟩

theorem witness_DrainRuns :
    ∀ oc ∈ [true, false], (arQ oc false).alive = true ∧ ((arQ oc false).arr 0).undisturbed = true ∧ (arQ oc false).retireDue 0 = false ∧
      ((arQ oc false).arr 0).drains.head?.map Drain.started = some false ∧ ((arQ oc true).arr 0).drains.head?.map Drain.started = some true ∧
      ((((arQ oc false).arr 0).mma.take 1).any fun m => m.grp == 2) = false ∧ ((arQ oc false).ident 0).part < 64 ∧
      2 < ((arQ oc false).arr 0).acc.length ∧
      (∀ es ∈ drainRows (arQ oc false) 0 ((arQ oc false).accGroup 0 2) (drOne oc (if oc then 0x1000 else 0x4000) false), es.length = 64) := by
  decide +kernel

theorem witness_NanBlocks : isBlock 5 = true ∧ (fun _ : Nat => 0xFF) 0 = 0xFF ∧
    (encodeBlock 5 .rne false 0x3F800000 [] ((List.replicate 15 (.fin false Num.one)) ++ [.nan])).1 = 0xFF := by decide +kernel
theorem witness_FirstFlagIsCaptured :
    (0x405#32) ≠ 0 ∧ (0x405#32).toNat < 2 ^ 11 ∧ up.flag (Fld.NUM_FIRST_VALID 63) = false ∧
    (up.setF (Fld.NUM_FIRST_VALID 63) 1).flag (Fld.NUM_FIRST_VALID 63) = true := by decide +kernel

/-! ## Runen: vector engine -/

/-- Six lanes, p1 on some of them, v1 to v3 filled. -/
def ctxV : Ctx := ((({ ctx0 with vl := 6 }.vset 1 0x3F800000400000004040000040800000C0A00000FF800000#8192).vset 2
  0x0000000100000002000000030000000400000005BF800000#8192).vset 3 0x404040403030303020202020#8192).pset 1 0xF0F0FF#1024
def arV : State := runs ctxV
def fV (fmt : Nat) (scalar : Bool) : Fields :=
  { fz with d := 0x44, a := 0x41, pred := 1, mod := BitVec.ofNat 15 (fmt + if scalar then 16 else 0) }

/-- The operand specifiers that a row of Table 5.2 takes. -/
def vecFields (r : VecRow) (fmt : Nat) : Fields :=
  let f := fV fmt (r.op == 0x0F)
  { f with
    a := if r.op = 0x0F then 0 else f.a
    b := if r.b = .none then 0 else if r.op = 0x0F then 1 else 0x42
    c := if r.c = .none then 0 else if r.c = .p then 0x72 else 0x43 }

theorem witness_VectorOperationResult :
    ∀ r ∈ vecRows, ∀ fmt ∈ r.fmts, iss arV (vecSpec r.op .v (if r.op = 0x0F then .none else .v) r.b r.c) (vecFields r fmt)
      (r.fmts.contains (vecFmt (vecFields r fmt)) && r.ok (vecFields r fmt)) = true := by decide +kernel

theorem witness_VectorComparisonResult :
    ∀ r ∈ cmpRows, ∀ fmt ∈ [0, 1, 2, 10], iss arV (vecSpec r.2 .p .v .sv .none) { fV fmt false with d := 0x72, b := 0x42 }
      (([0, 1, 2, 10] : List Nat).contains (vecFmt (fV fmt false)) && secondOk { fV fmt false with b := 0x42 }) = true := by decide +kernel

def fP (m : Nat) (imm : Nat) : Fields := { fz with d := 0x44, a := 0x41, b := 0x42, pred := 1, mod := BitVec.ofNat 15 m, imm := BitVec.ofNat 64 imm }

theorem witness_PermuteResult :
    (∀ m ∈ [0, 1, 2, 6], iss arV (vpmSpec 0x00 .v .v .v 7 0) (fP m 0) (m % 4 != 3 && (permWidth (fP m 0) == 8 || !(fP m 0).mod.getLsbD 2)) = true) ∧
    (∀ m ∈ [0, 1, 2], ∀ k ∈ List.range 7, let f := fP m (k + if k < 5 then 0 else 2 * 65536)
      iss arV (vpmSpec 0x01 .v .v .v 3 0xFFFF000F) f (m % 4 != 3 && decide (bits f.imm.toNat 0 4 ≤ 6) &&
        (decide (5 ≤ bits f.imm.toNat 0 4) || bits f.imm.toNat 16 16 == 0)) = true) ∧
    (∀ m ∈ [1, 2, 5, 6], iss arV (vpmSpec 0x02 .v .v .v 7 0) (fP m 0) (m % 4 == 1 || m % 4 == 2) = true) ∧
    (∀ m ∈ [0, 1, 4, 8, 16, 17, 21], let f := { fP m 0 with b := 0 }
      iss arV (vpmSpec 0x03 .v .v .none 0x1F 0) f (decide (m % 4 ≤ 1) && bits f.mod.toNat 3 2 != 3) = true) := by decide +kernel

/-- A tile of four rows at 0x400 combined into 0x800, one line a row. -/
def ctxB : Ctx := (ctxV.aset 1 0x800).aset 2 0x400
def arB : State := runs ctxB
def fB (bop code : Nat) : Fields :=
  { fz with d := 0x61, a := 0x62, b := 0x41, pred := 1, mod := BitVec.ofNat 15 (bop * 16 + code), imm := 0x10004 }
def rowsB (x : Nat) : List (Nat × Nat) := (List.range 4).map fun i => (x + i * 64, 24)

theorem witness_BroadcastResult :
    (∀ col ∈ [false, true], ∀ bop ∈ List.range 6, ∀ code ∈ [0, 1, 2, 10],
      iss arB (vpmSpec (if col then 0x05 else 0x04) .ad .ad .v 0x7F 0xFFFF01FF) (fB bop code)
        (([0, 1, 2, 10] : List Nat).contains ((fB bop code).mod.toNat % 16) && decide (bits (fB bop code).mod.toNat 4 3 ≤ 5)) = true) ∧
    (arB.arr 0).access (rowsB 0x400) (rowsB 0x800) = .ok ∧ (arB.arr 0).access [] (rowsB 0x800) = .ok ∧
    (∀ i ∈ List.range 4, arB.ocViewPoison 0 (0x400 + i * 64) 24 = none) := by decide +kernel

theorem witness_ReductionResult :
    ∀ r ∈ redRows, ∀ fmt ∈ [0, 1, 2, 10], iss arV (vrdSpec r.2) { fV fmt false with d := 5 } (([0, 1, 2, 10] : List Nat).contains (vecFmt (fV fmt false))) = true := by
  decide +kernel

/-- CVT of binary32 to bfloat16, and of bfloat16 to INT8 with stochastic rounding. -/
def fC (src dst rm : Nat) : Fields := { fz with d := 0x44, a := 0x41, pred := 1, mod := BitVec.ofNat 15 (dst + src * 16 + rm * 256) }

theorem witness_RegisterConversionResult :
    (∀ x ∈ [(0, 2, 0), (0, 1, 1), (0, 2, 2)], let f := fC x.1 x.2.1 x.2.2
      cvtSrc f = x.1 ∧ cvtDst f = x.2.1 ∧ cvtRm f = x.2.2 ∧ cvtCap f = false ∧ iss arV (cvtSpec 0x00 .v .v .none .none) f
        (pairOk (cvtSrc f) (cvtDst f) && !isBlock (cvtSrc f) && !isBlock (cvtDst f) && rmOk (cvtRm f) (cvtDst f) && (cvtCap f || f.imm == 0)) = true) := by
  decide +kernel

/-! ## Runen: tile conversion, element programs, scales, and what leaves the array -/

/-- CVT.T of 20 values at 0x400 to 0x800, or to 0x400 in place; and of 1,024 values to PB8a. -/
def ctxK (cnt : Nat) (d : Word64) : Ctx := (((ctx0.aset 1 d).aset 2 0x400).sset 2 (BitVec.ofNat 64 cnt)).pset 1 0xFF0F
def arK (cnt : Nat) (d : Word64) : State := runs (ctxK cnt d)
def fK (src dst rm pred : Nat) : Fields :=
  { fz with d := 0x61, a := 0x62, c := 2, pred := BitVec.ofNat 3 pred, mod := BitVec.ofNat 15 (dst + src * 16 + rm * 256) }
def tileHyp (cnt : Nat) (d : Word64) (src dst rm pred : Nat) : Bool :=
  let s := arK cnt d
  let f := fK src dst rm pred
  let sb := tensorBytes src cnt
  let db := tensorBytes dst cnt
  iss s (cvtSpec 0x01 .ad .ad .s .s) f
    (pairOk src dst && rmOk (cvtRm f) dst && (cvtCap f || f.imm == 0) && (!(isBlock src || isBlock dst) || (f.pred == 0 && !f.pn))) &&
  decide (d.toNat % tensorAlign dst = 0) && decide (0x400 % tensorAlign src = 0) && decide (d.toNat + db ≤ s.ocSize 0) &&
  decide (0x400 + sb ≤ s.ocSize 0) && (decide (d = 0x400) || !overlaps d.toNat db 0x400 sb) &&
  decide ((s.arr 0).access [(0x400, sb)] [] = .ok) && decide ((s.arr 0).access [] [(d.toNat, db)] = .ok) &&
  (s.ocViewPoison 0 0x400 sb).isNone && decide ((s.arr 0).bytesNow + db ≤ 65536)

theorem witness_TileConversionResult :
    tileHyp 20 0x800 0 2 2 1 = true ∧ tileHyp 20 0x400 0 1 1 0 = true ∧ tileHyp 1024 0x4000 0 3 0 0 = true ∧ tileHyp 1024 0x4000 3 0 0 0 = true := by
  decide +kernel

/-- An element program of one input and one output of binary32 that adds the input to its first parameter and stores the sum. -/
def eInst (op fmt dst a b : Nat) : List Byte := toLe 16 (op * 2 ^ 122 + fmt * 2 ^ 114 + dst * 2 ^ 102 + a * 2 ^ 96 + b * 2 ^ 90)
def image1 : List Byte :=
  padTo 64 (toLe 2 1 ++ [2, 1, 1, 1, 0, 0, 0] ++ List.replicate 7 0 ++ [0]) ++ eInst 0x01 0 0 16 24 ++ eInst 0x1C 0 0 0 0
def ctxE : Ctx := (ctx0.aset 1 0x400).sset 2 6
def arE : State := (runs ctxE).ocWrite 0 0x400 image1
/-- The operand list at 0x800: input at 0x1000, output at 0x1400, parameter 2.0. -/
def opList : List Byte := padTo 0x20 (toLe 4 0x1000) ++ padTo 0x20 (toLe 4 0x1400) ++ padTo 64 (toLe 4 0x40000000)
def arR : State :=
  ((runs (ctxE.aset 1 0x800)).ocWrite 0 0x800 opList).modArr 0 fun a => { a with progs := [none, some ⟨0x400, image1⟩, none, none] }

theorem witness_ElementProgram :
    (iss arE (epgSpec 0x00 .none) { fz with a := 0x61, imm := 1 } true = true ∧ eImageBytes (EHead.ofBytes (arE.ocView 0 0x400 64)).ninstr = 96 ∧
      arE.ocView 0 0x400 96 = image1 ∧ eCheck image1 = none ∧ (arE.arr 0).access [(0x400, 96)] [] = .ok ∧ arE.ocViewPoison 0 0x400 96 = none) ∧
    (iss arR (epgSpec 0x01 .s) { fz with a := 0x61, b := 2, imm := 1 } true = true ∧ arR.ocView 0 0x800 128 = opList ∧
      eOverlapOk [(0x1000, 4)] [(0x1400, 4)] 6 = true ∧ arR.amaxEnabled 0 = false ∧
      (arR.arr 0).access [(0x1000, 24)] [(0x1400, 24)] = .ok ∧ arR.ocViewPoison 0 0x1000 24 = none) := by decide +kernel

def fSp : Fields := { fz with d := 5, a := 2, mod := 1, imm := 0x0104 }
def spPick : OpSpec := { cls := 0x11, op := 0x00, d := .s, a := .s, b := .none, c := .none, mod := 0xF, imm := 0x1F1F, last := false, lanes := false }
/-- The amax table of partition 0 is enabled at 0x100000 with 16 records. -/
def arA : State := ar.setFs [(Fld.NUM_AMAX_BASE_BASE 0, 0x100), (Fld.NUM_AMAX_CFG_COUNT_M1 0, 15), (Fld.NUM_AMAX_CFG_ENABLE 0, 1)]

theorem witness_ScalePickResult :
    (iss ar spPick fSp true = true ∧ ar.amaxEnabled 0 = false) ∧
    (iss arA spPick fSp true = true ∧ arA.amaxEnabled 0 = true ∧ 3 < arA.amaxCount 0 ∧ arA.amaxRecordOk 0 3 = true ∧
      arA.hbmBadTag 0 (arA.amaxRecordAddr 0 3) 128 = false ∧ arA.hbmPoisoned 0 (arA.amaxRecordAddr 0 3) 128 = false) := by decide +kernel

/-- Remote operations through conduit 6 with completions to conduit 7: a1 and a2 fabric addresses, a3 local, s6 the completion word. -/
def ctxF : Ctx := ({ ctx0 with rmoCnd := 6 }.aset 1 0x0100000000001000).aset 3 0x100 |>.sset 6 7 |>.sset 2 128
def arF : State := withCnd (runs ctxF) (cnd1 0 0)
def fF (d a b m : Nat) : Fields := { fz with d := BitVec.ofNat 8 d, a := BitVec.ofNat 8 a, b := BitVec.ofNat 8 b, c := 6, mod := BitVec.ofNat 15 m }

theorem witness_RemoteOperationIsDeferred :
    arF.cndIs 6 0 1 = true ∧ arF.cndIs 7 0 2 = true ∧ fieldOf (ctxF.sget 6) 38 10 = 0 ∧
    (∀ m ∈ [0, 1], iss arF (rmoSpec 0x00 .ad .ad .s 1) (fF 0x61 0x63 2 m) true = true ∧
      iss arF (rmoSpec 0x01 .ad .ad .s 1) (fF 0x63 0x61 2 m) true = true) ∧
    (arF.arr 0).access [(0x100, 128)] [] = .ok ∧ (arF.arr 0).access [] [(0x100, 128)] = .ok ∧ rangeHasKind 0x100 128 isSpecialKind = false ∧
    arF.localRangeOk 0 0x100 128 = true ∧
    (∀ x ∈ [(2, 0), (2, 1), (2, 2), (2, 10), (3, 0), (4, 10), (5, 10)],
      iss arF (rmoSpec x.1 .none .ad .s 0xF) (fF 0 0x61 2 x.2) true = true) ∧
    iss arF (rmoSpec 0x06 .s .ad .s 0xF) (fF 3 0x61 2 10) true = true ∧
    iss arF (geySpec 0x00 .none .ad .s .s false) (fF 0 0x61 2 0) true = true := by decide +kernel

def arW : State := runs ((ctx0.sset 5 65535).sset 6 9)
def fnc : OpSpec := { cls := 0x17, op := 0x00, d := .none, a := .none, b := .none, c := .none, mod := 0xF, imm := 0, last := true, lanes := false }
def arN : State := arW.modArr 0 fun a => { a with mma := [⟨1, 0, 1, true⟩] }

theorem witness_GeyserReadAndWaits :
    iss arW (geySpec 0x02 .s .s .none .none false) { fz with d := 7, a := 5 } true = true ∧ arW.geyOwner 65535 = 0 ∧
    iss arW (geySpec 0x01 .none .s .s .none true) { fz with a := 5, b := 6, ge := true } true = true ∧
    arW.getF (Fld.GEY_COUNT_COUNT 65535) < 9 ∧
    iss (arW.setReg (Reg.GEY_COUNT 65535) 9) (geySpec 0x01 .none .s .s .none true) { fz with a := 5, b := 6, ge := true } true = true ∧
    (∀ s ∈ [arW, arN], iss s fnc { fz with mod := 15, ge := true } true = true) ∧ (arW.arr 0).fenceDone 15 = true ∧ (arN.arr 0).fenceDone 15 = false := by
  decide +kernel

def arC (x : Cnd) : State := withCnd (runs ((ctx0.aset 1 0x40).sset 5 5)) x
def fQ : Fields := { fz with d := 7, a := 0x61, b := 5, ge := true }

theorem witness_ConduitPost :
    (iss (arC (cnd1 0 15)) (cndSpec 0x00) fQ true = true ∧ ((arC (cnd1 0 15)).arr 0).access [(0x40, 64)] [] = .ok ∧
      (arC (cnd1 0 15)).ocViewPoison 0 0x40 64 = none ∧ (cnd1 0 15).ledgerOk = true ∧ (arC (cnd1 0 15)).cndGet 5 = cnd1 0 15 ∧
      (arC (cnd1 0 15)).cndHeld 5 = false ∧ 0 < (cnd1 0 15).free) := by decide +kernel

theorem witness_ConduitTake :
    ∀ k ∈ [0, 2, 3], iss (arC (cnd1 k 1)) (cndSpec 0x01) fQ true = true ∧ ((arC (cnd1 k 1)).arr 0).access [] [(0x40, 64)] = .ok ∧
      (cnd1 k 1).ledgerOk = true ∧ (arC (cnd1 k 1)).cndGet 5 = cnd1 k 1 ∧ (arC (cnd1 k 1)).cndHeld 5 = false ∧ 0 < (cnd1 k 1).occupied ∧
      canon (arC (cnd1 k 1)) = true ∧ (arC (cnd1 k 1)).claims = [] ∧ (arC (cnd1 k 1)).cnd.waiters = [] := by decide +kernel

/-! ## Groups, contexts and the control of arrays -/

def grpA : Group :=
  { startPc := 0x0FF0, count := 1, lastCls := 5, lastOp := 1, lastPc := 0x0FF0, checkpoint := { ctx0 with vl := 9 }, writes := [⟨0x40, [1, 2, 3]⟩, ⟨0x41, [9]⟩],
    wbytes := 4, deferred := [], captures := [], flags := [], xferClears := [], xferWrites := [], xferReads := [], taken := [], granted := [], wait := none, onCommit := none }
def arDone : State := ar.modArr 0 fun a => { a with done := [grpA] }
def arRel : State := ar.modArr 0 fun a => { a with released := [.xfer (xferOne .load)] }
def arOpen : State := ar.modArr 0 fun a => { a with cur := some grpA }

theorem witness_GroupCommitAndRelease :
    arDone.alive = true ∧ (arDone.arr 0).stopBit = false ∧ (arDone.arr 0).cur = none ∧ (arDone.arr 0).stopReq = none ∧ (arDone.arr 0).switchReq = none ∧
    (arDone.arr 0).done = [grpA] ∧ (arDone.arr 0).released = [] ∧ (arRel.arr 0).done = [] ∧ (arRel.arr 0).cur = none ∧
    (arRel.arr 0).released = [.xfer (xferOne .load)] ∧ (arRel.arr 0).rangeCount < 16 := by decide +kernel

theorem witness_TransientUpsetReplays :
    ∀ s ∈ [arDone, arOpen], s.alive = true ∧ s.arrState 0 ≠ stRetired ∧ s.domainRuns 0 = true ∧ (s.arr 0).stopBit = false ∧ ((s.arr 0).done ++ (s.arr 0).cur.toList).head? = some grpA ∧
      (∀ x ∈ (s.arr 0).done ++ (s.arr 0).cur.toList, x.granted = []) ∧ (s.countUpset (keyReplay 0)).retireDue 0 = false ∧
      (s.arr 0).stopReq = none ∧ (s.arr 0).switchReq = none := by decide +kernel

def info5 : CtxInfo := { id := ⟨0, 5, false⟩, phys := 0, image := 0x200000, ocFirst := 0, ocUnits := 2, accFirst := 0, accCount := 2048, saved := true }
def arS (s : State) : State := { s with contexts := [info5] }
def arSw (s : State) : State := ((arS s).modArr 0 fun a => { a with switchReq := some info5.id }).setArrState 0 stSwitching

theorem witness_PreemptionAndRestore :
    (∀ s ∈ [arS arOpen, arS ar], s.alive = true ∧ (s.contexts.find? fun c => c.id.part == 0 && c.id.larray == 5 && c.phys == 0) = some info5 ∧
      s.arrState 0 ≠ stRetired ∧ s.arrState 0 ≠ stSwitching ∧ (s.arr 0).switchReq = none ∧ (s.arr 0).ident ≠ some info5.id ∧ (s.arr 0).stopReq = none) ∧
    ((arS arOpen).arr 0).cur = some grpA ∧ grpA.wait = none ∧ ((arS ar).arr 0).cur = none ∧ ((arS ar).arr 0).done = [] ∧ ((arS ar).arr 0).idle = true ∧
    (arSw ar).arrState 0 = stSwitching ∧ ((arSw ar).arr 0).switchReq = some info5.id ∧ ((arSw ar).ctxInfo info5.id).isSome = true ∧
      ((arSw ar).switchOut 0 info5.id).ctxInfo info5.id = some info5 ∧ (arSw ar).retireDue 0 = false ∧ info5.id.bubble = false ∧
      (arSw ar |>.arr 0).stopBit = false := by decide +kernel

def arSt (st : Nat) : State := (ar.setArrState 0 st).setF (Fld.ARR_PC_PC 0) 0x300

theorem witness_ArrayControl :
    (∀ st ∈ [stIdle, stStopped, stFaulted], (arSt st).writable (.core 0) (Reg.ARR_CTL 0) 4 = true ∧ (arSt st).sealBars (.core 0) 0 = false ∧
      (arSt st).arrAtRest 0 = true ∧ ((arSt st).arr 0).drains = [] ∧ (arSt st).claims = [] ∧
      (arSt st).imageOf 0 % gib + 0x9000 ≤ gib ∧ (arSt st).hbmRangeOk 0 ((arSt st).imageOf 0) 0x9000 = true) ∧
    (∀ s ∈ [ar, arOpen], s.writable (.core 0) (Reg.ARR_CTL 0) 4 = true ∧ s.sealBars (.core 0) 0 = false ∧ s.arrState 0 = stRunning ∧
      (s.arr 0).switchReq = none ∧ (s.arr 0).stopReq = none ∧ (s.arr 0).done = []) ∧
    (let s := (arSt stStopped).setF Fld.PWR_CFG_AUTO_IDLE 1
     s.writable (.core 0) (Reg.ARR_CTL 0) 4 = true ∧ s.flag Fld.PWR_CFG_AUTO_IDLE = true ∧ s.islandQuiet 0 = true ∧ s.domainRuns 0 = true ∧
       s.pow.autoIdle.contains 0 = false) := by decide +kernel

/-! ## Register access and the banks of the conduit block -/

def verdictWhole (s : State) (rq : Requester) (off width : Nat) : Bool :=
  match s.verdict rq off width with | .ok _ r .whole => r == off | _ => false
theorem exists_of_verdictWhole {s : State} {rq : Requester} {off width : Nat} (h : verdictWhole s rq off width = true) :
    ∃ d, s.verdict rq off width = .ok d off .whole := by
  unfold verdictWhole at h
  split at h
  · rename_i d r heq
    exact ⟨d, by rw [heq, (beq_iff_eq.mp h)]⟩
  · simp at h

theorem witness_RegisterWriteByFieldType :
    (∀ r ∈ [(Reg.TOP_EVT_DEST, 8), (Reg.TOP_DEVNUM, 4), (Reg.TOP_ACC_ERR, 8), (Reg.PWR_CFG, 4)],
      up.writable (.core 0) r.1 r.2 = true ∧ verdictWhole up (.core 0) r.1 r.2 = true ∧ (r.1 < 0x10000 ∨ 0x20000 ≤ r.1 ∧ r.1 < 0x30000)) ∧
    ∃ d, up.verdict (.core 0) Reg.TOP_EVT_DEST 8 = .ok d Reg.TOP_EVT_DEST .whole :=
  ⟨by decide +kernel, exists_of_verdictWhole (by decide +kernel)⟩

theorem witness_RegisterReadClears :
    (∀ r ∈ [(Reg.ARR_REPLAY 0, 4), (Reg.TOP_ACC_ERR, 8)], up.alive = true ∧ verdictWhole up (.core 0) r.1 r.2 = true ∧ up.sealHides (.core 0) r.1 = false) ∧
    ∃ d, up.verdict (.core 0) (Reg.ARR_REPLAY 0) 4 = .ok d (Reg.ARR_REPLAY 0) .whole :=
  ⟨by decide +kernel, exists_of_verdictWhole (by decide +kernel)⟩

/-- Function 0 reaches the device. -/
def upF : State := ({ up with host := { up.host with perst := false } }).setFs [(Fld.PCI_LINK_UP, 1)]

theorem witness_BadAccessHasNoEffect :
    (upF.alive = true ∧ badAccess upF (.fn 0) 0x41 4 ∧ reachesSpace upF (.fn 0) 0x41) ∧
    (badAccess upF .sinter Reg.TOP_EVT_DEST 2 ∧ reachesSpace upF .sinter Reg.TOP_EVT_DEST) := by
  refine ⟨⟨by decide +kernel, Or.inl (by decide), ?_⟩, Or.inr ?_, trivial⟩
  · exact ⟨by decide +kernel, by decide +kernel, by decide +kernel⟩
  · exact ⟨_, Reg.TOP_EVT_DEST, rfl, by decide +kernel, by decide +kernel, by decide +kernel, by decide, by decide⟩

def bankHyp (s : State) (c : Nat) (x : Cnd) : Bool :=
  s.writable (.core 0) (Reg.CND_CMD 0) 4 && decide (s.cndGet c = x) && x.valid && decide (x.owner = 0) && x.ledgerOk && decide (x.home < 4) &&
  !s.cndHeld c && s.cndCached c && s.cnd.waiters.isEmpty && canon s

theorem witness_BankPostsAndTakes :
    (bankHyp (withCnd up (cnd1 0 15)) 5 (cnd1 0 15) = true ∧ 0 < (cnd1 0 15).free ∧ (cnd1 0 15).slot 15 % gib + 64 ≤ gib ∧
      (withCnd up (cnd1 0 15)).hbmRangeOk 0 ((cnd1 0 15).slot 15) 64 = true) ∧
    (∀ k ∈ [0, 2, 3], bankHyp (withCnd up (cnd1 k 1)) 5 (cnd1 k 1) = true ∧ 0 < (cnd1 k 1).occupied) := by decide +kernel

theorem witness_ConduitFlush :
    (withCnd up (cnd1 0 2)).writable (.core 0) Reg.CND_FLUSH 4 = true ∧ (withCnd up (cnd1 0 2)).cnd.waiters = [] ∧
    (withCnd up (cnd1 0 2)).cndCached 5 = true := by decide +kernel

/-! ## Events, HBM, geysers and remote operations -/

def postHyp (s : State) (c : Nat) : Bool :=
  let x := s.cndGet c
  decide (c < conduitCount) && x.valid && x.ledgerOk && decide (x.home < 4) && decide (x.owner < 64) && !s.cndHeld c && s.cndCached c &&
  s.cnd.waiters.isEmpty && canon s && decide (x.slot x.prod % gib + 64 ≤ gib) && s.hbmRangeOk x.owner (x.slot x.prod) 64
theorem postable_of {s : State} {c : Nat} (h : postHyp s c = true) : postable s c := by
  simp only [postHyp, Bool.and_eq_true, decide_eq_true_eq, Bool.not_eq_true', List.isEmpty_iff] at h
  obtain ⟨⟨⟨⟨⟨⟨⟨⟨⟨⟨h1, h2⟩, h3⟩, h4⟩, h5⟩, h6⟩, h7⟩, h8⟩, h9⟩, h10⟩, h11⟩ := h
  exact ⟨h1, h2, h3, h4, h5, h6, h7, h8, canonical_of_canon h9, h10, h11⟩
theorem unwatched_of {s : State} (h : ((List.range 4).all fun j => !s.bankEnabled j) = true) (ha : s.arrays = []) : unwatched s := by
  refine ⟨fun j hj => ?_, fun n => by simp [State.arr, ha, Sparse.get, arrDefault, Arr.initial]⟩
  have := List.all_eq_true.mp h j (List.mem_range.mpr hj)
  simpa using this

def rec1 : EvtRec :=
  { ord := 0, time := 5, source := 0x4001, part := 0xFF, cls := 0, code := 0x8001, flags := 0, count := 1, addr := 0, detail := List.replicate 8 3 }
/-- Conduit 5 is the event conduit of partition 0 and of the device; one record of source 0x4001 waits. -/
def upE (p : Nat) : State :=
  ({ withCnd up (cnd1 3 p) with streams := [⟨0x4001, .device, [rec1], 0⟩], seqs := [⟨0x4001, 5, 4294967295⟩] }).setFs
    [(Fld.TOP_EVT_DEST_ENABLE, 1), (Fld.TOP_EVT_DEST_CONDUIT, 5), (Fld.PRT_EVT_VALID 0, 1), (Fld.PRT_EVT_CONDUIT 0, 5)]

theorem witness_EventPostAndDiscard :
    (∀ p ∈ [3, 16], (upE p).alive = true ∧ (upE p).stream 0x4001 .device = some ⟨0x4001, .device, [rec1], 0⟩ ∧
      ((upE p).streams.any fun x => decide (x.dest = .part 0)) = false ∧ (upE p).seqOf 0x4001 5 = 4294967295 ∧
      (upE p).evtConduit .device rec1 = some 5 ∧ (upE p).evtWaits rec1 = false ∧ rec1.code ≠ 0x0006) ∧
    (postable (upE 3) 5 ∧ (upE 3).flag (Fld.PRT_EVT_NOTIFY 0) = false ∧ 0 < ((upE 3).cndGet 5).free) ∧
    ((upE 16).cndGet 5).free = 0 ∧ rec1.time + 100000 < (upE 16).time :=
  ⟨by decide +kernel, ⟨postable_of (by decide +kernel), by decide +kernel, by decide +kernel⟩, by decide +kernel⟩

theorem witness_HbmLineAccess :
    up.alive = true ∧ up.hbmPhys 0 (0x40010 / 64 * 64) = some 0x40000 ∧ getBool up.mem.poison (0x40000 / 64) = false ∧
    getBool up.mem.badTag (0x40000 / 64) = false ∧ up.Canonical :=
  ⟨by decide +kernel, by decide +kernel, by decide +kernel, by decide +kernel, canonical_of_canon (by decide +kernel)⟩

/-- The scrubber of stack 1 runs, and segment 127 of it is being copied from. -/
def upS : State := ({ up with mem := { up.mem with copying := [(1, 127)] } }).setFs [(Fld.HBM_SCRUB_CFG_PERIOD 1, 100)]

theorem witness_ScrubAndRetirement :
    upS.alive = true ∧ upS.Canonical ∧
    (let pa := 1 * 2 ^ 36 + 5 * 64 % 2 ^ 36
     upS.getF (Fld.HBM_SCRUB_CFG_PERIOD 1) ≠ 0 ∧ getBool upS.mem.lostSeg (pa / gib) = false ∧ upS.flag (Fld.HBM_STATUS_SELF_REFRESH 1) = false ∧
     getBool upS.mem.poison (pa / 64) = false ∧ getBool upS.mem.badTag (pa / 64) = false ∧
     upS.upsets (keyPcCe 1 (upS.pcOf pa)) + 1 < upS.getF Fld.LOG_THR1_PC_CE ∧
     upS.upsets (keyPcUe 1 (upS.pcOf pa)) + 1 < upS.getF Fld.LOG_THR1_PC_UE) ∧
    ((upS.mem.copying.find? fun c => c.1 == 1) = some (1, 127) ∧ getBool upS.mem.lostSeg 127 = false ∧
      upS.flag (Fld.PRT_SEG_OWNER_WITHHELD 127) = false) ∧ upS.flag (Fld.HBM_STATUS_RETIRED 1) = false :=
  ⟨by decide +kernel, canonical_of_canon (by decide +kernel), by decide +kernel, by decide +kernel, by decide +kernel⟩

/-- Increments of two domains under way. -/
def up2 : State := { up with gey := { up.gey with inflight := [NetWord.increment 40 9 3, NetWord.increment 84 4 1] } }

/-- Geyser 9: two increments in flight, COUNT 5, TARGET as given, armed or not. -/
def upG (target period : Nat) (armed : Nat) : State :=
  ({ up with gey := { up.gey with inflight := [NetWord.increment 40 9 3, NetWord.increment 40 4 1] } }).setFs
    [(Fld.GEY_COUNT_COUNT 9, 5), (Fld.GEY_TARGET_TARGET 9, target), (Fld.GEY_ACT0_PERIOD 9, period), (Fld.GEY_ACT0_ARMED 9, armed)]

theorem witness_GeyserCounts :
    (∀ s ∈ [upG 0 0 0, upG 9 0 1, upG 8 0 1, upG 8 7 1], s.alive = true ∧ s.gey.inflight = NetWord.increment 40 9 3 :: [NetWord.increment 40 4 1]) ∧
    unwatched (upG 8 0 1) ∧ (upG 0 0 0).flag (Fld.GEY_ACT0_ARMED 9) = false ∧ (5 + 3 : Word64).toNat < 9 ∧
    (∀ s ∈ [upG 8 0 1, upG 8 7 1], s.flag (Fld.GEY_ACT0_ARMED 9) = true ∧ s.pendingOf 9 = 0 ∧ s.flag (Fld.GEY_ACT0_POST 9) = false ∧
      s.flag (Fld.GEY_ACT0_RINC 9) = false ∧ s.flag (Fld.GEY_ACT0_IRQ 9) = false ∧ s.flag (Fld.GEY_ACT0_WAKE 9) = false) ∧
    (upG 8 7 1).writable (.core 0) (Reg.GEY_COUNT 9) 8 = true ∧ (upG 8 7 1).writable (.core 0) (Reg.GEY_TARGET 9) 8 = true :=
  ⟨by decide +kernel, unwatched_of (by decide +kernel) rfl, by decide +kernel, by decide, by decide +kernel, by decide +kernel, by decide +kernel⟩

theorem witness_GeyserCounts_two_domains : up2.alive = true ∧ up2.gey.inflight ≠ [] ∧
    (∀ e ∈ up2.gey.inflight, ∃ d g x, e = NetWord.increment d g x ∧ g < 65536 ∧ up2.flag (Fld.GEY_ACT0_ARMED g) = false) := by
  refine ⟨by decide +kernel, by simp [up2], ?_⟩
  intro e he
  simp only [up2, List.mem_cons, List.not_mem_nil, or_false] at he
  rcases he with rfl | rfl
  · exact ⟨40, 9, 3, rfl, by decide, by decide +kernel⟩
  · exact ⟨84, 4, 1, rfl, by decide, by decide +kernel⟩

def fire1 : Firing := { gey := 9, count := 8, target := 8, time := 77, cnd := some 5, posted := false }
def upP : State := { withCnd up (cnd1 0 3) with gey := { up.gey with pending := [fire1] } }

theorem witness_GeyserPostProceeds :
    upP.alive = true ∧ upP.gey.pending = [fire1] ∧ postable upP 5 ∧ (upP.cndGet 5).owner = upP.geyOwner 9 ∧ (upP.cndGet 5).kind = 0 ∧
    0 < (upP.cndGet 5).free ∧ upP.flag (Fld.GEY_ACT0_RINC 9) = false ∧ upP.flag (Fld.GEY_ACT0_IRQ 9) = false ∧ upP.flag (Fld.GEY_ACT0_WAKE 9) = false :=
  ⟨by decide +kernel, by decide +kernel, postable_of (by decide +kernel), by decide +kernel, by decide +kernel, by decide +kernel, by decide +kernel,
   by decide +kernel, by decide +kernel⟩

/-- Conduit 6 holds one GEY.INC entry for geyser 9 of device `dev`, with completions to conduit 7; the transport is on. -/
def entry1 (dev : Nat) : List Byte := rmoBytes 0x10 0 0 0 0 (dev * 2 ^ 56 + geySpace + 9 * 32) 0 4 0 7 0
def upR (dev : Nat) : State :=
  let s := withCnd up (cnd1 0 0)
  ({ s with cnd := { s.cnd with cache := [(6, { cnd1 1 1 with ring := 0x20000 }), (7, { cnd1 2 0 with ring := 0x30000 })] } }.hbmWrite 0 0x20000
    (entry1 dev)).setFs [(Fld.CND_ZRT_CFG_ENABLE, 1), (Fld.TOP_DEVNUM_DEVNUM, 1)]
def upPath (s : State) (d v : Nat) : State := s.setPath d v { s.path d v with valid := true, state := stUp, rvent := v, window := 64, ip := List.replicate 16 0, rate := 100 }

def takeHyp (s : State) : Bool :=
  let o := entryOp s.rmo.nextId 6 0 0 (.host 0) none (s.cndHead 6)
  postHyp s 6 && decide ((s.cndGet 6).kind = 1) && decide (0 < (s.cndGet 6).occupied) && decide (s.getF (Fld.CND_RMO_OUT_COUNT 0) < 32768) &&
  s.rmo.queued.isEmpty && s.rmo.closing.isEmpty && !s.unsentOf 6 && decide (o.opc = opcGinc)
/-- The operation's outcome was known at its release. -/
def fated : RmoQueued := { id := 3, cnd := 6, src := .array 0, cc := some 7, released := 0, fate := some (rsUnreachable, 0) }

theorem witness_RemoteOperations_take :
    (takeHyp (upR 1) = true ∧ (entryOp 0 6 0 0 (.host 0) none ((upR 1).cndHead 6)).dev = (upR 1).ownDev ∧ unwatched (upR 1) ∧
      (upR 1).destCheck 1 0 opcGinc (2 ^ 56 + geySpace + 288) 4 = none ∧ (upR 1).flag (Fld.GEY_ACT0_ARMED 9) = false) ∧
    (∀ s ∈ [upR 2, upPath (upR 2) 2 3], takeHyp s = true ∧ (entryOp 0 6 0 0 (.host 0) none (s.cndHead 6)).dev ≠ s.ownDev ∧ s.netBarred 0 = false ∧
      s.flag Fld.TOP_DEVNUM_VALID = true ∧ s.zrtOn = true) ∧
    (upR 2).streamVent 6 2 = none ∧ (upPath (upR 2) 2 3).streamVent 6 2 = some 3 ∧
    (let s := upR 2
     let t := { s with rmo := { s.rmo with queued := [fated] } }
     postHyp t 6 = true ∧ t.rmo.queued = [fated] ∧ t.unsentOf 6 = false ∧ fated.fate = some (rsUnreachable, 0)) :=
  ⟨⟨by decide +kernel, by decide +kernel, unwatched_of (by decide +kernel) (by decide +kernel), by decide +kernel, by decide +kernel⟩, by decide +kernel, by decide +kernel,
   by decide +kernel, by decide +kernel⟩

/-- An operation of conduit 6 with the status as given is outstanding. -/
def op1 (st : Option Nat) : RmoOp := { entryOp 11 6 0 0 (.host 0) (some 7) (entry1 2) with status := st }
def upO (st : Option Nat) : State := let s := upR 2; { s with rmo := { s.rmo with ops := [op1 st] } }

theorem witness_RemoteOperations_complete :
    (∀ st ∈ [some rsOk, none], ((upO st).rmo.ops.find? fun y => y.id == 11) = some (op1 st)) ∧
    ((upO (some rsOk)).streamBusy (op1 (some rsOk)) = false ∧ (op1 (some rsOk)).src = .host 0 ∧ (op1 (some rsOk)).cc = some 7 ∧ (op1 (some rsOk)).eng < 4 ∧
      postable (upO (some rsOk)) 7 ∧ fieldOf (op1 (some rsOk)).cw 20 1 = 0) ∧ (op1 none).dev ≠ (upO none).ownDev :=
  ⟨by decide +kernel, ⟨by decide +kernel, by decide +kernel, by decide +kernel, by decide +kernel, postable_of (by decide +kernel), by decide +kernel⟩, by decide +kernel⟩

/-! ## Remote transport -/

def seg1 (kind op : Nat) : ZrtSeg :=
  { kind, sub := 0, part := 0, first := true, last := true, opId := op, addr := dw (2 ^ 56 + geySpace + 9 * 32), len := 8, off := 0, operand := 6,
    data := [], marks := [] }
def un1 : Unacked := { psn := 7, segs := [seg1 4 3], sentAt := 900000, resent := false }
/-- The path from device 2 at vent 3, in the state given; it has sent `u` and has yet to send `q`. -/
def upZ (valid : Bool) (st : Nat) (u : List Unacked) (q : List ZrtSeg) : State :=
  (upR 2).setPath 2 3
    { (upR 2).path 2 3 with
      valid := valid, state := st, rvent := 4, window := 64, rate := 100, epoch := 9, rxApplied := 20, txNext := 8, ackDue := some 5,
      unacked := u, sendq := q, ip := List.replicate 16 0 }
def frame1 (psn : Nat) (b : ZrtBody) : ZrtFrame :=
  { sumOk := true, versionOk := true, ce := false, ecnEcho := false, ackNow := false, retx := false, src := 2, dst := 1, svent := 4, rvent := 3,
    group := 0, epoch := 9, psn, ackPsn := 7, ts := 55, tsEcho := 0, body := b }
def arrivesHyp (s : State) (f : ZrtFrame) : Bool := s.alive && decide (f.src < 256) && s.zrtOn && decide (s.zrtCheck 3 f = none)
theorem arrives_of {s : State} {f : ZrtFrame} (h : arrivesHyp s f = true) : arrives s 3 f := by
  simp only [arrivesHyp, Bool.and_eq_true, decide_eq_true_eq] at h
  exact ⟨h.1.1.1, by decide, h.1.1.2, h.1.2, h.2⟩

theorem witness_PathSendsData :
    let s := upZ true stUp [un1] [seg1 4 3, seg1 4 5]
    s.alive = true ∧ s.zrtOn = true ∧ (s.path 2 3).usable = true ∧ (s.path 2 3).again = [] ∧ (s.path 2 3).sendq ≠ [] ∧
    (s.path 2 3).unacked.length < (s.path 2 3).window ∧ (s.path 2 3).nextSend ≤ s.time := by decide +kernel

theorem witness_DataFramesAndAcks :
    let s := (upZ true stUp [] []).setFs [(Fld.CND_ZRT_POOL_SLOTS, 4), (Fld.PRT_PEER_PEERS 0 0, 4)]
    ((∀ f ∈ [frame1 21 (.data [seg1 4 3]), frame1 20 (.data [seg1 4 3]), frame1 22 (.data [seg1 4 3])], arrivesHyp s f = true) ∧
      (s.path 2 3).state = stUp ∧ (s.path 2 3).epoch = 9 ∧ (s.path 2 3).unacked = [] ∧ (s.path 2 3).pool = [] ∧
      21 = serialSucc (s.path 2 3).rxApplied ∧ s.destCheck 2 0 opcGinc (seg1 4 3).addr.toNat 8 = none ∧
      (fabLocal (seg1 4 3).addr.toNat - geySpace) / 32 = 9 ∧ s.flag (Fld.GEY_ACT0_ARMED 9) = false ∧
      serialLe 20 (s.path 2 3).rxApplied = true ∧ serialLe 22 (s.path 2 3).rxApplied = false ∧
      (22 + 2 ^ 32 - (s.path 2 3).rxApplied) % 2 ^ 32 ≤ (s.path 2 3).window ∧
      (s.rmo.paths.map fun (e : Nat × Path) => e.2.pool.length).foldl (· + ·) 0 < s.getF Fld.CND_ZRT_POOL_SLOTS) ∧ unwatched s ∧
    (let s := upZ true stUp [un1] []
     arrivesHyp s (frame1 0 (.ack [])) = true ∧ (s.path 2 3).unacked = [un1] ∧ serialLe 7 7 = true) :=
  ⟨by decide +kernel, unwatched_of (by decide +kernel) (by decide +kernel), by decide +kernel⟩

def closing1 : Closing := { dev := 2, vent := 3, epoch := 8, rxApplied := 19, unacked := [], sendq := [], sent := true, settled := false }
def upC : State := let s := upZ true stOpening [] []; { s with rmo := { s.rmo with closing := [closing1] } }
theorem witness_PathFrames :
    (∀ b ∈ [.opening 77 9, .openAck 77 9, .close 4 3 8 0, .closeAck 3 4 8 0, .probe, .probeReply], arrivesHyp upC (frame1 0 b) = true) ∧
    (upC.path 2 3).peerBoot = 0 ∧ (upC.path 2 3).state ≠ stUp ∧ upC.rmo.closing = [closing1] := by decide +kernel

theorem witness_PathTimers :
    (∀ s ∈ [upZ true stUp [un1] [], upZ true stOpening [] [], upZ true stUp [] []], s.alive = true ∧ s.zrtOn = true ∧ (s.path 2 3).valid = true ∧
      (s.path 2 3).ackDue.isSome = true) ∧
    (let s := (upZ true stUp [un1] []).setFs [(Fld.CND_ZRT_LIMITS_RETRY_MAX, 8)]
     (s.path 2 3).state = stUp ∧ (s.path 2 3).shut = false ∧ (s.path 2 3).lastAckAdvance + (s.path 2 3).rto ≤ s.time ∧ (s.path 2 3).nextSend ≤ s.time ∧
      (s.path 2 3).unacked = [un1] ∧ (s.path 2 3).expiries + 1 < s.getF Fld.CND_ZRT_LIMITS_RETRY_MAX) ∧
    (let s := (upZ true stUp [un1] []).setFs [(Fld.CND_ZRT_LIMITS_RETRY_MAX, 1)]
     s.alive = true ∧ (s.path 2 3).unacked = [un1] ∧ s.getF Fld.CND_ZRT_LIMITS_RETRY_MAX ≤ (s.path 2 3).expiries + 1) ∧
    ((upZ true stOpening [] []).path 2 3).state = stOpening ∧ ((upZ true stDown [] []).path 2 3).state = stDown ∧
    ((upZ true stUp [] []).path 2 3).unacked = [] ∧ ((upZ true stUp [] []).path 2 3).sendq = [] := by decide +kernel

theorem witness_PathEntries :
    (let s := upZ false stClosed [] []
     let s := s.hbmWrite 0 (s.pathAddr 2 3) [1]
     s.alive = true ∧ (s.path 2 3).valid = false ∧ bits ((readBytes s.mem.hbm (s.pathAddr 2 3) 64).headD 0).toNat 0 1 = 1) ∧
    ((upZ true stUp [un1] []).path 2 3).valid = true := by decide +kernel

/-- A frame with every field at its highest value, and a segment of three bytes of data with a poisoned line. -/
def zTop : ZrtFrame :=
  { sumOk := true, versionOk := true, ce := false, ecnEcho := true, ackNow := false, retx := true, src := 255, dst := 254, svent := 15, rvent := 1,
    group := 2 ^ 32 - 1, epoch := 2 ^ 32 - 2, psn := 2 ^ 32 - 3, ackPsn := 0x01020304, ts := 5, tsEcho := 6, body := .data [seg1 4 3] }
def segTop : ZrtSeg := { seg1 255 (2 ^ 32 - 1) with sub := 255, part := 63, last := false, data := [1, 2, 3], marks := [0] }
theorem witness_ZrtFrameBytes :
    (zTop.src < 256 ∧ zTop.dst < 256 ∧ zTop.svent < 16 ∧ zTop.rvent < 16 ∧ zTop.body.sacks ≤ 4 ∧ zTop.body.toBytes.length < 65536 ∧
      zTop.group < 2 ^ 32 ∧ zTop.epoch < 2 ^ 32 ∧ zTop.psn < 2 ^ 32 ∧ zTop.ackPsn < 2 ^ 32 ∧ zTop.ts < 2 ^ 32 ∧ zTop.tsEcho < 2 ^ 32) ∧
    (segTop.kind < 256 ∧ segTop.sub < 256 ∧ segTop.part < 256 ∧ segTop.opId < 2 ^ 32 ∧ segTop.len < 2 ^ 32 ∧ segTop.off < 2 ^ 32) := by decide +kernel

/-! ## Plumes -/

def bucket1 : PlmBucket := { elems := 2100, contrib := 0x100000, out := 0x110000, home := 0x120000, stage := 0x130000, target := 1, gey := 200 }
/-- A ring of `n` positions, of which this device is position `me`, with one bucket and a program of one operation. -/
def desc1 (n me : Nat) (sharded : Bool) (o : PlmOp) : PlmDesc :=
  { npos := n, mypos := me, elemFmt := 0, carryFmt := 0, outFmt := 0, carry := true, sharded := sharded, ncnd := 1, nslot := 2, log2seg := 16,
    wfmt := 0, geyBase := 100, id := 77, cpl := 5, bstatus := 0x140000, vtable := 0x150000, staging := 0x200000, reducers := [6, 7], cnds := [6],
    ring := (List.range n).map fun i => (if i = me then 1 else 10 + i, 0), buckets := [bucket1], ops := [o] }
def op2 (op value : Nat) : PlmOp := { op, flags := 0, first := 0, count := 1, gey := 150, value := dw value, addr := 0x160000, tag := 9 }
def plm1 (d : PlmDesc) : Plume := { Plume.none with desc := d, stepStart := 4, budget := 10, handled := [0] }
/-- Slot 3 runs `p` for partition 0 in its second step; conduit 5, which takes its records, is full; the geysers named count as given. -/
def upQ (p : Plume) (counts : List (Nat × Nat)) : State :=
  ((withCnd up (cnd1 0 16)).setPlume 3 p).setFs ([(Fld.TOP_DEVNUM_DEVNUM, 1), (Fld.PLM_OWNER_VALID 3, 1), (Fld.PLM_STATUS_STATE 3, plRunning),
    (Fld.PLM_STEP_STEP 3, 5)] ++ counts.map fun e => (Fld.GEY_COUNT_COUNT e.1, e.2))

def calmHyp (s : State) : Bool :=
  let p := s.plume 3
  let c := p.desc.cpl
  s.alive && s.plmActive 3 && p.awaited.isEmpty && p.ctl.isEmpty && p.segs.isEmpty && p.records.isEmpty && p.owed.isEmpty &&
  p.owedRecords.isEmpty && p.rejoins.isEmpty && decide (p.armed = none) &&
  !p.permuting && !p.fresh && s.plmCplOk (s.plmOwner 3) c && s.cndCached c && decide ((s.cndGet c).free = 0)
theorem calm_of {s : State} (h : calmHyp s = true) : plumeCalm s 3 := by
  simp only [calmHyp, Bool.and_eq_true, decide_eq_true_eq, Bool.not_eq_true', List.isEmpty_iff] at h
  obtain ⟨⟨⟨⟨⟨⟨⟨⟨⟨⟨⟨⟨⟨⟨h1, h2⟩, h3⟩, h4⟩, h5⟩, h6⟩, o1⟩, o2⟩, o3⟩, h7⟩, h8⟩, h9⟩, h10⟩, h11⟩, h12⟩ := h
  exact ⟨h1, by decide, h2, h3, h4, h5, h6, o1, o2, o3, h7, h8, h9, h10, h11, .inr h12⟩
def nextHyp (s : State) (op : Nat) : Bool :=
  let p := s.plume 3
  calmHyp s && p.runs.isEmpty && decide (p.next < p.desc.ops.length) && decide ((p.desc.op p.next).op = op) && decide (s.mappedReducers 3 ≠ [])
theorem next_of {s : State} {op : Nat} (h : nextHyp s op = true) : plumeNext s 3 op := by
  simp only [nextHyp, Bool.and_eq_true, decide_eq_true_eq, List.isEmpty_iff] at h
  exact ⟨calm_of h.1.1.1.1, h.1.1.1.2, h.1.1.2, h.1.2, h.2⟩
/-- The operation alone on a ring of one position, and on one of three. -/
def alone (op value : Nat) (counts : List (Nat × Nat)) : State := upQ (plm1 (desc1 1 0 false (op2 op value))) counts
def ring3 (op value : Nat) (counts : List (Nat × Nat)) : State := upQ (plm1 (desc1 3 1 false (op2 op value))) counts
/-- No deadline. -/
def unbudgeted (op : Nat) : State := upQ { plm1 (desc1 1 0 false (op2 op 0)) with budget := 0 } []
def gathering : PlmRun := { startingRun (ring3 3 0 []) 3 none with asked := [(0, 0), (0, 2)] }
def reshard1 : PlmReshard := { id := 6, ring := [(1, 0), (12, 0)], newPos := 0, sources := [(10, 0), (1, 0), (12, 0)], arrays := [] }

theorem witness_PlumeProgram :
    (∀ op ∈ [1, 2, 4, 6, 9, 10, 11, 12, 13], nextHyp (alone op 0 []) op = true) ∧ (∀ op ∈ [3, 5, 7, 8], nextHyp (ring3 op 0 []) op = true) ∧
    (∀ op ∈ [9, 6], (alone op 1 [(150, 2)]).plmReached 3 (startingRun (alone op 1 [(150, 2)]) 3 none) 150 1 = true ∧ nextHyp (alone op 1 [(150, 2)]) op = true) ∧
    ((alone 11 0 []).vPrevValid 3 0 = false ∧ (op2 11 0).buckets = [0] ∧ canon (alone 11 0 []) = true ∧ (alone 11 0 []).vAddr 3 0 % gib + 64 ≤ gib ∧
      (alone 11 0 []).hbmRangeOk ((alone 11 0 []).plmOwner 3) ((alone 11 0 []).vAddr 3 0) 64 = true) ∧
    (∀ op ∈ [1, 4], nextHyp (unbudgeted op) op = true ∧ ((unbudgeted op).plume 3).budget = 0 ∧ (op2 op 0).buckets = [0] ∧
      (unbudgeted op).flag (Fld.LOG_REPLAY_ENABLE ((unbudgeted op).plmOwner 3)) = false ∧
      (unbudgeted op).plmReached 3 (startingRun (unbudgeted op) 3 none) 200 1 = false) ∧
    ((ring3 3 0 []).vStale 3 0 0 = false ∧ (ring3 3 0 []).vStale 3 0 1 = false ∧ (ring3 3 0 []).vStale 3 0 2 = false) ∧
    (fieldOf (dw 0) 0 16 ≠ 1 ∧ 0 < (desc1 3 1 false (op2 5 0)).size 0 0) ∧
    ((10, 0) ∈ ((ring3 8 0 []).plume 3).desc.ring ++ reshard1.ring ∧ (10, 0) ≠ ((ring3 8 0 []).plume 3).desc.at' 1) ∧
    (let s := upQ { plm1 (desc1 3 1 true (op2 3 0)) with runs := [gathering] } []
     calmHyp s = true ∧ (s.plume 3).runs = [gathering] ∧ gathering.asked = [(0, 0), (0, 2)]) := by decide +kernel

/-- The descriptor of slot 3 in memory at 0x300000, with its ring, bucket and program behind it. -/
def upD (p : Plume) (st : Nat) : State :=
  ((upQ p []).hbmWrite 0 0x300000 (toLe 2 1 ++ toLe 2 1 ++ toLe 2 0 ++ toLe 1 0 ++ toLe 1 0 ++ toLe 2 1 ++ toLe 1 1 ++ toLe 1 2 ++ toLe 1 16 ++ toLe 1 0 ++
    toLe 2 100 ++ toLe 4 77 ++ toLe 4 5 ++ toLe 8 0x300100 ++ toLe 8 0x300140 ++ toLe 8 0x140000 ++ toLe 8 0x150000 ++ toLe 8 0x300180 ++ toLe 2 1 ++ toLe 6 0 ++
    toLe 8 0x200000 ++ toLe 16 0xC0 ++ toLe 4 6 ++ toLe 156 0 ++
    toLe 64 1 ++ toLe 8 2100 ++ toLe 8 0x100000 ++ toLe 8 0x110000 ++ toLe 8 0x120000 ++ toLe 8 0x130000 ++ toLe 8 1 ++ toLe 16 200 ++
    toLe 1 13 ++ toLe 31 0)).setFs [(Fld.PLM_DESC_BASE 3, 0x3000), (Fld.PLM_STATUS_STATE 3, st)]

theorem witness_PlumeStartAndEnd :
    (let s := upD Plume.none plIdle
     let x := s.readPlume (s.plmOwner 3) (s.getF (Fld.PLM_DESC_BASE 3) * 256)
     s.alive = true ∧ s.writable (.core 0) (Reg.PLM_CTL 3) 4 = true ∧ s.plmActive 3 = false ∧ s.flag (Fld.PLM_OWNER_VALID 3) = true ∧
     s.plmDescOk (s.plmOwner 3) x.1 x.2 = true ∧ x.2.npos = 1 ∧ (s.plume 3).joins = [] ∧
     (∀ i ∈ List.range 48, s.flag (Fld.GEY_ACT0_ARMED (x.2.geyBase + i)) = false)) ∧ unwatched (upD Plume.none plIdle) ∧
    (let s := upQ (plm1 (desc1 1 0 false (op2 1 0))) []
     s.writable (.core 0) (Reg.PLM_CTL 3) 4 = true ∧ s.plmActive 3 = true) ∧
    (let s := { upQ { plm1 { desc1 3 1 false (op2 1 0) with cnds := [5] } with awaited := [2] } [] with time := 10 ^ 9 }
     s.alive = true ∧ s.plmHopLimit 3 ≤ s.time ∧ s.plmActive 3 = true ∧ (s.plume 3).awaited = [2] ∧ ((s.plume 3).runs = [] ∧ (s.plume 3).ctl = [] ∧ (s.plume 3).segs = [] ∧
       (s.plume 3).records = [] ∧ (s.plume 3).armed = none) ∧ (s.cndGet ((s.plume 3).desc.cnds.getD 0 0)).free = 0) :=
  ⟨by decide +kernel, unwatched_of (by decide +kernel) (by decide +kernel), by decide +kernel, by decide +kernel⟩

def run0 (d : PlmDesc) : PlmRun := startingRun (upQ (plm1 d) []) 3 none
def dec1 (d : PlmDesc) : PlmRun := { run0 d with decided := [(0, true)] }
def tag1 : PlmTag := { id := 77, kind := 1, opix := 0, bucket := 0, step := 5, first := 0, count := 300, hops := 1, chunk := 0, version := 0 }
def work1 : PlmWork := { larray := 6, tag := tag1, acc := List.replicate 300 0x3F800000, marks := [], rep := none, done := 0, cnd := 0 }
/-- A segment lies in slot 1 of conduit 0 of the ring of three. -/
def upSeg : State :=
  (upQ { plm1 (desc1 3 1 false (op2 1 0)) with runs := [dec1 (desc1 3 1 false (op2 1 0))] } [(108, 1)]).hbmWrite 0 (0x200000 + (64 + 2 ^ 16))
    (toLe 4 77 ++ toLe 1 1 ++ toLe 1 0 ++ toLe 2 0 ++ toLe 8 5 ++ toLe 8 0 ++ toLe 4 300 ++ toLe 4 1)
def upPrev : State := upQ (plm1 (desc1 3 1 false (op2 1 0))) [(100, 3)] |>.hbmWrite 0 (0x150000 + 16) [2]

theorem witness_PlumeEvents :
    (let s := upSeg
     let p := s.plume 3
     let t0 := PlmTag.ofBytes (s.hbmRead (s.plmOwner 3) (p.desc.slotOff 0 1) 64)
     s.alive = true ∧ s.plmActive 3 = true ∧ p.awaited = [] ∧ p.ctl = [] ∧ p.segs = [] ∧ p.records = [] ∧ 0 < p.handled.length ∧
     p.handled.getD 0 0 < (s.geyCount (p.desc.geyBase + 8 + 0)).toNat ∧ t0.id = p.desc.id ∧
     (p.runs.find? fun r => p.desc.takes t0 r) = some (dec1 p.desc) ∧ t0.kind = 1 ∧ ((dec1 p.desc).decision t0.bucket).isSome = true ∧
     s.mappedReducers 3 ≠ []) ∧
    (let s := upQ { plm1 (desc1 3 1 false (op2 1 0)) with runs := [dec1 (desc1 3 1 false (op2 1 0))], work := [work1] } []
     let d := (s.plume 3).desc
     ((s.plume 3).runs.find? fun r => d.takes work1.tag r) = some (dec1 d) ∧ work1.done + min (addsPerCycle d.carryFmt) (work1.acc.length - work1.done) < work1.acc.length) ∧
    (let s := upQ { plm1 (desc1 3 1 false (op2 1 0)) with runs := [run0 (desc1 3 1 false (op2 1 0))] } []
     let p := s.plume 3
     p.runs = [run0 p.desc] ∧ s.plmDeadline 3 ≤ s.time ∧ (run0 p.desc).recorded = [] ∧ (run0 p.desc).ready = [] ∧ (p.desc.op (run0 p.desc).ix).buckets = [0] ∧ (run0 p.desc).decision 0 = none ∧ p.budget ≠ 0 ∧
     s.flag (Fld.LOG_REPLAY_ENABLE (s.plmOwner 3)) = false ∧ s.plmReached 3 (run0 p.desc) (p.desc.bucket 0).gey (dw (p.desc.bucket 0).target) = false ∧
     2 ≤ p.desc.npos ∧ 0 < p.desc.size 0 p.desc.mypos) ∧
    (let s := upQ (plm1 (desc1 3 1 false (op2 1 0))) []
     (s.plume 3).status = [] ∧ (s.plume 3).runs = [] ∧ s.serveFrom 3 0 99 = none) ∧
    (let s := upPrev
     s.vPrevValid 3 0 = true ∧ s.vRefs 3 0 = 0 ∧ 3 * Sparse.get natDefault (s.plume 3).flips 0 ≤ (s.geyCount 100).toNat ∧
     s.vAddr 3 0 % gib + 64 ≤ gib ∧ s.hbmRangeOk (s.plmOwner 3) (s.vAddr 3 0) 64 = true ∧ canon s = true) := by decide +kernel

/-! ## Step banks, the log and what survives a failure -/

/-- Bank 2 of partition 0 in the state given: BEGIN at geyser 300 (one more than begun), COMMIT 301, NAY 302, ABORT 303, DONE 304, markers from 310. -/
def upB (en st : Nat) (ph : Option Nat) : State :=
  ({ up with banks := [(2, ⟨4, 0, 0, 3, ph⟩)] }).setFs [(Fld.PRF_STEP_OWNER_VALID 2, 1), (Fld.PRF_STEP_CFG_ENABLE 2, en), (Fld.PRF_STEP_STATUS_STATE 2, st),
    (Fld.PRF_STEP_GEY_BEGIN_GEY 2, 300), (Fld.PRF_STEP_GEY_COMMIT_GEY 2, 301), (Fld.PRF_STEP_GEY_NAY_GEY 2, 302), (Fld.PRF_STEP_GEY_ABORT_GEY 2, 303),
    (Fld.PRF_STEP_MARK_DONE_GEY 2, 304), (Fld.PRF_STEP_MARK_MARK_BASE 2, 310), (Fld.GEY_COUNT_COUNT 300, 5), (Fld.PRF_STEP_TAG_TAG 2, 1024),
    (Fld.PRF_STEP_NUM_STEP 2, 9), (Fld.PRF_STEP_COUNTS_COMMITS 2, 2 ^ 32 - 1)]
theorem quietMarkers_of {s : State} {j : Nat} {l : List Nat} (h : ((List.range 4).all fun i => i == j || !s.bankEnabled i) = true) (ha : s.arrays = [])
    (hg : ∀ g ∈ l, s.flag (Fld.GEY_ACT0_ARMED g) = false ∧ g < 65536 ∧ g ≠ s.getF (Fld.PRF_STEP_GEY_ABORT_GEY j) ∧
      g ≠ s.getF (Fld.PRF_STEP_GEY_NAY_GEY j) ∧ g ≠ s.getF (Fld.PRF_STEP_GEY_COMMIT_GEY j)) : markersQuiet s j l := by
  refine ⟨fun i hi hij => ?_, fun n => by simp [State.arr, ha, Sparse.get, arrDefault, Arr.initial], hg⟩
  have := List.all_eq_true.mp h i (List.mem_range.mpr hi)
  simpa [hij] using this

theorem witness_StepBanks :
    (∀ s ∈ [upB 1 bkIdle none, upB 0 bkCommitting (some 3), upB 0 bkAborting none, upB 0 bkIdle none], s.alive = true) ∧
    ((upB 1 bkIdle none).bankEnabled 2 = true ∧ (upB 1 bkIdle none).bankState 2 = bkIdle ∧
      ((upB 1 bkIdle none).bank 2).begun < ((upB 1 bkIdle none).reg (Reg.GEY_COUNT ((upB 1 bkIdle none).getF (Fld.PRF_STEP_GEY_BEGIN_GEY 2)))).toNat ∧
      (upB 1 bkIdle none).commitReached 2 = false) ∧
    markersQuiet (upB 1 bkIdle none) 2 ((List.range 12).map fun i => ((upB 1 bkIdle none).getF (Fld.PRF_STEP_MARK_MARK_BASE 2) + i) % 65536) ∧
    ((upB 0 bkCommitting (some 3)).bankState 2 = bkCommitting ∧ (upB 0 bkCommitting (some 3)).commitWaits 2 = false ∧
      (upB 0 bkCommitting (some 3)).amaxEnabled ((upB 0 bkCommitting (some 3)).bankOwner 2) = false ∧ ((upB 0 bkCommitting (some 3)).bank 2).phase7 = some 3) ∧
    markersQuiet (upB 0 bkCommitting (some 3)) 2 [322, 323] ∧
    ((upB 0 bkAborting none).bankState 2 = bkAborting ∧ (upB 0 bkAborting none).flag (Fld.PRF_STEP_CFG_PLM_EN 2) = false) ∧
    (let s := upB 0 bkIdle none
     s.writable (.core 0) (Reg.PRF_STEP_CFG 2) 4 = true ∧ s.flag (Fld.PRF_STEP_OWNER_VALID 2) = true ∧ (0x80000003#32).getLsbD 31 = true ∧
     (∀ i ∈ List.range 4, s.bankEnabled i = false) ∧
     (∀ g ∈ s.bankGeysers 2, g < 65536 ∧ s.geyOwner g = s.bankOwner 2 ∧ s.flag (Fld.GEY_ACT0_ARMED g) = false)) :=
  ⟨by decide +kernel, by decide +kernel, quietMarkers_of (by decide +kernel) (by decide +kernel) (by decide +kernel), by decide +kernel,
   quietMarkers_of (by decide +kernel) (by decide +kernel) (by decide +kernel), by decide +kernel, by decide +kernel⟩

def pend1 : LogPending := { type := 2, part := 0, source := 0x300, body := [1, 2, 3], tag := some 7, need := 0 }
def block1 : LogBlock := { first := 3, last := 8, written := false, acked := false }
def snap1 : Snapshot := { id := 4, scope := 1, step := 9, stopUs := 50, regions := [], lsn := 0 }
def refill1 : Refill := { info := { id := { part := 0, larray := 5, bubble := false }, phys := 5, image := 0, ocFirst := 0, ocUnits := 0, accFirst := 0, accCount := 0, saved := false }, spare := some 130, lost := 5, time := 100 }
/-- The log with what is given of it, enabled or not, the cartridge writable, and an append ring of partition 0 whose first descriptor
announces 32 bytes. -/
def upL (en : Nat) (l : Log) : State :=
  (({ up with log := l }.hbmWrite 0 0x500000 (toLe 4 2 ++ toLe 4 32 ++ toLe 8 0x600000)).setFs
    [(Fld.LOG_CTL_ENABLE, en), (Fld.CRT_STATUS_STATE, 6), (Fld.LOG_AREA_OWN_GB, 100), (Fld.LOG_LSN_NEXT, 9), (Fld.LOG_APPEND_GEY_EN 0, 1),
     (Fld.LOG_APPEND_LOG2DEPTH 0, 4), (Fld.LOG_APPEND_BASE 0, 0x500), (Fld.LOG_APPEND_GEY_ANNOUNCE_GEY 0, 400), (Fld.LOG_APPEND_GEY_ACK_GEY 0, 401),
     (Fld.GEY_COUNT_COUNT 400, 1), (Fld.LOG_SNAP_STATE, 3)])

theorem witness_LogAndSurvival :
    (∀ en ∈ [0, 1], let s := upL en { Log.initial with waiting := [pend1] }
      s.alive = true ∧ s.log.waiting = [pend1] ∧ pend1.need ≤ Sparse.get natDefault s.log.appended 0 ∧ s.flag Fld.LOG_CTL_ENABLE = decide (en = 1) ∧
      s.logSpace (32 + (padBody pend1.body).length) = true) ∧
    (let s := upL 1 Log.initial
     let d := s.hbmRead 0 0x500000 16
     s.flag (Fld.LOG_APPEND_GEY_EN 0) = true ∧ s.getF (Fld.LOG_APPEND_LOG2DEPTH 0) ≠ 0 ∧ s.getF (Fld.LOG_APPEND_BASE 0) * 4096 + 0 = 0x500000 ∧
     0 < (s.geyCount (s.getF (Fld.LOG_APPEND_GEY_ANNOUNCE_GEY 0))).toNat ∧ appendable (fieldAt d 0 1) = true ∧ fieldAt d 4 4 % 16 = 0 ∧
     32 + fieldAt d 4 4 ≤ 1048576 ∧ s.hbmRangeOk 0 (fieldAt d 8 8) (fieldAt d 4 4) = true ∧ s.hbmBadTag 0 (fieldAt d 8 8) (fieldAt d 4 4) = false ∧
     s.logSpace (32 + fieldAt d 4 4) = true) ∧
    (let s := upL 1 { Log.initial with blocks := [block1] }
     s.log.blocks = [block1] ∧ s.crtWritable = true ∧ s.flag Fld.LOG_STATUS_FULL = false ∧ s.ownBlocks < s.ownCapacity ∧ s.mirrorCounts = false ∧
     s.notDurable block1.last = true ∧ (s.log.mirrored.filter fun b => b.1 == 4).length < 64 * 10 ^ 9 / 65536 ∧
     (s.setF Fld.LOG_CTL_MIRROR_EN 1).flag Fld.LOG_CTL_MIRROR_EN = true ∧
     ((s.setFs [(Fld.LOG_CTL_MIRROR_EN, 1), (Fld.LOG_STATUS_MIRRORED, 1)]).log.blocks.find? fun b => !b.acked) = some block1 ∧
     (s.setFs [(Fld.LOG_CTL_MIRROR_EN, 1), (Fld.LOG_STATUS_MIRRORED, 1)]).mirrorCounts = true ∧ s.log.mirrorAt + 10 ^ 9 ≤ 10 ^ 10) ∧
    (let s := upL 1 { Log.initial with snap := some snap1 }
     s.log.snap = some snap1 ∧ s.log.snapLost = false ∧ 3 ≤ s.getF Fld.LOG_SNAP_STATE ∧ snap1.id < 2 ^ Fld.LOG_SNAP_LAST_ID.width) ∧
    (let s := { up with ret := { up.ret with refill := [refill1] } }
     s.alive = true ∧ s.ret.refill = [refill1] ∧ refill1.info.saved = false ∧ refill1.info.id.larray < 128 ∧ (s.arr 130).ident = none ∧ s.bankOf 0 = none) := by decide +kernel

/-! ## Vents -/

/-- Vent 2 in one-port mode, enabled, its port 0 up or training; further fields as given. -/
def upV (link : Nat) (fs : List (FieldRef × Nat)) : State :=
  up.setFs ([(Fld.VNT_CTL_ENABLE 2, 1), (Fld.VNT_STATUS_LANES 2, 15), (Fld.VNT_STATUS_LINK_UP 2, link), (Fld.VNT_STATUS_TRAINING 2, 1 - link),
    (Fld.VNT_STATUS_RATE 2, 3 * link), (Fld.VNT_MAC_CFG_MAX_FRAME 2, 9216), (Fld.VNT_NEXTHOP_VALID 2 0, 1)] ++ fs)
def rx1 (len : Nat) (sec : Option SecTag) (dst : FrameDst) (vid : Option Nat) (full : Bool) (body : FrameBody) : RxFrame :=
  { fcsOk := true, fecCorr := 1, fecUncorr := 0, symErr := [], len, sec, dst, vid, full, body }
theorem pathsDown_of {s : State} {v : Nat} (h : s.rmo.paths = []) : pathsDown s v := fun d _ => by
  simp [State.path, h, Sparse.get, pathDefault, Path.closed, stUp]

theorem witness_VentReceives :
    (∀ fs ∈ [[], [(Fld.VNT_SEC_CFG_VALIDATE 2, 2)], [(Fld.VNT_PTP_CFG_EN 2, 1)]], (upV 1 fs).alive = true ∧ (upV 1 fs).portUp 2 0 = true ∧
      (upV 1 fs).maxFrame 2 = 9216 ∧ (upV 1 fs).vlanOk 2 none = true ∧ (upV 1 fs).vlanOk 2 (some 7) = false ∧ (upV 1 fs).vent 2 = Vent.initial) ∧
    ((upV 1 []).secMode 2 = 0 ∧ (upV 1 [(Fld.VNT_SEC_CFG_VALIDATE 2, 2)]).secMode 2 = 2 ∧ (upV 1 [(Fld.VNT_PTP_CFG_EN 2, 1)]).flag (Fld.VNT_PTP_CFG_EN 2) = true) ∧
    (let s := (upV 1 [(Fld.VNT_SEC_CFG_VALIDATE 2, 2)]).setPortSec 2 0 ⟨none, [(1, 90)]⟩
     s.alive = true ∧ s.portUp 2 0 = true ∧ s.secMode 2 ≠ 0 ∧ ((s.portSec 2 0).rx.find? fun e => e.1 == 1) = some (1, 90) ∧
     89 + s.getF (Fld.VNT_SEC_CFG_REPLAY_WIN 2) < 90) ∧ (9217 : Nat) > 9216 := by decide +kernel

def fwf : FwFrame := { vent := 2, port := 0, kind := 9, ip := false, len := 100, stamp := none, ahead := 0 }
def zout : ZrtFrame := frame1 3 .probe
def upOut (s : State) : State := { s with rmo := { s.rmo with out := [(2, 5, { zout with dst := 6 })] } }

theorem witness_VentTransmits :
    (let s := upV 1 []
     let s := { s with eth := { s.eth with fwOut := [fwf] } }
     s.alive = true ∧ s.portUp 2 0 = true ∧ s.eth.fwOut = [fwf] ∧ s.txBarred 2 0 = false ∧ bits 128 7 1 = 1 ∧ (s.portSec 2 0).tx = none) ∧
    (let s := (upV 1 [(Fld.VNT_SEC_CFG_VALIDATE 2, 1)]).setPortSec 2 0 ⟨some (1, 90), []⟩
     let s := { s with eth := { s.eth with fwOut := [fwf] } }
     s.alive = true ∧ s.portUp 2 0 = true ∧ s.txBarred 2 0 = false ∧ (s.portSec 2 0).tx = some (1, 90) ∧ s.secMode 2 ≠ 0 ∧ 90 < s.pnLast 2) ∧
    (let s := upOut (upV 1 [])
     s.portUp 2 0 = true ∧ s.eth.fwOut = [] ∧ s.pathPort 6 2 = some 0 ∧ bits 32 5 1 = 1 ∧ s.txBarred 2 0 = false ∧ (s.portSec 2 0).tx = none ∧
     s.zrtLen 2 { zout with dst := 6 } ≤ s.maxFrame 2) ∧
    (let s := (upV 1 []).modVent 2 fun x => { x with wire := [(0, 7, 100)] }
     s.alive = true ∧ (s.vent 2).wire = [(0, 7, 100)]) := by decide +kernel

theorem witness_VentLinks :
    (let s := upV 0 [(Fld.LOG_THR0_LANE_RETRAIN, 4)]
     s.alive = true ∧ bits (s.getF (Fld.VNT_STATUS_TRAINING 2)) 0 1 = 1 ∧ s.portLanes 2 0 ≠ [] ∧ ((s.vent 2).loss.any fun y => y.port == 0) = false ∧
     s.upsets (keyLane (4 * 2 + 3)) + 1 < s.getF Fld.LOG_THR0_LANE_RETRAIN) ∧
    (let s := (upV 0 []).modVent 2 fun x => { x with loss := [⟨0, 500, []⟩] }
     (s.vent 2).loss = [⟨0, 500, []⟩] ∧ s.time ≤ 500 + 1000000000) ∧
    (let s := upV 1 []
     s.portUp 2 0 = true ∧ s.portLanes 2 0 ≠ [] ∧ s.flag (Fld.VNT_CTL_ENABLE 2) = true ∧ s.flag (Fld.VNT_STATUS_RETIRED 2) = false ∧
     s.domainRuns 50 = true ∧ s.domainRuns 66 = true) ∧ pathsDown (upV 1 []) 2 :=
  ⟨by decide +kernel, by decide +kernel, by decide +kernel, pathsDown_of (by decide +kernel)⟩

def stamp1 : PtpStamp := ⟨5, 6, 7⟩
theorem witness_VentControl :
    (∀ s ∈ [upV 1 [], upV 0 [(Fld.VNT_CTL_ENABLE 2, 0)]], s.writable (.core 0) (Reg.VNT_CTL 2) 4 = true ∧ s.flag (Fld.VNT_CTL_RESET 2) = false ∧
      s.flag (Fld.VNT_STATUS_RETIRED 2) = false ∧ s.writable .sinter Reg.RST_VENT 4 = true) ∧ pathsDown (upV 1 []) 2 ∧
    (upV 1 []).flag (Fld.VNT_CTL_ENABLE 2) = true ∧ (upV 0 [(Fld.VNT_CTL_ENABLE 2, 0)]).flag (Fld.VNT_CTL_ENABLE 2) = false ∧
    (let s := (upV 1 []).modVent 2 fun x => { x with fifo := [stamp1, ⟨8, 9, 10⟩] }
     s.writable (.core 0) (Reg.VNT_PTP_FIFO 2) 4 = true ∧ (s.vent 2).fifo = stamp1 :: [⟨8, 9, 10⟩]) :=
  ⟨by decide +kernel, pathsDown_of (by decide +kernel), by decide +kernel, by decide +kernel, by decide +kernel⟩

/-- A dormant device whose detector is in the mode given. -/
def dormant (mode : Nat) (armed : Bool) : State :=
  ({ State.reset with pow := { Power.initial with state := .dormant, armed := armed } }).setFs [(Fld.VNT_WAKE_CFG_MODE, mode), (Fld.PWR_WAKE_DETECTOR, 1),
    (Fld.VNT_WAKE_CFG_COUNT, 3), (Fld.VNT_WAKE_TIMES_ON_MIN, 10), (Fld.VNT_WAKE_TIMES_ON_MAX, 20), (Fld.VNT_WAKE_TIMES_OFF_MIN, 30),
    (Fld.VNT_WAKE_TIMES_OFF_MAX, 40), (Fld.VNT_WAKE_STATUS_ARMED, if armed then 1 else 0)]
def burst3 : List (Nat × Nat) := [(0, 10), (30, 20), (40, 15)]

theorem witness_WakeDetector :
    (∀ m ∈ [1, 2], (dormant m false).pow.state = .dormant ∧ (dormant m false).wakeMode = m ∧ (dormant m false).flag Fld.PWR_WAKE_DETECTOR = true ∧
      (dormant m false).pow.armed = false ∧ (dormant m true).pow.state = .dormant ∧ (dormant m true).pow.armed = true ∧ (dormant m true).wakeMode = m) ∧
    (let s := dormant 2 true
     burst3.length = min 8 (max 2 (s.getF Fld.VNT_WAKE_CFG_COUNT)) ∧
     (∀ e ∈ burst3, s.getF Fld.VNT_WAKE_TIMES_ON_MIN ≤ e.2 ∧ e.2 ≤ s.getF Fld.VNT_WAKE_TIMES_ON_MAX) ∧
     (∀ e ∈ burst3.tail, s.getF Fld.VNT_WAKE_TIMES_OFF_MIN ≤ e.1 ∧ e.1 ≤ s.getF Fld.VNT_WAKE_TIMES_OFF_MAX)) := by decide +kernel

/-! ## The host side -/

/-- The link is up and virtual functions are enabled; partition 1 is ACTIVE as well. -/
def upH : State :=
  ({ up with host := { HostSide.initial with perst := false, vfEnable := true, msixEn := [1], d3hot := [9] } }).setFs
    [(Fld.PCI_LINK_UP, 1), (Fld.PRT_STATE_STATE 1, psActive), (Fld.PRT_STATE_HBM_GIB 1, 1)]
def reply1 (part tag : Nat) (sinter : Bool) : Reply :=
  { part, dev := 0, sinter, code := 0x301, tag, status := svOk, words := [7, 8], fails := 0 }

theorem witness_HostAperture :
    (∀ f ∈ [0, 5, 63], upH.alive = true ∧ upH.hostReach f = true) ∧ upH.partActive 0 = true ∧ upH.partActive 5 = false ∧
    (let s := upH
     let a := s.apertureAddr 0 0x1010
     s.apertureMapped 0 a 200 none = true ∧ (s.wakeWindows 0 a 200).localBadTag 0 a 200 = none ∧ (s.wakeWindows 0 a 200).localPoison 0 a 200 = none ∧
     canon s = true ∧ a % 64 + 48 ≤ 64 ∧ a < hbmBytes ∧ s.hbmPhys 0 a = some 0x1010 ∧ s.apertureMapped 0 a 48 none = true ∧ s.textHit 0 a 48 = false ∧
     s.localBadTag 0 a 48 = none) := by decide +kernel

theorem witness_HostConfiguration :
    (upH.cfgReach = true ∧ upH.cfgRetry = false ∧ upH.host.vfEnable = true) ∧
    ((upH.setF Fld.TOP_SERVICE_LEVEL lvStarting).alive = true ∧ (upH.setF Fld.TOP_SERVICE_LEVEL lvStarting).cfgReach = true ∧
      (upH.setF Fld.TOP_SERVICE_LEVEL lvStarting).cfgRetry = true) ∧
    (let s := upH.setF Fld.PCI_LINK_UP 0
     s.alive = true ∧ s.host.perst = false ∧ s.pow.locked = true ∧ s.flag Fld.PCI_LINK_UP = false ∧ 5 ≤ s.maxGen) := by decide +kernel

theorem witness_HostResets :
    (upH.alive = true ∧ upH.flag Fld.PCI_LINK_UP = true ∧ upH.host.perst = false ∧ upH.cfgReach = true ∧ upH.cfgRetry = false ∧
      upH.partActive 1 = true ∧ upH.host.vfEnable = true) ∧
    State.reset.alive = false ∧ ({ State.reset with host := { HostSide.initial with perst := false } } : State).alive = false ∧
    up.alive = true ∧ up.host.perst = true := by decide +kernel

theorem witness_HostSignals :
    (let s := ({ upH with host := { upH.host with held := [⟨1, 4, 3, 10⟩], msixTable := [(4104, 0xFEE0), (4105, 77)] } }).setF (Fld.PRT_IRQ_MAX_DELAY 1) 50
     s.alive = true ∧ s.getF (Fld.PRT_IRQ_MAX_DELAY 1) ≠ 0 ∧ (s.host.held.any fun h => h.fn == 1 && h.vec == 4) = true ∧ s.vecMasked 1 4 = false) ∧
    (upH.hostReach 0 = true ∧ upH.partActive 0 = true ∧ upH.geyOwner 9 = 0 ∧ upH.geyOwner 9 ≠ 1 ∧ upH.hostReach 1 = true ∧ upH.partActive 1 = true) ∧
    upH.writable (.core 0) (Reg.DBL_RING 63) 4 = true := by decide +kernel

/-! ## Mailboxes, replies and aborts of calls -/

def upM (fs : List (FieldRef × Nat)) : State := upH.setFs fs

theorem witness_MailboxPost :
    (∀ c ∈ [1, 65, 129, 193], upH.mbx c ≠ mbPosted ∧ upH.mbxBar c = none ∧ upH.hostReach (chanFn c) = true) ∧ upH.alive = true ∧
    ((List.replicate 16 (5 : Word32)).length = 16) ∧ upH.mbxBar 5 = some 4 ∧ upH.mbxBar 73 = some 3 ∧
    (upM [(Fld.MBX_STATUS_STATE 1, mbPosted)]).mbx 1 = mbPosted := by decide +kernel

theorem witness_MailboxTake :
    (∀ c ∈ [0, 65, 129, 193], (upM [(Fld.MBX_STATUS_STATE c, mbPosted)]).alive = true ∧ (upM [(Fld.MBX_STATUS_STATE c, mbPosted)]).mbx c = mbPosted ∧
      (upM [(Fld.MBX_STATUS_STATE c, mbPosted)]).hostReach (chanFn c) = true ∧ (upM [(Fld.MBX_STATUS_STATE c, mbPosted)]).receives c = true) ∧
    knownCall 0x01FF = false ∧ upH.level ≠ lvStarting ∧ (upM [(Fld.TOP_SERVICE_LEVEL, lvStarting)]).level = lvStarting ∧
    (upM [(Fld.TOP_SERVICE_LEVEL, lvStarting)]).alive = true := by decide +kernel

def settlesHyp (s : State) : Bool :=
  ((List.range 64).all fun p => s.partState p != psResetting && s.partState p != psDestroying) && !s.pow.warmHeld && s.acc.held.isEmpty && !s.log.snapLost
theorem nothingSettles_of {s : State} (h : settlesHyp s = true) : nothingSettles s := by
  simp only [settlesHyp, Bool.and_eq_true, Bool.not_eq_true', List.isEmpty_iff] at h
  refine ⟨fun p hp => ?_, h.1.1.2, h.1.2, h.2⟩
  simpa using List.all_eq_true.mp h.1.1.1 p (List.mem_range.mpr hp)
def caller1 (part tag : Nat) : Caller := { part, tag, session := false, forwarded := false }
def upCall (k : Call) (fs : List (FieldRef × Nat)) : State := (({ upH with acc := { RegState.initial with calls := [k] } }).setFs fs)
def callTo (dev : Option Nat) (w : Option CallWait) : Call := { caller := caller1 1 44, code := 0x0201, target := dev, blocks := [], wait := w }

theorem witness_RepliesAndAborts :
    nothingSettles upH ∧
    (∀ x ∈ [true, false], let s : State := { upH with host := { upH.host with replies := [reply1 1 5 x] } }
      s.posts x = true ∧ s.mbx (replyChannel x 1) ≠ mbPosted ∧ s.mbxBar (replyChannel x 1) = none ∧
      Sparse.get natDefault s.host.lost (replyChannel x 1) = 0 ∧ s.acc.calls = []) ∧
    (let s := upCall (callTo (some 9) none) []
     s.alive = true ∧ s.acc.calls = [callTo (some 9) none] ∧ s.host.replies = []) ∧ nothingSettles (upCall (callTo (some 9) none) []) ∧
    (let s := upCall (callTo none (some (.arrayStop 5))) [(Fld.ARR_STATUS_STATE 5, stRunning)]
     s.admits 0x090A false (caller1 1 45) = true ∧ s.arrSettled 5 = false ∧ s.host.replies = []) ∧
    (upH.admits 0x090A false (caller1 1 45) = true ∧ upH.acc.calls = [] ∧ upH.host.replies ++ upH.host.inChannel ++ upH.host.retry = []) :=
  ⟨nothingSettles_of (by decide +kernel), by decide +kernel, by decide +kernel, nothingSettles_of (by decide +kernel), by decide +kernel, by decide +kernel⟩

/-! ## Service calls -/

/-- Partition 0 calls with TAG 44; conduits as `withCnd` gives them, of which partition 0 owns those. -/
def c0 : Caller := caller1 0 44
def upK (fs : List (FieldRef × Nat)) : State :=
  let s := withCnd upH (cnd1 0 0)
  { s with cnd := { s.cnd with owned := [(5, 0), (6, 0), (7, 0)] } }.setFs fs
/-- The call is admitted. -/
def adm (s : State) (codes : List Nat) : Bool := codes.all fun x => s.admits x (decide (x ∈ [1, 2, 0x207, 0x302, 0x401, 0x402, 0x601])) c0

theorem witness_ServiceCallReplies :
    c0.session = false ∧ c0.forwarded = false ∧ (upH.host.replies.filter fun x => x.part == 0 && x.sinter == false).length < 64 ∧
    (∀ s ∈ [upH, upK [(Fld.TOP_SERVICE_LEVEL, lvMinimal)]], s.alive = true ∧ s.serves 0x0B08 = true ∧ s.partActive 1 = true) ∧
    (upK [(Fld.TOP_SERVICE_LEVEL, lvMinimal)]).level = lvMinimal ∧ upH.level ≠ lvMinimal ∧ (upH.callsOf 1).length < 16 ∧
    upH.acc.calls.any (Call.is 1 44 false) = false ∧ (caller1 1 44).part ≠ 0 ∧
    (upCall (callTo none none) []).acc.calls.any (Call.is 1 44 false) = true ∧
    16 ≤ (({ upH with acc := { upH.acc with calls := List.replicate 16 (callTo none none) } } : State).callsOf 1).length := by decide +kernel

theorem witness_DeviceAndNumericsCalls :
    adm (upK []) [1, 2, 3, 0x101, 0x102, 0x103] = true ∧ (upK []).locked Reg.TOP_DEVNUM = false ∧ (upK []).locked Reg.TOP_EVT_DEST = false ∧
    (upK [(Fld.PRT_EVT_VALID 0, 1)]).flag (Fld.PRT_EVT_VALID 0) = true ∧ adm (upK [(Fld.PRT_EVT_VALID 0, 1)]) [2, 0x102] = true ∧
    ((upK []).flag (Fld.PRT_EVT_VALID 0) = false ∧ (upK []).cndTableOn = true ∧ (upK []).ringOk 0 0x700000 4 = true ∧ (upK []).freeConduit = some 0 ∧
      canon (upK []) = true) ∧ (upK []).isSealed 0 = false ∧
    ((upK []).hbmRangeOk 0 0x700000 ((7 + 1) * 128) = true ∧ (upK []).textHit 0 0x700000 ((7 + 1) * 128) = false) := by decide +kernel

/-- Logical array 5 of partition 0, in the state given. -/
def upArr (st : Nat) (fs : List (FieldRef × Nat)) : State := (upK fs).setArrState 5 st
/-- A group of the array is open. -/
def busy : State := (upArr stRunning []).modArr 5 fun a => { a with cur := some grpA }

theorem witness_ArrayCalls :
    adm (upK []) [0x201, 0x202, 0x203, 0x204, 0x205, 0x206, 0x207, 0x208, 0x209] = true ∧
    ((upK []).bufOk 0 0x700000 100 = true ∧ (upK []).bufOk 0 (ceilDiv 0x710001 16 * 16) 100 = true ∧ (upK []).textHit 0 (ceilDiv 0x710001 16 * 16) 100 = false ∧
      canon (upK []) = true) ∧
    (∀ st ∈ [stIdle, stRunning, stStopped, stFaulted], (upArr st []).onArrayNow 0 5 = some 5) ∧
    ((upArr stIdle []).cndIs 6 0 1 = true ∧ (upArr stIdle []).arrAtRest 5 = true ∧ (upArr stIdle []).domainRuns 1 = true ∧
      (upArr stIdle []).hbmRangeOk 0 ((upArr stIdle []).imageFor 5) 0x200000 = true ∧ (upArr stIdle []).textBars 0 0x1000 = false ∧ (upArr stIdle []).claims = []) ∧
    ((upArr stIdle []).arrSettled 5 = true ∧ (busy.arrStopBit 5).arrSettled 5 = false ∧ adm busy [0x203] = true ∧ busy.onArrayNow 0 5 = some 5 ∧ (upArr stStopped []).arrState 5 = stStopped ∧
      (upArr stFaulted []).arrState 5 = stFaulted ∧ (upK []).plain c0 = false) ∧
    (let s := upArr stIdle []
     let v := { s with pow := { s.pow with autoIdle := s.pow.autoIdle.filter fun x => x != 5 / 4 } }.setF (Fld.ARR_ACC_DBG_EN 5) 1
     v.accWindowOpen 5 = true ∧ s.bufOk 0 0x700000 (3 * 128) = true ∧ canon s = true ∧ s.isSealed 0 = false ∧ s.onArrayNow 0 5 = some 5 ∧
     ((s.arr 5).acc.all fun g => g.state == 0) = true) ∧
    (let s := (upK []).modArr 5 fun x => { x with ident := some ⟨0, 6, false⟩ }
     adm s [0x207] = true ∧ s.physOf 0 5 = some 5 ∧ s.onArrayNow 0 5 = none ∧ s.parked = []) := by decide +kernel

theorem witness_MemoryCalls :
    adm (upK []) [0x20A, 0x20B, 0x20C, 0x301, 0x302, 0x303, 0x304, 0x305, 0x306, 0x307] = true ∧
    ((upK []).hbmRangeOk 0 0x700000 64 = true ∧ (upK []).hbmRangeOk 0 0x700000 (eImageBytes (EHead.ofBytes ((upK []).hbmRead 0 0x700000 64)).ninstr) = true ∧
      (upK []).plain c0 = false) ∧
    ((upArr stIdle []).onArrayNow 0 5 = some 5 ∧ (upArr stIdle []).arrSettled 5 = true) ∧
    ((upK []).mem.segLost = [] ∧ (upK []).bufOk 0 0x700000 192 = true ∧ canon (upK []) = true) ∧
    ((upK []).physOf 0 5 = some 5 ∧ (((upK []).ocHeld 5 ⟨0, 5, false⟩).any fun e => overlaps e.1 e.2 90 6) = false) ∧
    ((upK []).cndTableOn = true ∧ (upK []).ringOk 0 0x700000 24 = true ∧ (upK []).conduitQuota 0 = true ∧ (upK []).freeConduit = some 0) ∧
    ((upK []).cnd.owned.contains (6, 0) = true ∧ (upK []).cnd.waiters = []) ∧
    (let s := (upK [(Fld.GEY_COUNT_COUNT 9, 5)])
     s.geyOwner 9 = 0 ∧ s.geyActOk 0 (1#64 <<< 63) 0 = none ∧ (s.reg (Reg.GEY_COUNT 9)).toNat < (9#64).toNat) ∧ unwatched (upK []) ∧
    (∀ i ∈ List.range 5, (upK []).geyOwner (65531 + i) = 0) ∧ (upK []).bufOk 0 0x700000 (32 * 5) = true :=
  ⟨by decide +kernel, by decide +kernel, by decide +kernel, by decide +kernel, by decide +kernel, by decide +kernel, by decide +kernel, by decide +kernel,
   unwatched_of (by decide +kernel) (by decide +kernel), by decide +kernel, by decide +kernel⟩

def entryA : PathEntry := { vent := 3, rvent := 4, ipv6 := false, jumbo := false, ecn := false, window := 1024, port := 4791, ip := List.replicate 12 0 ++ [10, 0, 0, 1] }
def info0 : PartInfo := { part := 0, evt := 5, gey := 5, rmo := 6, evtRing := 0, geyRing := 0, rmoRing := 0, evtDepth := 10, images := 0, areaSegs := 0 }
/-- Partition 0 has its own conduits; an operation of conduit 6 under tag 9 is outstanding. -/
def upT (ops : List RmoOp) : State := let s := upK []; { s with parts := [info0], rmo := { s.rmo with ops := ops } }
def op9 : RmoOp := entryOp 3 6 0 0 (.host 0) (some 7) (rmoBytes 0x10 0 0 0 0 (2 * 2 ^ 56 + geySpace + 9 * 32) 0 4 0 (9 * 2 ^ 48 + 7) 0)

theorem witness_TransportCalls :
    adm (upK []) [0x401, 0x402, 0x403, 0x404, 0x405] = true ∧
    ((upK []).locked Reg.CND_ZRT_CFG = false ∧ (upK []).ungranted (fieldOf (dw (766 * 2 ^ 30)) 18 30 * 2 ^ 18) 262144 = true ∧
      (upK []).ungranted (fieldOf (dw (766 * 2 ^ 30)) 13 35 * 2 ^ 13) (fieldOf (dw (766 * 2 ^ 30)) 48 16 * 8192) = true) ∧
    (2 ≠ (upK []).ownDev ∧ entryShape entryA = true ∧ ((upK []).putEntry 2 entryA).peerAllUp 2 = false ∧
      ((upZ true stUp [] []).peerAllUp 2 = true ∧ adm (upZ true stUp [] []) [0x402] = true)) ∧
    ((upK []).bufOk 0 0x700000 1024 = true ∧ canon (upK []) = true) ∧
    (let s := upT []
     s.cndIs 7 0 2 = true ∧ s.cndHeld 7 = false ∧ (s.cndGet 7).free ≠ 0 ∧ s.cndCached 7 = true ∧ s.hostConduit 0 = (s, some 6) ∧ s.cndIs 6 0 1 = true ∧
     (s.cndGet 6).free ≠ 0 ∧ s.rmo.queued = [] ∧ (s.cndGet 6).kind = 1 ∧ s.cnd.owned.contains (6, 0) = true ∧ s.bufOk 0 0x700000 4 = true) ∧
    postable (upT []) 6 ∧ (op9.cnd = 6 ∧ op9.tag = 9 ∧ op9.status = none ∧ (upT [op9]).rmo.ops = [op9]) :=
  ⟨by decide +kernel, by decide +kernel, by decide +kernel, by decide +kernel, by decide +kernel, postable_of (by decide +kernel), by decide +kernel⟩

def upBank (en st : Nat) : State := (upB en st none).setFs [(Fld.GEY_COUNT_COUNT 300, 4), (Fld.NUM_AMAX_CFG_ENABLE 0, 1), (Fld.NUM_AMAX_CFG_COUNT_M1 0, 7),
  (Fld.NUM_AMAX_BASE_BASE 0, 0x700)]

theorem witness_PlumeAndStepCalls :
    (let s := upD Plume.none plIdle
     let x := s.readPlume 0 0x300000
     adm s [0x501, 0x502, 0x503, 0x504, 0x505, 0x506] = true ∧ s.locked (Reg.PLM_OWNER 0) = false ∧ s.plmInGrant 0 0x300000 x.1 x.2 = true ∧
     s.plmDescOk 0 x.1 x.2 = true ∧ (∀ r ∈ x.2.reducers, s.reducerOk 0 r = true) ∧ s.freeSlot 0 = some 0 ∧
     (s.flag (Fld.PLM_OWNER_VALID 3) = true ∧ s.plmOwner 3 = 0) ∧ s.plmActive 3 = false ∧ s.plain c0 = false) ∧
    (let s := upQ (plm1 (desc1 3 1 false (op2 1 0))) []
     adm s [0x503, 0x504, 0x506] = true ∧ (s.flag (Fld.PLM_OWNER_VALID 3) = true ∧ s.plmOwner 3 = 0) ∧ s.plmActive 3 = true ∧
     0 + 1 ≤ (s.plume 3).desc.buckets.length ∧ s.bufOk 0 0x700000 96 = true ∧ canon s = true ∧ (s.plume 3).armed = none ∧
     s.reshardSources (s.plume 3).desc [] = some [(10, 0), (1, 0), (12, 0)] ∧ [(1, 0), (12, 0)].Nodup) ∧
    (let s := upH
     adm s [0x601] = true ∧ s.locked (Reg.PRF_STEP_OWNER 0) = false ∧ s.partActive 1 = true ∧ s.bankOf 1 = none ∧
     ((List.range 4).find? fun j => !s.flag (Fld.PRF_STEP_OWNER_VALID j)) = some 0) ∧
    (let s := upBank 0 bkIdle
     adm s [0x602, 0x603, 0x604, 0x605] = true ∧ s.bankOf 0 = some 2 ∧ s.bankEnabled 2 = false ∧ s.geyOwner 65535 = 0 ∧ s.amaxFresh 0 = true ∧
     s.bankState 2 = bkIdle ∧ s.plain c0 = false ∧ s.bufOk 0 0x710000 (68 + 128 * 1024) = true ∧ canon s = true ∧
     s.flag (Fld.NUM_AMAX_CFG_ENABLE 0) = true ∧ 0 + 8 ≤ s.getF (Fld.NUM_AMAX_CFG_COUNT_M1 0) + 1 ∧ s.bufOk 0 0x700000 (8 * 128) = true) ∧
    (let s := upBank 1 bkOpen
     adm s [0x603] = true ∧ s.bankOf 0 = some 2 ∧ s.bankState 2 = bkOpen ∧ s.commitReached 2 = false) := by decide +kernel

/-- The call is one that only partition 0 may make, or any partition. -/
def admC (s : State) (zero any : List Nat) : Bool := (zero.all fun x => s.admits x true c0) && any.all fun x => s.admits x false c0
/-- A region of slot 3's optimizer state at 0x900000, with the method given, is entry 0 of the protection table at 0x800000. -/
def prot1 (method : Nat) : List Byte :=
  toLe 8 0x900000 ++ toLe 8 0x1000 ++ toLe 1 1 ++ toLe 1 0 ++ toLe 2 1024 ++ toLe 1 0 ++ toLe 1 method ++ toLe 1 3 ++ toLe 1 0 ++ toLe 8 0x900000 ++ toLe 2 1 ++
    toLe 30 0
/-- Slot 3 runs on a ring of three, of the head, whose buddies are chosen; the calls given wait. -/
def upY (calls : List Call) (fs : List (FieldRef × Nat)) : State :=
  let s := (upQ (plm1 (desc1 3 1 false (op2 1 0))) []).hbmWrite 0 0x800000 (prot1 mtShadow)
  ({ s with buddies := [⟨77, [some 1, some 2, some 0]⟩], acc := { s.acc with calls := calls }, ret := { s.ret with list := [(50, 1), (60, 0)] } }).setFs
    ([(Fld.PCI_CFG_HEAD, 1)] ++ fs)
def rec0 : LogRecord := { lsn := 3, part := 0, type := 2, tag := 0, step := 4, bytes := List.replicate 48 5, key := none }
def snapCall : Call := { caller := c0, code := 0x0706, target := none, blocks := callBlocks 0x0706, wait := some (.snap 4) }
def finding1 : StepFinding := { committed := true, escrows := 0, surplus := [], migrates := false }

theorem witness_SurvivalCalls :
    (let s := upY [] []
     admC s [0x701, 0x70C] [0x702, 0x703, 0x704, 0x705, 0x706, 0x707, 0x708, 0x709, 0x70A, 0x70B] = true ∧ s.locked Reg.LOG_CTL = false ∧
     s.ungranted (fieldOf (dw (765 * 2 ^ 30)) 28 20 * 2 ^ 28) (2 ^ 28) = true ∧
     s.ungranted (fieldOf (dw (765 * 2 ^ 30)) 30 18 * gib) (fieldOf (dw (765 * 2 ^ 30)) 48 16 * gib) = true ∧ s.protected = [] ∧ s.log.records = []) ∧
    (let s := upY [] [(Fld.LOG_APPEND_GEY_EN 0, 1), (Fld.LOG_APPEND_LOG2DEPTH 0, 4), (Fld.LOG_APPEND_BASE 0, 0x500), (Fld.LOG_APPEND_GEY_ANNOUNCE_GEY 0, 400),
       (Fld.GEY_COUNT_COUNT 400, 15)]
     appendable 2 = true ∧ s.bufOk 0 0x600000 32 = true ∧ s.flag (Fld.LOG_APPEND_GEY_EN 0) = true ∧ s.getF (Fld.LOG_APPEND_LOG2DEPTH 0) ≠ 0 ∧
     s.gey.inflight = [] ∧ (s.geyCount 400).toNat < Sparse.get natDefault s.log.appended 0 + 2 ^ 4 ∧ s.hbmRangeOk 0 (0x500000 + 15 % 2 ^ 4 * 16) 16 = true ∧
     canon s = true) ∧
    (let s := { upY [] [] with log := { Log.initial with records := [rec0] } }
     s.bufOk 0 0x700000 48 = true ∧ canon s = true) ∧
    (let s := upY [] []
     let l := s.chooseBuddies (s.plume 3).desc.ring
     (s.flag (Fld.PLM_OWNER_VALID 3) = true ∧ s.plmOwner 3 = 0) ∧ s.buddies ≠ [] ∧ l.length = 3 ∧ s.bufOk 0 0x700000 6 = true ∧ canon s = true) ∧
    (let s := upY [] []
     let v := s.setFs [(Fld.LOG_PROT_BASE 0, 0x800000 / 64), (Fld.LOG_PROT_COUNT 0, 1)]
     s.bufOk 0 0x800000 64 = true ∧ v.protOk 0 (v.protEntry 0 0) = true) ∧
    (let s := upY [] [(Fld.CRT_STATUS_SNAP_OK, 1)]
     s.log.snap = none ∧ s.getF Fld.LOG_SNAP_STATE = 0 ∧ s.flag Fld.CRT_STATUS_SNAP_OK = true ∧
     (∀ x ∈ [1, 2], (s.log.kept.map Snapshot.bytes).sum + ((s.snapScope x).map fun r => r.2.2.2).sum ≤ s.snapArea) ∧ s.atBoundary = true) ∧
    ((upY [] []).acc.calls.find? Call.takesSnap = none ∧ (upY [snapCall] []).acc.calls.find? Call.takesSnap = some snapCall ∧ snapCall.wait = some (.snap 4) ∧
      admC (upY [{ snapCall with caller := caller1 0 9 }] []) [] [0x707] = true ∧ (upY [snapCall] []).acc.held = []) ∧
    (let s := upY [] []
     let d := (s.plume 3).desc
     (List.range d.npos).filter (fun i => (d.at' i).1 == 10) = [0] ∧ 10 ≠ s.ownDev ∧ s.flag Fld.PCI_CFG_HEAD = true ∧ s.devTable = [] ∧ 20 ≠ s.ownDev ∧
     (∀ e ∈ d.ring, e.1 ≠ 20) ∧ finding1.committed = true ∧
     ((s.buddies.find? fun b => b.plume == d.id).bind fun b => b.buddies.getD 0 none).isSome = true) ∧
    (let s := upY [] [(Fld.LOG_PROT_BASE 0, 0x800000 / 64), (Fld.LOG_PROT_COUNT 0, 1)]
     let e := s.protEntry 0 0
     0 < s.protCount 0 ∧ e.method = mtShadow ∧ 0xFFC + 4 ≤ e.length ∧ (s.buddyOf e.slot).isSome = true ∧ s.hbmRangeOk 0 (e.base + 0xFFC) 4 = true) ∧
    ((50, 1) ∈ (upY [] []).ret.list) := by decide +kernel

theorem witness_VentCalls :
    (let s := upY [] []
     admC s [0x801, 0x802, 0x803, 0x804, 0x805] [] = true ∧ (∀ x ∈ List.range 16, s.flag (Fld.VNT_LOCK_LOCK x) = false) ∧
     s.bufOk 0 0x700000 (4 * (s.readWords (ventCounters 15)).2.length) = true ∧ canon s = true ∧ s.flag (Fld.VNT_CTL_ENABLE 2) = false) ∧
    (let s := (upY [] []).modVent 2 fun x => { x with cak := true }
     (s.vent 2).cak = true ∧ 0 < s.ventPorts 2 ∧ s.flag (Fld.VNT_CTL_ENABLE 2) = false) :=
  ⟨by decide +kernel, by decide +kernel⟩

/-- An image that asks for partition 2 with two segments, one logical array and nothing else of its own. -/
def image2 : List Byte :=
  toLe 2 1 ++ toLe 1 2 ++ toLe 1 0 ++ toLe 4 7 ++ toLe 2 2 ++ toLe 2 1 ++ toLe 1 0 ++ toLe 1 1 ++ toLe 2 0 ++ toLe 4 64 ++ toLe 4 3 ++ toLe 1 0 ++ toLe 1 0 ++ toLe 2 0 ++
    toLe 4 0 ++ toLe 8 0 ++ toLe 1 10 ++ toLe 215 0
/-- The device is owned; `image2` lies at 0xA00000. -/
def upW (fs : List (FieldRef × Nat)) : State :=
  ((upK []).hbmWrite 0 0xA00000 image2).setFs ([(Fld.SEC_LIFECYCLE_STATE, 2)] ++ fs)

/-- A member of the group. -/
def member1 : Member := { record := ⟨255, 7, 5, 0, []⟩, role := 1, fdom := 0, mac := 3, identity := [], paths := [(3, 4, List.replicate 16 0)] }

theorem witness_PartitionCalls :
    (let s := upW []
     admC s [0x901, 0x902, 0x903, 0x905, 0x906, 0x908] [0x904, 0x907, 0x909, 0x90B, 0x90C, 0x90D] = true ∧ s.isOwned = true ∧ s.cndTableOn = true ∧
     s.bufOk 0 0xA00000 256 = true ∧ canon s = true ∧ s.imageFault (s.hbmRead 0 0xA00000 256) = none ∧
     s.bufOk 0 0x700000 (4 * (s.readWords (bankRegs 63 ++ (List.range 128).map fun l => Reg.PRT_LMAP 63 l)).2.length) = true ∧
     s.partState 1 = psActive ∧ (s.conduitsOf 1).length ≤ 3 ∧ (s.slotsOf 1).length ≤ 64 ∧ s.partActive 1 = true ∧
     s.bufOk 0 0x700000 s.devTableBytes.length = true ∧ s.bufOk 0 0x700000 40 = true ∧ s.destroyLocked 1 = false ∧
     s.locked (Reg.PRF_STEP_OWNER 0) = false ∧ s.recordBarred member1.record = false ∧ member1.role = 1 ∧ member1.record.dev < 256 ∧
     (s.memberPaths member1).all entryShape = true) ∧
    (upW [(Fld.PCI_CFG_HEAD, 1)]).flag Fld.PCI_CFG_HEAD = true := by decide +kernel
theorem mapArrays_one {s : State} {p cls oc acc im n a b : Nat}
    (h : ((arrayOrder 0).findSome? fun n => (s.placeOn n cls oc acc).map fun a => (n, a)) = some (n, a, b)) :
    (s.mapArrays p 0 1 cls oc acc im).isSome = true := by
  simp [State.mapArrays, List.range_succ, h]
theorem buildPart_right {s : State} {x : PartImage} {segs : List Nat} {g : Nat} {c : Nat × Nat × Nat} (h1 : s.takeSegs x = some segs)
    (h2 : s.freeGeysers x.geyCount = some g) (h3 : s.freeThree = some c)
    (h4 : (((s.newMemKey x.part).grantSegs x.part 0 segs).mapArrays x.part 0 x.larrays x.aclass x.ocUnits x.accLines (x.info c).images).isSome = true)
    (hb : bits x.flags 2 1 = 0) : (s.buildPart x).isRight = true := by
  obtain ⟨s2, h4⟩ := Option.isSome_iff_exists.mp h4
  unfold State.buildPart
  simp [h1, h2, h3, h4, State.takeBank, hb]
def img2 := PartImage.ofBytes ((upW []).hbmRead 0 0xA00000 256)
def upW2 := (upW []).setPartState 2 psCreating 1
/-- A partition can be created where array 0 works (the fuses are the implementation's). -/
theorem witness_PartitionCalls_build (h : Config.fuseArray 0 = 0) : (upW2.buildPart img2).isRight = true := by
  have hp : img2.part = 2 := by decide +kernel
  have hl : img2.larrays = 1 := by decide +kernel
  refine buildPart_right (segs := [766, 765]) (g := 65472) (c := (0, 1, 2)) (by decide +kernel) (by decide +kernel) (by decide +kernel) ?_ (by decide +kernel)
  rw [hp, hl]
  have a : arrayOrder 0 = 0 :: (arrayOrder 0).tail := by decide +kernel
  have hq : ((upW2.newMemKey 2).grantSegs 2 0 [766, 765]).placeOn 0 img2.aclass img2.ocUnits img2.accLines = some (0, 0) := by
    unfold State.placeOn
    rw [h]
    decide +kernel
  refine mapArrays_one (n := 0) (a := 0) (b := 0) ?_
  rw [a, List.findSome?_cons, hq]
  rfl

theorem witness_PowerCalls :
    (let s := upW []
     admC s [0xB01, 0xB02, 0xB03, 0xB05, 0xB06, 0xB07, 0xB08, 0xB09] [0xB04] = true ∧ s.bufOk 0 0x700000 4 = true ∧ canon s = true ∧
     (∀ d ∈ [0, 35, 48, 79, 82, 83, 88, 91], gateable d = true) ∧ s.islandMapped 35 = false ∧ s.locked Reg.PWR_CFG = false ∧
     s.bufOk 0 0x700000 (4 * (s.readWords ([Reg.PWR_STATUS, Reg.PWR_CEIL, Reg.PWR_TEMP, Reg.PWR_ENERGY] ++ (List.range 36).map fun i => Reg.CLK_ISL_FREQ i)).2.length) = true ∧
     s.arrState 143 ≠ stRetired ∧ 143 ∉ s.pow.resetWait ∧ s.domainRuns 35 = true ∧ s.locked Reg.FRZ_CFG = false ∧
     (s.gateAsk 35 true).domainRuns 35 = true ∧ (s.gateAsk 35 false).domainRuns 35 ≠ false) ∧
    ((upW [(Fld.CLK_GATE_STAT_RUN 1, 0)]).domainRuns 35 = false) ∧
    (let s := upW [(Fld.PRT_STATE_STATE 1, psFree)]
     s.allFree = true ∧ (∀ k ∈ List.range 64, s.flag (Fld.PLM_OWNER_VALID k) = false) ∧ (∀ j ∈ List.range 4, s.flag (Fld.PRF_STEP_CFG_ENABLE j) = false)) ∧
    (let s := (upH.setF (Fld.PRT_STATE_LARRAYS 1) 1)
     s.admits 0xB04 false (caller1 1 9) = true ∧ s.bufOk 1 0 (4 * (s.islandsOf 1).length) = true) := by decide +kernel

def signed (who : Signer) (lc : Nat) : Signed := { signer := who, device := Config.deviceId lc, nonce := 77 }
/-- The lifecycle state given, with a nonce given out; partition 0 holds a key in slot 3. -/
def upX (lc : Nat) (tok : Option Token) : State :=
  let s := upK [(Fld.SEC_LIFECYCLE_STATE, lc)]
  { s with sec := { s.sec with nonces := [77], token := tok, keys := [⟨0, 3, List.replicate 32 9, 5⟩] } }
theorem deviceDigest_of {s : State} {lc : Nat} (h : (if s.lifecycle = lcOwned then lcProvisioned else s.lifecycle) = lc) :
    s.deviceDigest = Config.deviceId lc := by
  rw [State.deviceDigest, h]
theorem signedFault_of {s : State} {x : Signed} {who : Signer} (h1 : x.signer = who) (h2 : s.sec.nonces.contains x.nonce = true)
    (h3 : x.device = s.deviceDigest) : s.signedFault x who = none := by
  simp [State.signedFault, h1, h3, List.contains_iff_mem.mp h2]
def token1 (kind : Nat) (who : Signer) : Token :=
  { format := 1, kind, scope := 7, uses := 65535, sig := signed who lcProvisioned, encKey := 1, digest := 2 }
def voucher1 : Voucher := { mehrop := true, device := Config.deviceId lcProvisioned, names := 8, owner := 8 }

theorem witness_SecrecyCalls :
    (∀ s ∈ [upX lcProvisioned none, upX lcOwned none], admC s [0xA03, 0xA04, 0xA05, 0xA06, 0xA07, 0xA0A, 0xA0B] [0xA01, 0xA02, 0xA08, 0xA09] = true ∧
      s.hbmRangeOk 0 0x700000 4096 = true ∧ canon s = true ∧ s.sec.erase = none ∧ s.sec.token = none ∧ s.lifecycle ≠ lcDecommissioned ∧
      s.cryptFault 0 3 0x700000 0x710000 100 = none ∧ s.keyOf 0 3 = some ⟨0, 3, List.replicate 32 9, 5⟩) ∧
    ((upX lcProvisioned none).lifecycle = lcProvisioned ∧ (upX lcProvisioned none).transfers < 32 ∧ (upX lcOwned none).lifecycle = lcOwned ∧
      (upX lcOwned none).isOwned = true) := by decide +kernel
theorem witness_SecrecyCalls_signed :
    voucher1.device = (upX lcProvisioned none).deviceDigest ∧ voucher1.names = voucher1.owner ∧
    (upX lcOwned none).signedFault (token1 1 .owner).sig .owner = none ∧ (upX lcOwned none).signedFault (token1 1 .mehrop).sig .owner ≠ none ∧
    (upX lcProvisioned none).signedFault (token1 2 .mehrop).sig .mehrop = none ∧
    ((upX lcOwned none).ownerOk c0 (some (signed .owner lcProvisioned)) true).2 = true := by
  have a : (upX lcOwned none).signedFault (signed .owner lcProvisioned) .owner = none :=
    signedFault_of rfl (by decide +kernel) (deviceDigest_of (by decide +kernel)).symm
  refine ⟨(deviceDigest_of (by decide +kernel)).symm, rfl, a, ?_,
    signedFault_of rfl (by decide +kernel) (deviceDigest_of (by decide +kernel)).symm, ?_⟩
  · unfold State.signedFault
    rw [if_pos (by decide)]
    exact Option.some_ne_none 1
  · unfold State.ownerOk State.checkSigned
    simp only [a]

def img1 : FwImage := { badCheck := 0, minStepping := 0, svn := 64, version := 5, digest := 9, sinterChanged := false, migrates := 0 }
def drive1 : Drive := { id := 5, fails := 0, label := none, images := [(3, img1)], used := 1, units := 1, readOnly := false }
/-- Slots in the states given, a drive in the bay in the state given, and the group storage key of the owner. -/
def upFw (lc s0 s1 cr : Nat) (blocks : List LogBlock) : State :=
  let s := upX lc none
  { s with crt := { s.crt with drive := some drive1 }, sec := { s.sec with groupKey := some 6 }, log := { s.log with blocks := blocks } }.setFs
    [(⟨slotReg 0, 61, 3⟩, s0), (⟨slotReg 1, 61, 3⟩, s1), (Fld.CRT_STATUS_STATE, cr)]
theorem imageCheck_of {s : State} {im : FwImage} (h1 : im.badCheck = 0) (h2 : im.minStepping = 0) (h3 : s.svnMin ≤ im.svn) (h4 : s.isOwned = false)
    (h5 : s.lifecycle ≠ lcDecommissioned) : s.imageCheck im none = none := by
  simp [State.imageCheck, State.bootCheck, h1, h2, h4, h5, Nat.not_lt.mpr h3]

theorem witness_FirmwareCalls :
    (let s := upFw lcProvisioned slActive slEmpty crBound []
     admC s [0xC02, 0xC03, 0xC04, 0xC05, 0xC06, 0xC08, 0xC09, 0xC0A, 0xC0B] [0xC01, 0xC07] = true ∧ s.hbmRangeOk 0 0x700000 4096 = true ∧ canon s = true ∧
     (∀ i ∈ [0, 1], s.slotState i ≠ slWriting ∧ s.slotState i ≠ slPending) ∧ s.slotState 0 = slActive ∧ s.slotState 1 ≠ slActive ∧ s.isOwned = false ∧
     s.lifecycle ≠ lcDecommissioned ∧ s.log.kept = [] ∧ s.crt.drive = some drive1 ∧ s.crtIdle = true ∧ s.crtWritable = true ∧ driveLevel drive1 < 3) ∧
    ((upFw lcProvisioned slActive slPending crBound []).slotState 1 = slPending ∧ (upFw lcProvisioned slActive slPending crBound []).slotState 0 ≠ slPending) ∧
    (∀ x ∈ [crBlank, crForeign, crOrigin], let s := upFw lcOwned slActive slEmpty x []
      admC s [0xC05, 0xC08, 0xC09] [] = true ∧ s.sec.groupKey = some 6 ∧ s.isOwned = true ∧ s.crtState = x) ∧
    (upFw lcProvisioned slActive slEmpty crBound [block1]).crtIdle = false := by decide +kernel
theorem witness_FirmwareCalls_checks :
    (upFw lcProvisioned slActive slEmpty crBound []).imageCheck img1 none = none ∧
    ((upFw lcOwned slActive slEmpty crBlank []).ownerOk c0 (some (signed .owner lcProvisioned)) false).2 = true := by
  refine ⟨imageCheck_of rfl rfl (by decide +kernel) (by decide +kernel) (by decide +kernel), ?_⟩
  have a : (upFw lcOwned slActive slEmpty crBlank []).signedFault (signed .owner lcProvisioned) .owner = none :=
    signedFault_of rfl (by decide +kernel) (deviceDigest_of (by decide +kernel)).symm
  unfold State.ownerOk State.checkSigned
  simp only [a]

/-! ## The sinter's channels -/

def sess (est : Bool) : Session := { id := 3, part := 1, established := est, owner := false }
/-- Partition 1 has the session, a key in slot 8 or none, and a policy or none; the device is owned. -/
def upN (est : Bool) (keys : List PartKey) (pol : List Policy) (tok : Option Token) : State :=
  let s := upH.setFs [(Fld.SEC_LIFECYCLE_STATE, 2), (Fld.TOP_DEVNUM_DEVNUM, 1)]
  { s with sec := { s.sec with sessions := [sess est], nextSession := 4, keys := keys, policies := pol, token := tok } }
/-- An armed token; nothing here checks its signature. -/
def tokN : Token :=
  { format := 1, kind := 1, scope := 7, uses := 65535, sig := { device := 0, nonce := 9, signer := .owner }, encKey := 1, digest := 2 }
def pol1 : Policy := ⟨1, 0, 1, 2, true, false⟩

theorem witness_SpdmAndTenantCommands :
    (let s := upN false [] [] none
     s.alive = true ∧ s.spdmServes 1 = true ∧ s.lifecycle ≠ lcDecommissioned ∧ s.sec.sessions.length < 16 ∧ s.session 1 3 = some (sess false) ∧
     (sess false).established = false ∧ (s.sec.assembling.find? fun x => x.part == 1) = none ∧ s.session 1 9 = none) ∧
    (let s := upN true [] [] none
     16 ≤ ({ s with sec := { s.sec with sessions := List.replicate 16 (sess true) } } : State).sec.sessions.length) ∧
    (let s := upN true [⟨1, 8, List.replicate 32 7, 0⟩] [pol1] (some (tokN))
     s.session 1 3 = some (sess true) ∧ (sess true).established = true ∧ s.isOwned = true ∧ (List.replicate 32 (7 : Byte)).length = 32 ∧ s.isSealed 1 = false ∧
     0 + 1 ≤ s.getF (Fld.PRT_STATE_HBM_GIB 1) ∧ s.policy 1 = some pol1 ∧ (s.keyOf 1 storageSlot).isSome = true ∧ s.arraysStopped 1 = true ∧
     s.sec.token = some (tokN)) ∧
    (let w0 : Word32 := 0x00010301
     knownCall (bits w0.toNat 0 16) = true ∧ w0.getLsbD 16 = true ∧ knownCall (bits (0x01FF#32).toNat 0 16) = false ∧
     (0x0301#32).getLsbD 16 = false ∧ bits (0x00020005#32).toNat 16 8 = 2) ∧
    (let s := (upN true [] [] none).setPath 2 3 { (upN true [] [] none).path 2 3 with valid := true }
     2 ≠ s.ownDev ∧ s.hasPath 2 = true ∧ (s.callsOf 1).length < 16 ∧ s.acc.calls.any (Call.is 1 5 false) = false ∧ s.session 1 3 = some (sess true)) :=
  ⟨by decide +kernel, by decide +kernel, by decide +kernel, by decide +kernel, by decide +kernel⟩

/-! ## Power, clocks and freeze -/

def pw (f : Power → Power) : State := { up with pow := f up.pow }
def stateIs (p : PowerState) : State := pw fun q => { q with state := p }
/-- Frozen for a read-out through a port, and held. -/
def upFrozen : State := (stateIs .frozen).setFs [(Fld.FRZ_CFG_MODE, 1), (Fld.FRZ_STATUS_FROZEN, 1), (Fld.FRZ_CFG_ON_REFCLK, 1)]

theorem witness_ContactsAndClockSource :
    (up.pow.tripped = false ∧ up.pow.nextCause = none) ∧
    ((pw fun q => { q with state := .off, tripped := true, nextCause := none }).pow.tripped = true) ∧ up.pow.state = .running ∧ up.trimSource ≠ 0 ∧
    (let s := pw fun q => { q with state := .starting, resetLow := true }
     s.pow.state = .starting ∧ s.pow.resetLow = true ∧ s.pow.refclk = true) ∧
    (let s := (stateIs .dormant).setF Fld.PWR_WAKE_WAKE_N 1
     s.pow.state = .dormant ∧ s.flag Fld.PWR_WAKE_WAKE_N = true) ∧
    (let s := pw fun q => { q with state := .dormant, refclk := false }
     s.pow.refclk = false ∧ s.pow.state = .dormant) ∧
    (let s := pw fun q => { q with state := .starting, refclk := false, locked := false }
     s.pow.refclk = false ∧ s.pow.state = .starting ∧ s.pow.locked = false) ∧
    (upFrozen.pow.refclk = true ∧ upFrozen.pow.state = .frozen) ∧
    (let s := (stateIs .hold).setF Fld.FRZ_CFG_ON_REFCLK 1
     s.pow.state = .hold ∧ s.flag Fld.FRZ_CFG_ON_REFCLK = true) ∧
    ((stateIs .hold).pow.state = .hold ∧ ((stateIs .hold).setF Fld.FRZ_CFG_ON_REFCLK 0).flag Fld.FRZ_CFG_ON_REFCLK = false) := by
  decide +kernel

/-- Start-up is at its last step. -/
def upStart : State := (stateIs .starting).setF Fld.TOP_SERVICE_LEVEL 0
theorem witness_PowerControl :
    (let s := up.setF (Fld.VNT_PTP_CFG_SOURCE 2) 1
     s.alive = true ∧ s.ptpSource = true ∧ s.unsync = true) ∧
    (let s := up.setFs [(Fld.PWR_CFG_CAP, 900), (Fld.PWR_CEIL_F_CAP, 1000)]
     s.pow.state = .running ∧ s.capWatts < 901 ∧ 100000 ≤ s.time - s.pow.capAt ∧ 400 < s.getF Fld.PWR_CEIL_F_CAP ∧ 800 * 100 < s.capWatts * 95 ∧
     1000000 ≤ s.time - s.pow.capAt ∧ s.getF Fld.PWR_CEIL_DUTY = 0 ∧ s.getF Fld.PWR_CEIL_F_CAP < 1300) ∧
    (up.tCrit ≤ 110 ∧ up.pow.critical = false) ∧
    (upStart.alive = true ∧ upStart.startReady = true ∧ ∀ d ∈ [80, 81, 92, 93, 94], bits (2 ^ 100 - 1) d 1 = 1) ∧
    (up.writable (.core 0) (Reg.CLK_GATE 3) 4 = true ∧ canon up = true ∧ gateable 91 = true ∧ gateable 0 = true) ∧
    (let s := up.setF (Fld.CLK_GATE_EN 0) 0
     s.gateEn 7 = false ∧ s.domainRuns 7 = true ∧ s.gateReady 7 = true ∧ canon s = true) ∧
    (up.writable (.core 0) Reg.RST_ARRAY 4 = true ∧ up.flag Fld.RST_ARRAY_BUSY = false ∧ up.arrState 143 ≠ stRetired ∧ up.domainRuns (143 / 4) = true) ∧
    (up.writable (.core 0) Reg.RST_WARM 4 = true ∧ up.pow.warm = false ∧ up.slotWriting = false) ∧
    (up.writable (.core 0) Reg.FRZ_CTL 4 = true ∧ up.pow.state = .running) := by
  decide +kernel

/-! ## Read-out, TAP and I3C -/

/-- An owned device without a token, frozen for a read-out through port 0 of vent 0, which is UP; the next byte is `off`. -/
def upRead (off : Nat) : State :=
  let s := upFrozen.setFs [(Fld.SEC_LIFECYCLE_STATE, 2), (Fld.VNT_STATUS_LINK_UP 0, 1)]
  { s with dbg := { s.dbg with offset := off } }
def upI3c (a : Option Nat) : State := { up with i3c := { up.i3c with addr := a } }

theorem witness_ReadoutTapAndI3c :
    (let s := upRead 0
     s.pow.state = .frozen ∧ s.flag Fld.FRZ_CFG_MODE = true ∧ s.flag Fld.FRZ_STATUS_PORT_FALLBACK = false ∧ s.lifecycle ≠ lcDecommissioned ∧
     s.getF Fld.FRZ_STATUS_PASS < s.passes ∧ s.portFallback = false ∧ s.portUp 0 0 = true ∧ s.flag Fld.FRZ_STATUS_PORT_WAIT = false ∧
     s.dbg.offset < s.capTotal true ∧ s.tapUp = true) ∧
    ((upRead 256).capTotal true ≤ (upRead 256).dbg.offset ∧ up.pow.state ≠ .frozen ∧ up.tapUp = true) ∧
    (let s := up.setF Fld.SEC_LIFECYCLE_STATE 4
     s.tapUp = true ∧ s.lifecycle = lcDecommissioned) ∧
    ¬(0x80 ≤ 0x80 ∧ 0x80 ≤ 0xFE ∧ up.privateAllowed = true) ∧ (up.setF Fld.SEC_LIFECYCLE_STATE 0).privateAllowed = true ∧
    ((upI3c none).i3cUp = true ∧ (upI3c none).i3c.addr = none ∧ (upI3c (some 9)).i3cUp = true ∧ (upI3c (some 9)).i3c.addr = some 9) := by
  decide +kernel

/-! ## Boots, recovery and the cartridge -/

/-- A boot of slot 0, not warm, with the slot's state and tries. -/
def upBoot (st tries : Nat) : State :=
  let s := up.setFs [(⟨slotReg 0, 61, 3⟩, st), (⟨slotReg 0, 58, 3⟩, tries), (⟨slotReg 1, 61, 3⟩, slValid)]
  { s with fw := { s.fw with boot := some ⟨0, false, none⟩, slots := [some img1, some img1] } }
/-- Recovery mode, with slot 1 ACTIVE and the download given. -/
def upRcv (d : Option Download) : State :=
  let s := (upFw lcProvisioned slEmpty slActive crBlank []).setFs [(Fld.FW_STATUS_RECOVERY, 1), (Fld.TOP_SERVICE_LEVEL, 1)]
  { s with fw := { s.fw with download := d } }
def dl (path : Nat) : Download := ⟨path, 0, 512, 500, List.replicate 500 7⟩
def dlEnd (path : Nat) : Download := ⟨path, 0, 512, 512, List.replicate 512 7⟩

theorem witness_BootAndRecovery :
    ((upBoot slActive 1).alive = true ∧ (upBoot slActive 1).fw.boot = some ⟨0, false, none⟩ ∧ (upBoot slActive 1).slotState 0 ≠ slPending ∧
      (upBoot slActive 3).slotTries 0 = 3 ∧ canon (upBoot slActive 3) = true) ∧
    ((upRcv none).alive = true ∧ (upRcv none).inRecovery = true ∧ (upRcv none).rcvTaken 1 = false ∧ (upRcv none).rcvTaken 2 = false ∧
      imageLength 512 = true ∧ imageLength 67108864 = true ∧ imageLength 511 = false) ∧
    (∀ p ∈ [1, 2], (upRcv (some (dl p))).rcvMine p = some (dl p) ∧ (dl p).got + 12 ≤ (dl p).length ∧
      (upRcv (some (dlEnd p))).rcvMine p = some (dlEnd p) ∧ (dlEnd p).got = (dlEnd p).length ∧
      (dlEnd p).slot < (upRcv (some (dlEnd p))).fw.slots.length) ∧
    (upX lcProvisioned none).inRecovery = false ∧ (upX lcProvisioned none).level ≠ lvStarting ∧ (upX lcProvisioned none).pow.warm = false ∧
    (upX lcProvisioned none).lifecycle ≠ lcDecommissioned ∧ (upX lcProvisioned none).isOwned = false ∧ (upX lcOwned none).isOwned = true := by
  decide +kernel
theorem witness_BootAndRecovery_checks :
    (upRcv (some (dlEnd 1))).imageCheck img1 none = none ∧ (upRcv (some (dlEnd 2))).imageCheck img1 none = none ∧
    (upRcv (some (dlEnd 1))).imageCheck { img1 with badCheck := 2 } none = some 2 ∧
    (upX lcOwned none).signedFault (signed .owner lcProvisioned) .owner = none ∧
    (upX lcOwned none).signedFault (signed .mehrop lcProvisioned) .owner ≠ none := by
  refine ⟨imageCheck_of rfl rfl (by decide +kernel) (by decide +kernel) (by decide +kernel),
    imageCheck_of rfl rfl (by decide +kernel) (by decide +kernel) (by decide +kernel), rfl,
    signedFault_of rfl (by decide +kernel) (deviceDigest_of (by decide +kernel)).symm, ?_⟩
  unfold State.signedFault
  rw [if_pos (by decide)]
  exact Option.some_ne_none 1

def label1 : CrtLabel := { key := 6, owner := 0, group := 0, origin := 0, binds := 1 }
def upCrt (d : Option Drive) (key : Option Nat) (st : Nat) : State :=
  let s := up.setF Fld.CRT_STATUS_STATE st
  { s with crt := { s.crt with drive := d }, sec := { s.sec with groupKey := key } }
theorem witness_Cartridge :
    ((upCrt none none crAbsent).alive = true ∧ (upCrt none none crAbsent).crt.drive = none ∧ (upCrt none none crAbsent).portRuns = true) ∧
    (let s := upCrt (some { drive1 with fails := 2 }) none crAuth
     s.crt.drive = some { drive1 with fails := 2 } ∧ s.crtState = crAuth ∧ s.inRecovery = false) ∧
    ((upCrt (some drive1) none crAuth).sec.groupKey = none ∧ driveLevel drive1 < 4) ∧
    (let s := upCrt (some { drive1 with label := some label1 }) (some 6) crAuth
     s.sec.groupKey = some label1.key ∧ label1.origin = s.ownDev ∧ driveLevel { drive1 with label := some label1 } < 4) ∧
    (let s := upCrt (some drive1) none crBound
     s.crtState ≠ crAbsent ∧ s.crtState ≠ crFaulty ∧ crBlank ≤ s.crtState) ∧
    (upCrt (some drive1) none crReseeding).crtState = crReseeding := by
  decide +kernel

/-! ## The block as a whole -/

/-- The clocks are stopped; an array, a plume sequencer and firmware have commands that wait. -/
def upOff : State := { stateIs .frozen with pending := [.nop 0 fz, .wait 3, .svcDeviceQuery ⟨0, 1, false, false⟩] }

theorem witness_StepRunsFrontCommand : upOff.pending = .nop 0 fz :: upOff.pending.tail := rfl
theorem witness_IdleStepIsTick :
    (∀ s ∈ [up, ar, stateIs .hold], s.pending = [] ∧ ∀ n, n < 144 → (s.ident n).part < 64) ∧ up.alive = true ∧ (stateIs .hold).alive = false ∧
    ar.cycling 0 = true ∧ ar.cycling 1 = false ∧ ar.acc.perf = [] := by decide +kernel
theorem witness_WellFormedCommandsComplete :
    (Instr.nop 143 fz).wf = true ∧ (Instr.tapPrivate 0x80).wf = true ∧ ¬(up.tapUp = true ∧ 0x80 ≤ 0x80 ∧ 0x80 ≤ 0xFE ∧ up.privateAllowed = true) := by
  decide +kernel
theorem witness_StopsAreNamed :
    exec (.nop 144 fz) up = .fault (.noSuchUnit 144) ∧ exec (.tapPrivate 0xFE) (up.setF Fld.SEC_LIFECYCLE_STATE 0) = .refused .privateTap := by
  refine ⟨rfl, ?_⟩
  rw [show exec (.tapPrivate 0xFE) (up.setF Fld.SEC_LIFECYCLE_STATE 0) =
    (if !(up.setF Fld.SEC_LIFECYCLE_STATE 0).tapUp then .next (up.setF Fld.SEC_LIFECYCLE_STATE 0)
     else if 0x80 ≤ 0xFE ∧ 0xFE ≤ 0xFE ∧ (up.setF Fld.SEC_LIFECYCLE_STATE 0).privateAllowed then .refused .privateTap
     else .next ((up.setF Fld.SEC_LIFECYCLE_STATE 0).tapBypass 0xFE)) from rfl]
  rw [if_neg (by decide +kernel), if_pos (by decide +kernel)]
theorem witness_StoppedDevice :
    upOff.alive = false ∧ ∀ i ∈ upOff.pending, i.wf = true ∧ i.clockless = false := by decide +kernel
theorem witness_StoresStayCanonical : canon up = true ∧ canon ar = true ∧ ∃ t, step up = .next t := ⟨by decide +kernel, by decide +kernel, _, rfl⟩

/-! ## Commands that name a unit which the device does not have (R1, R2, Tables 1.2 and 1.4) -/

def fr0 : ZrtFrame :=
  { sumOk := true, versionOk := true, ce := false, ecnEcho := false, ackNow := false, retx := false, src := 256, dst := 0, svent := 0, rvent := 0,
    group := 0, epoch := 0, psn := 0, ackPsn := 0, ts := 0, tsEcho := 0, body := .probe }
/-- One term for each check, and the greatest unit that passes it. -/
theorem test_wf_refuses :
    [Instr.nop 144 fz, .autoIdleTimeout 36, .hbmLineAccess 64 0 .read .clean, .patrolScrub 12 0 .clean, .geyPostAction 65536,
     .geyRegisterWrite (.core 0) 5 4 0, .geyRegisterWrite (.core 0) 65536 0 0, .cndCmdTake (.core 0) 64 0, .rmoEntryTake ⟨1048576, []⟩,
     .zrtFrameSend 256 0 0, .zrtFrameSend 0 16 0, .zrtProbe 0 fr0, .zrtProbe 16 { fr0 with src := 1 }, .wait 64, .attemptBegin 4, .appendDescriptor 64,
     .frameTransmitStart 16 0 [], .frameTransmitStart 0 4 [], .vntEnable (.core 0) 16 true, .pciGeyInc 64 0 1, .flr 64, .mbxTake 256,
     .svcDeviceQuery ⟨64, 0, false, false⟩, .clkGateWrite (.core 0) 4 0, .gateTakeEffect 100, .getVersion 64].all (fun i => !i.wf) = true := by decide
theorem test_wf_accepts :
    [Instr.nop 143 fz, .autoIdleTimeout 35, .hbmLineAccess 63 0 .read .clean, .patrolScrub 11 0 .clean, .geyPostAction 65535,
     .geyRegisterWrite (.core 0) 65535 3 0, .cndCmdTake (.core 0) 63 0, .rmoEntryTake ⟨1048575, []⟩, .zrtFrameSend 255 15 0, .zrtProbe 15 { fr0 with src := 255 },
     .wait 63, .attemptBegin 3, .appendDescriptor 63, .frameTransmitStart 15 3 [], .vntEnable (.core 0) 15 true, .pciGeyInc 63 0 1, .flr 63,
     .mbxTake 255, .svcDeviceQuery ⟨63, 0, false, false⟩, .clkGateWrite (.core 0) 3 0, .gateTakeEffect 99, .getVersion 63].all Instr.wf = true := by decide
theorem test_illformed_faults :
    exec (.wait 64) up = .fault (.noSuchUnit 64) ∧ exec (.gateTakeEffect 100) up = .fault (.noSuchUnit 100) := ⟨rfl, rfl⟩

/-! ## Single steps -/

def nxt (o : Host.Outcome State Fault Refusal) : State := match o with | .next t => t | _ => State.reset
def fAB : Fields := { fz with d := 5, a := 1, b := 2, ge := true }
def fJ : Fields := { fz with imm := -2, ge := true }
/-- 64-bit arithmetic wraps (R104): the all-ones number and 3 give 2. -/
theorem test_add_wraps :
    (((nxt (step { loaded (intSpec 0) fAB (runs (Ctx.zero.sset 1 (-1) |>.sset 2 3)) with pending := [.add 0 fAB] })).arr 0).ctx.sget 5) = 2 := by
  decide +kernel
theorem test_minu_is_unsigned :
    (((nxt (step { loaded (intSpec 0x0C) fAB (runs (Ctx.zero.sset 1 (-1) |>.sset 2 3)) with pending := [.minu 0 fAB] })).arr 0).ctx.sget 5) = 3 := by
  decide +kernel
/-- A taken branch goes to the address of the branch plus 16 times IMM. -/
theorem test_jmp_back :
    ((nxt (step { loaded (ctlSpec 0x01 .none .none (BitVec.allOnes 64) true) fJ ar with pending := [.jmp 0 fJ] })).arr 0).pc = 0x1000 - 32 := by decide +kernel
/-- With no command at hand one nanosecond passes. -/
theorem test_idle_ticks : (nxt (step up)).time = 1000001 ∧ (nxt (step (stateIs .hold))).time = 1000000 := by decide +kernel
/-- FREEZE_N low for 39 ns is ignored, for 40 ns it freezes the device (R479). -/
theorem test_freeze_width :
    (nxt (step { up with pending := [.freezeN 39 false] })).pow.state = .running ∧ (nxt (step { up with pending := [.freezeN 40 false] })).pow.state = .frozen := by
  decide +kernel

end Sys2Proof.Tests
end

section
/-! PROOF. Register accesses that are misaligned or of the wrong width (R9): what such an access is answered, what it leaves alone, and what
it records.  The laws of `OnlyReg`, of raising an event and of TOP_ACC_ERR come first; they hold of every command that uses these. -/
namespace Sys2Proof.Machine

/-! ## Writes confined to one register -/

theorem OnlyReg.refl (r : Nat) (s : State) : OnlyReg r s s := ⟨fun _ _ => rfl, rfl⟩
theorem OnlyReg.trans {r : Nat} {s t u : State} (hst : OnlyReg r s t) (htu : OnlyReg r t u) : OnlyReg r s u := by
  obtain ⟨hreg, hrest⟩ := hst
  obtain ⟨hreg', hrest'⟩ := htu
  exact ⟨fun q hq => (hreg' q hq).trans (hreg q hq), by rw [hrest', hrest]⟩
theorem OnlyReg.mem_eq {r : Nat} {s t : State} (h : OnlyReg r s t) : t.mem = s.mem := by rw [h.2]
theorem OnlyReg.arrays_eq {r : Nat} {s t : State} (h : OnlyReg r s t) : t.arrays = s.arrays := by rw [h.2]
theorem OnlyReg.streams_eq {r : Nat} {s t : State} (h : OnlyReg r s t) : t.streams = s.streams := by rw [h.2]

theorem onlyReg_setF (s : State) (f : FieldRef) (x : Nat) : OnlyReg f.reg s (s.setF f x) :=
  ⟨fun q hq => reg_setF_other s f x q hq, rfl⟩
/-- Setting fields of one register changes that register alone. -/
theorem onlyReg_setFs (r : Nat) (l : List (FieldRef × Nat)) (s : State) (h : ∀ e ∈ l, e.1.reg = r) : OnlyReg r s (s.setFs l) := by
  induction l generalizing s with
  | nil => exact .refl r s
  | cons e l ih =>
    have hfirst : OnlyReg r s (s.setF e.1 e.2) := h e List.mem_cons_self ▸ onlyReg_setF s e.1 e.2
    exact hfirst.trans (ih _ fun e' he' => h e' (List.mem_cons_of_mem e he'))

/-! ## Raising an event -/

/-- The record that an event makes of what its source reports. -/
def State.recordOf (s : State) (source part cls code : Nat) (addr : Word64) (detail : List Word32) : EvtRec :=
  { ord := s.raised, time := s.time, source, part, cls, code, flags := if s.unsync then 1 else 0, count := 1, addr,
    detail := (detail ++ List.replicate 8 0).take 8 }

/-- An event changes the streams and the count of records raised, and nothing else. -/
theorem raise_rest (s : State) (source part cls code : Nat) (addr : Word64) (detail : List Word32) :
    s.raise source part cls code addr detail =
      { s with streams := (s.raise source part cls code addr detail).streams
               raised := (s.raise source part cls code addr detail).raised } := by
  unfold State.raise
  dsimp only
  split
  · rfl
  split
  · rfl
  split <;> rfl
theorem reg_raise (s : State) (source part cls code : Nat) (addr : Word64) (detail : List Word32) (q : Nat) :
    (s.raise source part cls code addr detail).reg q = s.reg q := by
  rw [raise_rest]; rfl
theorem raise_mem (s : State) (source part cls code : Nat) (addr : Word64) (detail : List Word32) :
    (s.raise source part cls code addr detail).mem = s.mem := by
  rw [raise_rest]
theorem raise_arrays (s : State) (source part cls code : Nat) (addr : Word64) (detail : List Word32) :
    (s.raise source part cls code addr detail).arrays = s.arrays := by
  rw [raise_rest]

/-- A device whose clocks run is neither frozen nor held. -/
theorem not_frozen_of_alive {s : State} (h : s.alive = true) : s.pow.state ≠ .frozen ∧ s.pow.state ≠ .hold := by
  constructor <;> intro hs <;> simp [State.alive, hs] at h

/-- An event about a partition from a clocked domain of a running device: its record joins the stream of the partition, and partition 0's
stream takes it, or a copy where it is about another partition (R34, R35). -/
theorem raise_streams_of_running (s : State) (source part cls code : Nat) (addr : Word64) (detail : List Word32) (ha : s.alive = true)
    (hd : s.domainRuns (source / 256) = true) (hp : part < 64) :
    (s.raise source part cls code addr detail).streams =
      if part = 0 then addRecord s.streams s.zeroDest (s.recordOf source part cls code addr detail)
      else addRecord (addRecord s.streams (.part part) (s.recordOf source part cls code addr detail)) s.zeroDest
        (s.zeroCopy (s.recordOf source part cls code addr detail)) := by
  obtain ⟨hfrozen, hhold⟩ := not_frozen_of_alive ha
  have hdev : part ≠ wholeDevice := by unfold wholeDevice; omega
  unfold State.raise
  have hraises : (!s.domainRuns (source / 256) || s.pow.state == .frozen || s.pow.state == .hold) = false := by simp [hd, hfrozen, hhold]
  simp only [hraises, hdev, Bool.false_eq_true, if_false]
  split <;> rfl

/-! ## Access errors -/

/-- Recording the first error changes TOP_ACC_ERR alone. -/
theorem onlyReg_accErr (s : State) (kind part off : Nat) : OnlyReg Reg.TOP_ACC_ERR s (s.accErr kind part off) := by
  unfold State.accErr
  split
  · exact .refl _ s
  · refine onlyReg_setFs _ _ s fun e he => ?_
    simp only [List.mem_cons, List.not_mem_nil, or_false] at he
    rcases he with rfl | rfl | rfl | rfl <;> rfl

/-- An ACCESS_ERROR leaves every register but TOP_ACC_ERR, the memories and the arrays as they were. -/
theorem accessError_frame (s : State) (rq : Requester) (kind off width : Nat) :
    (∀ q, q ≠ Reg.TOP_ACC_ERR → (s.accessError rq kind off width).reg q = s.reg q) ∧
    (s.accessError rq kind off width).mem = s.mem ∧ (s.accessError rq kind off width).arrays = s.arrays := by
  unfold State.accessError
  have h := onlyReg_accErr (s.raise (rqSource rq) (rqPart rq) clsOperation 0x0001 (s.fabOf (rqPart rq) (regBase + off)) [w kind, w width])
    kind (rqPart rq) off
  exact ⟨fun q hq => (h.1 q hq).trans (reg_raise ..), h.mem_eq.trans (raise_mem ..), h.arrays_eq.trans (raise_arrays ..)⟩

/-- The record of an ACCESS_ERROR of a kind. -/
def State.accessRecord (s : State) (rq : Requester) (kind off width : Nat) : EvtRec :=
  s.recordOf (rqSource rq) (rqPart rq) clsOperation 0x0001 (s.fabOf (rqPart rq) (regBase + off)) [w kind, w width]

theorem rqPart_lt (rq : Requester) : rqPart rq < 64 := by
  cases rq with
  | fn f => exact Nat.mod_lt f (by decide)
  | core _ => exact Nat.zero_lt_succ _
  | sinter => exact Nat.zero_lt_succ _

theorem accessError_streams (s : State) (rq : Requester) (kind off width : Nat) (ha : s.alive = true)
    (hd : s.domainRuns (rqSource rq / 256) = true) :
    (s.accessError rq kind off width).streams =
      if rqPart rq = 0 then addRecord s.streams s.zeroDest (s.accessRecord rq kind off width)
      else addRecord (addRecord s.streams (.part (rqPart rq)) (s.accessRecord rq kind off width)) s.zeroDest
        (s.zeroCopy (s.accessRecord rq kind off width)) :=
  (onlyReg_accErr _ kind (rqPart rq) off).streams_eq.trans (raise_streams_of_running s _ _ _ _ _ _ ha hd (rqPart_lt rq))

/-! ## The check of an access -/

/-- A width that is neither the register's nor half of a 64-bit one names no part of it (R8). -/
theorem partOf_eq_none {d : RegDesc} {reg off width : Nat} (hw : 8 * width ≠ d.width) (hh : ¬(d.width = 64 ∧ width = 4)) :
    partOf d reg off width = none := by
  unfold partOf
  rw [if_neg fun h => hw h.2, if_neg hh]

/-- A misaligned access is an error of kind 1, whatever else is wrong with it; one of the wrong width, of a register that the requester may
access in a clocked block, is an error of kind 2. -/
theorem verdict_of_badAccess {s : State} {rq : Requester} {off width : Nat} (h : badAccess s rq off width) :
    ∃ k, (k = 1 ∨ k = 2) ∧ s.verdict rq off width = .error k := by
  by_cases hmis : width = 0 ∨ off % width ≠ 0
  · exact ⟨1, .inl rfl, if_pos hmis⟩
  · obtain ⟨d, reg, hcover, hblock, hmay, hgate, hw, hh⟩ := h.resolve_left hmis
    refine ⟨2, .inr rfl, ?_⟩
    have hnone : (blockOf off).isNone = false := by rw [← Option.not_isSome, hblock, Bool.not_true]
    unfold State.verdict
    rw [if_neg hmis, if_neg (by simp [hnone]), if_neg (by simp [hmay]), if_neg (by simp [hgate]), hcover]
    simp only [partOf_eq_none hw hh]

/-! ## From the command to register space -/

theorem exec_registerWrite (rq : Requester) (bar0 : Bool) (off width : Nat) (v : Word64) (s : State) :
    exec (.registerWrite rq bar0 off width v) s = live s (.next (s.regWrite ⟨rq, bar0, off, width, v⟩)) := rfl
theorem exec_registerReadClearing (rq : Requester) (bar0 : Bool) (off width : Nat) (s : State) :
    exec (.registerReadClearing rq bar0 off width) s = live s (.next (s.regRead rq bar0 off width)) := rfl

/-- The request completes with success, and the read answers the bytes of `r.2`. -/
def answered (width : Nat) (r : State × Word64) : State :=
  { r.1 with host := { r.1.host with answer := some ⟨toLe width r.2.toNat, 0⟩ } }

/-- A write that reaches register space now is performed there. -/
theorem regWrite_of_reachesSpace {s : State} {rq : Requester} {off : Nat} (h : reachesSpace s rq off) (width : Nat) (v : Word64) :
    s.regWrite ⟨rq, false, off, width, v⟩ = s.spaceWrite rq off width v := by
  cases rq with
  | fn f =>
    obtain ⟨hreach, hbar, howned⟩ := h
    simp [State.regWrite, State.regWriteNow, hreach, hbar, howned]
  | core _ => rfl
  | sinter => rfl
/-- A read that reaches register space now is answered from there. -/
theorem regRead_of_reachesSpace {s : State} {rq : Requester} {off : Nat} (h : reachesSpace s rq off) (width : Nat) :
    s.regRead rq false off width = answered width (s.spaceRead rq off width) := by
  cases rq with
  | fn f =>
    obtain ⟨hreach, hbar, -⟩ := h
    simp [State.regRead, answered, hreach, hbar]
  | core _ => rfl
  | sinter => rfl

theorem spaceWrite_of_error {s : State} {rq : Requester} {off width k : Nat} (h : s.verdict rq off width = .error k) (v : Word64) :
    s.spaceWrite rq off width v = s.accessError rq k off width := by
  simp only [State.spaceWrite, h]
theorem spaceRead_of_error {s : State} {rq : Requester} {off width k : Nat} (h : s.verdict rq off width = .error k) :
    s.spaceRead rq off width = (s.accessError rq k off width, 0) := by
  simp only [State.spaceRead, h]

theorem toLe_zero (n : Nat) : toLe n 0 = List.replicate n 0 := by
  induction n with
  | zero => rfl
  | succ n ih => rw [toLe, Nat.zero_div, ih]; rfl

theorem answer_answered_zero (width : Nat) (s : State) :
    (answered width (s, 0)).host.answer = some ⟨List.replicate width 0, 0⟩ := by
  rw [← toLe_zero]; rfl

/-! ## The statement -/

/-- Settles O20.  The check answers an error of kind 1 or 2, so both commands come down to `State.accessError`: its frame gives what is left
alone, and its streams the record. -/
theorem badAccessHasNoEffect : Obligations.BadAccessHasNoEffect := by
  unfold Obligations.BadAccessHasNoEffect
  intro rq off width v s ha hd hbad hreach nothing recorded
  obtain ⟨k, hk, hverdict⟩ := verdict_of_badAccess hbad
  have hnothing : nothing (s.accessError rq k off width) := accessError_frame s rq k off width
  have hrecorded : recorded (s.accessError rq k off width) :=
    ⟨s.accessRecord rq k off width, s.zeroCopy (s.accessRecord rq k off width), k, rfl, rfl, rfl, hk, rfl,
      accessError_streams s rq k off width ha hd⟩
  constructor
  · refine ⟨s.accessError rq k off width, ?_, hnothing, hrecorded⟩
    rw [exec_registerWrite, live_running s _ ha, regWrite_of_reachesSpace hreach, spaceWrite_of_error hverdict]
  · refine ⟨answered width (s.accessError rq k off width, 0), ?_, hnothing, hrecorded, ?_⟩
    · rw [exec_registerReadClearing, live_running s _ ha, regRead_of_reachesSpace hreach, spaceRead_of_error hverdict]
    · exact answer_answered_zero width _

/-- A device that runs, whose link is up and whose virtual functions are enabled, with partition 3 ACTIVE and the clocks of domains 64 to 95
on: those of PCIe, of firmware's cores and of the sinter among them. -/
def State.accessClocked : State :=
  ({ State.reset with
      pow := { Power.initial with state := .running }
      host := { State.reset.host with perst := false, vfEnable := true } }).setFs
    [(Fld.CLK_GATE_STAT_RUN 2, 2 ^ 32 - 1), (Fld.PCI_LINK_UP, 1), (Fld.PRT_STATE_STATE 3, 2)]
/-- The statement speaks of something: on that device its hypotheses hold of a misaligned access by function 3, whose record is partition 3's,
and of an aligned one of half the width of TOP_DEVNUM by the sinter. -/
theorem badAccess_hypotheses_hold :
    let s := State.accessClocked
    s.alive = true ∧
    (s.domainRuns (rqSource (.fn 3) / 256) = true ∧ badAccess s (.fn 3) 0x41 4 ∧ reachesSpace s (.fn 3) 0x41 ∧ rqPart (.fn 3) ≠ 0) ∧
    (s.domainRuns (rqSource .sinter / 256) = true ∧ Reg.TOP_DEVNUM % 2 = 0 ∧ badAccess s .sinter Reg.TOP_DEVNUM 2 ∧
      reachesSpace s .sinter Reg.TOP_DEVNUM) := by
  refine ⟨by decide +kernel, ⟨by decide +kernel, .inl (.inr (by decide)), ?_, by decide⟩, by decide +kernel, by decide, .inr ?_, trivial⟩
  · exact ⟨by decide +kernel, by decide +kernel, by decide +kernel⟩
  · exact ⟨_, Reg.TOP_DEVNUM, rfl, by decide +kernel, by decide +kernel, by decide +kernel, by decide, by decide⟩

end Sys2Proof.Machine
end

section
/-! PROOF. NaN blocks (R53): a block's exponent byte decides alone whether it is one, and the device encodes that byte only with zero elements. -/
namespace Sys2Proof.Machine
open Sys2Proof.Num

/-! ## Reading -/

/-- The exponent byte of a NaN block decides its elements' values: no element bit is looked at. -/
theorem blockValue_of_nanExponent {code : Nat} {byte : Nat → Nat} {o k : Nat}
    (h : byte (o + k / 1024 * groupBytes code + k % 1024 / 16) = 0xFF) : blockValue code byte o k = .nan :=
  if_pos h

/-! ## Encoding -/

/-- A block whose values are all finite, under a usable tensor scale, gets an exponent byte of at most 0xFE: the exponent is clamped to
-127 to 127 before the bias is added (R72). -/
theorem encodeBlock_exponent_lt {code t : Nat} {vs : List Val} (rm : RM) (fromTensor : Bool) (rs : List Nat)
    (hscale : scaleOk t = true) (hfinite : vs.all isFinite = true) : (encodeBlock code rm fromTensor t rs vs).1 < 0xFF := by
  have biased_clamp_lt (e : Int) : (max (-127) (min 127 e) + 127).toNat < 0xFF := by omega
  simp only [encodeBlock, hscale, hfinite, Bool.not_true, Bool.false_eq_true, if_false]
  exact biased_clamp_lt _

/-- The device encodes the exponent byte of a NaN block for an unusable tensor scale or a value that is not finite, and then every element
code is zero. -/
theorem encodeBlock_codes_of_nanExponent {code t : Nat} {rm : RM} {fromTensor : Bool} {rs : List Nat} {vs : List Val}
    (h : (encodeBlock code rm fromTensor t rs vs).1 = 0xFF) :
    (encodeBlock code rm fromTensor t rs vs).2.1 = List.replicate vs.length 0 := by
  cases hscale : scaleOk t with
  | false => simp [encodeBlock, hscale, List.map_const']
  | true =>
    cases hfinite : vs.all isFinite with
    | false => simp only [encodeBlock, hscale, hfinite, Bool.not_true, Bool.not_false, Bool.false_eq_true, if_false, if_true, List.map_const']
    | true => exact absurd h (encodeBlock_exponent_lt rm fromTensor rs hscale hfinite).ne

/-- Sixteen element codes of zero are packed into zero bytes in every block format. -/
theorem blockElemBytes_zeros (code : Nat) : blockElemBytes code (List.replicate 16 0) = List.replicate (blockBytes code) 0 := by
  unfold blockElemBytes blockBytes
  split <;> rfl

/-! ## The statement -/

/-- Settles O11.  Reading stops at the exponent byte; the encoder reaches that byte only with zero codes, which fill zero bytes. -/
theorem nanBlocks : Obligations.NanBlocks := by
  unfold Obligations.NanBlocks
  intro code _
  refine ⟨fun _ _ _ h => blockValue_of_nanExponent h, ?_⟩
  intro rm fromTensor t rs vs hlen e h
  rw [encodeBlock_codes_of_nanExponent h, hlen]
  exact blockElemBytes_zeros code

end Sys2Proof.Machine
end

section
/-! PROOF. NUM_FIRST (R79).  First what a read of a field gives after writes of several fields that share no bit; then the lowest flag of a
set, and what setting flags does to NUM_FIRST. -/
namespace Sys2Proof.Machine

/-! ## Writing several fields -/

/-- Two fields share no bit: they lie in different registers, or one ends below the other. -/
def FieldRef.Apart (f g : FieldRef) : Prop := f.reg ≠ g.reg ∨ f.lo + f.width ≤ g.lo ∨ g.lo + g.width ≤ f.lo

/-- Writing a field leaves one that ends below it, or begins above it, as it was. -/
theorem fieldOf_putField_apart (v : Word64) {lo w lo' w' : Nat} (x : Nat) (h : lo + w ≤ lo' ∨ lo' + w' ≤ lo) :
    fieldOf (putField v lo' w' x) lo w = fieldOf v lo w := by
  apply Nat.eq_of_testBit_eq
  intro i
  simp only [fieldOf, bits, putField, Nat.testBit_mod_two_pow, Nat.testBit_shiftRight, BitVec.testBit_toNat,
    BitVec.getLsbD_or, BitVec.getLsbD_and, BitVec.getLsbD_not, BitVec.getLsbD_ofNat, Nat.testBit_mul_two_pow,
    Nat.testBit_two_pow_sub_one]
  by_cases hi : i < w
  · rcases h with hbelow | habove
    · have hlow : ¬lo' ≤ lo + i := by omega
      simpa [hi, hlow] using BitVec.lt_of_getLsbD
    · have hhigh : ¬lo + i - lo' < w' := by omega
      simpa [hi, hhigh] using BitVec.lt_of_getLsbD
  · simp [hi]

theorem getF_setF_apart (s : State) {f g : FieldRef} (x : Nat) (h : f.Apart g) : (s.setF g x).getF f = s.getF f := by
  by_cases hreg : f.reg = g.reg
  · simp only [State.getF, State.setF, hreg, reg_setReg_same]
    exact fieldOf_putField_apart _ x (h.resolve_left fun hne => hne hreg)
  · exact getF_of_reg s _ f (reg_setF_other s g x f.reg hreg)

theorem getF_setFs_apart (s : State) {f : FieldRef} {l : List (FieldRef × Nat)} (h : ∀ e ∈ l, f.Apart e.1) :
    (s.setFs l).getF f = s.getF f := by
  induction l generalizing s with
  | nil => rfl
  | cons e l ih =>
    obtain ⟨he, hl⟩ := List.forall_mem_cons.mp h
    exact (ih (s.setF e.1 e.2) hl).trans (getF_setF_apart s e.2 he)

/-- After a write of several fields that share no bit, each holds what was written to it. -/
theorem getF_setFs_of_mem (s : State) {l : List (FieldRef × Nat)} {f : FieldRef} {x : Nat}
    (hapart : l.Pairwise fun e e' => e.1.Apart e'.1) (hfits : ∀ e ∈ l, e.1.lo + e.1.width ≤ 64) (hmem : (f, x) ∈ l) :
    (s.setFs l).getF f = x % 2 ^ f.width := by
  induction l generalizing s with
  | nil => cases hmem
  | cons e l ih =>
    obtain ⟨hhead, htail⟩ := List.pairwise_cons.mp hapart
    obtain ⟨hfit, hfits⟩ := List.forall_mem_cons.mp hfits
    rcases List.mem_cons.mp hmem with rfl | hmem
    · exact (getF_setFs_apart (s.setF f x) hhead).trans (getF_setF_same s f x hfit)
    · exact ih (s.setF e.1 e.2) htail hfits hmem

/-! ## The lowest flag of a set -/

/-- Among the eleven flags of Table 2.12, a set that is not empty has a lowest one, and `lowestFlag` names it. -/
theorem lowestFlag_spec {f : Word32} (hne : f ≠ 0) (hlt : f.toNat < 2 ^ 11) :
    lowestFlag f < 11 ∧ f.getLsbD (lowestFlag f) = true ∧ ∀ i, i < lowestFlag f → f.getLsbD i = false := by
  cases hfind : (List.range 11).find? fun i => f.getLsbD i with
  | none =>
    refine absurd (BitVec.eq_of_getLsbD_eq fun i _ => ?_) hne
    simp only [BitVec.ofNat_eq_ofNat, BitVec.getLsbD_zero]
    by_cases hi : i < 11
    · simpa using List.find?_eq_none.mp hfind i (List.mem_range.mpr hi)
    · exact Nat.testBit_lt_two_pow (hlt.trans_le (Nat.pow_le_pow_right (by decide) (not_lt.mp hi)))
  | some i =>
    have hlow : lowestFlag f = i := by rw [lowestFlag, hfind, Option.getD_some]
    obtain ⟨hset, hmem, hbelow⟩ := List.find?_range_eq_some.mp hfind
    rw [hlow]
    exact ⟨List.mem_range.mp hmem, hset, fun j hj => by simpa using hbelow j hj⟩

/-! ## Setting flags in a bank -/

/-- The bank with flags added to NUM_FLAGS. -/
def State.withFlags (s : State) (p : Nat) (f : Word32) : State :=
  s.setF (Fld.NUM_FLAGS_FLAGS p) (BitVec.ofNat 32 (s.getF (Fld.NUM_FLAGS_FLAGS p)) ||| f).toNat

/-- What NUM_FIRST captures of flags that are set together. -/
def firstFields (p : Nat) (larray : Option Nat) (kind time : Nat) (f : Word32) : List (FieldRef × Nat) :=
  [(Fld.NUM_FIRST_VALID p, 1), (Fld.NUM_FIRST_FLAG p, lowestFlag f),
    (Fld.NUM_FIRST_LARRAY p, if kind = 3 ∨ kind = 4 then 0 else larray.getD 0),
    (Fld.NUM_FIRST_SOURCE_KIND p, kind), (Fld.NUM_FIRST_TIME p, time)]

/-- NUM_FIRST captures flags that are set together, unless its VALID is 1. -/
def State.captureFirst (s : State) (p : Nat) (larray : Option Nat) (kind time : Nat) (f : Word32) : State :=
  if s.flag (Fld.NUM_FIRST_VALID p) then s else s.setFs (firstFields p larray kind time f)

/-- To the registers, setting flags is adding them to NUM_FLAGS and then the capture: an event that it raises changes no register. -/
theorem reg_numFlags (s : State) (source p : Nat) (larray : Option Nat) (kind time : Nat) {f : Word32} (hne : f ≠ 0) (q : Nat) :
    (s.numFlags source p larray kind time f).reg q =
      ((s.withFlags p f).captureFirst p larray kind time f).reg q := by
  unfold State.numFlags
  rw [if_neg hne]
  dsimp only
  rw [apply_ite fun u : State => u.reg q, reg_raise, ite_self]
  rfl

theorem reg_withFlags_first (s : State) (p : Nat) (f : Word32) : (s.withFlags p f).reg (Reg.NUM_FIRST p) = s.reg (Reg.NUM_FIRST p) :=
  reg_setF_other s _ _ _ (by simp only [Fld.NUM_FLAGS_FLAGS, Reg.NUM_FLAGS, Reg.NUM_FIRST]; omega)
theorem flag_withFlags_valid (s : State) (p : Nat) (f : Word32) :
    (s.withFlags p f).flag (Fld.NUM_FIRST_VALID p) = s.flag (Fld.NUM_FIRST_VALID p) := by
  simp only [State.flag, getF_of_reg s (s.withFlags p f) (Fld.NUM_FIRST_VALID p) (reg_withFlags_first s p f)]

/-- While VALID is 1, setting flags leaves NUM_FIRST alone. -/
theorem reg_numFlags_of_valid {s : State} {p : Nat} {f : Word32} (source : Nat) (larray : Option Nat) (kind time : Nat) (hne : f ≠ 0)
    (hvalid : s.flag (Fld.NUM_FIRST_VALID p) = true) :
    (s.numFlags source p larray kind time f).reg (Reg.NUM_FIRST p) = s.reg (Reg.NUM_FIRST p) := by
  rw [reg_numFlags s source p larray kind time hne, State.captureFirst, if_pos ((flag_withFlags_valid s p f).trans hvalid), reg_withFlags_first]

/-- While VALID is 0, setting flags leaves each field of NUM_FIRST at what it captures. -/
theorem getF_numFlags_of_not_valid {s : State} {p : Nat} {larray : Option Nat} {kind time : Nat} {f : Word32} (source : Nat) (hne : f ≠ 0)
    (hvalid : s.flag (Fld.NUM_FIRST_VALID p) = false) {g : FieldRef} {x : Nat} (hmem : (g, x) ∈ firstFields p larray kind time f) :
    (s.numFlags source p larray kind time f).getF g = x % 2 ^ g.width := by
  have hreg := reg_numFlags s source p larray kind time hne g.reg
  rw [State.captureFirst, if_neg (by rw [flag_withFlags_valid, hvalid]; decide)] at hreg
  rw [getF_of_reg _ _ g hreg]
  refine getF_setFs_of_mem _ ?_ ?_ hmem
  · simp [firstFields, FieldRef.Apart, Fld.NUM_FIRST_VALID, Fld.NUM_FIRST_FLAG, Fld.NUM_FIRST_LARRAY, Fld.NUM_FIRST_SOURCE_KIND,
      Fld.NUM_FIRST_TIME]
  · simp [firstFields, Fld.NUM_FIRST_VALID, Fld.NUM_FIRST_FLAG, Fld.NUM_FIRST_LARRAY, Fld.NUM_FIRST_SOURCE_KIND, Fld.NUM_FIRST_TIME]

/-! ## The statement -/

/-- Settles O12.  Each field of NUM_FIRST reads as what was captured, FLAG as the lowest flag of the set; with VALID at 1 the register is not
written. -/
theorem firstFlagIsCaptured : Obligations.FirstFlagIsCaptured := by
  unfold Obligations.FirstFlagIsCaptured
  intro source p larray kind time f s _ hne hlt t
  refine ⟨fun hvalid => ?_, reg_numFlags_of_valid source larray kind time hne⟩
  obtain ⟨hlow, hset, hbelow⟩ := lowestFlag_spec hne hlt
  have hcaptured {g : FieldRef} {x : Nat} (hmem : (g, x) ∈ firstFields p larray kind time f) : t.getF g = x % 2 ^ g.width :=
    getF_numFlags_of_not_valid source hne hvalid hmem
  have hflag : t.getF (Fld.NUM_FIRST_FLAG p) = lowestFlag f :=
    (hcaptured (by simp [firstFields])).trans (Nat.mod_eq_of_lt (hlow.trans (show 11 < 2 ^ 4 by decide)))
  rw [hflag]
  refine ⟨?_, hset, hbelow, hcaptured (by simp [firstFields]), hcaptured (by simp [firstFields]), hcaptured (by simp [firstFields])⟩
  rw [State.flag, hcaptured (x := 1) (by simp [firstFields])]
  rfl

end Sys2Proof.Machine
end

section
/-! PROOF. Instruction words (R88).  A word is what its fields spell, one after another from CLASS at the top (Table 3.3), so a cut at a field's
place gives that field back, and the cuts of a word in their order are the word.  Then the bytes of program text that a word is fetched from. -/
namespace Sys2Proof.Machine

/-! ## Cuts of bit vectors -/

/-- `bits` of a bit vector's number is the number of the library's cut. -/
theorem bits_toNat {n : Nat} (w : BitVec n) (lo k : Nat) : bits w.toNat lo k = (w.extractLsb' lo k).toNat := rfl

theorem bits_toNat_self {n : Nat} (w : BitVec n) : bits w.toNat 0 n = w.toNat := by
  rw [bits_toNat, BitVec.extractLsb'_eq_self]

/-- A cut that ends within the low part of two joined vectors is a cut of that part. -/
theorem bits_append_low {m n : Nat} (x : BitVec m) (y : BitVec n) {lo k : Nat} (h : lo + k ≤ n) :
    bits (x ++ y).toNat lo k = bits y.toNat lo k := by
  rw [bits_toNat, BitVec.extractLsb'_append_eq_of_add_le h, bits_toNat]

/-- A cut that begins above the low part of two joined vectors is a cut of the high part. -/
theorem bits_append_high {m n : Nat} (x : BitVec m) (y : BitVec n) {lo : Nat} (h : n ≤ lo) (k : Nat) :
    bits (x ++ y).toNat lo k = bits x.toNat (lo - n) k := by
  rw [bits_toNat, BitVec.extractLsb'_append_eq_of_le h, bits_toNat]

theorem extractLsb'_one {n : Nat} (w : BitVec n) (i : Nat) : w.extractLsb' i 1 = BitVec.ofBool (w.getLsbD i) := by
  ext j hj
  obtain rfl : j = 0 := by omega
  simp

theorem getLsbD_of_bits_one {n : Nat} {w : BitVec n} {i : Nat} {b : Bool} (h : bits w.toNat i 1 = if b then 1 else 0) :
    w.getLsbD i = b := by
  rw [bits_toNat, extractLsb'_one] at h
  cases b <;> simpa using h

/-! ## Words and fields -/

/-- The number of a word, its fields joined as the vector of their widths' sum. -/
theorem toNat_word (c o : Nat) (f : Fields) :
    (f.word c o).toNat = (BitVec.ofNat 6 c ++ BitVec.ofNat 6 o ++ BitVec.ofBool f.ge ++ f.pred ++ BitVec.ofBool f.pn ++ f.mod ++ f.d ++ f.a ++
      f.b ++ f.c ++ f.imm).toNat := rfl

/-- Table 3.3: each field of a word at its place. -/
theorem bits_word (c o : Nat) (f : Fields) :
    let x := (f.word c o).toNat
    bits x 122 6 = c % 64 ∧ bits x 116 6 = o % 64 ∧ bits x 115 1 = (if f.ge then 1 else 0) ∧ bits x 112 3 = f.pred.toNat ∧
    bits x 111 1 = (if f.pn then 1 else 0) ∧ bits x 96 15 = f.mod.toNat ∧ bits x 88 8 = f.d.toNat ∧ bits x 80 8 = f.a.toNat ∧
    bits x 72 8 = f.b.toNat ∧ bits x 64 8 = f.c.toNat ∧ bits x 0 64 = f.imm.toNat := by
  simp (disch := decide) only [toNat_word, bits_append_low, bits_append_high, bits_toNat_self, Nat.reduceSub]
  simp [Bool.toNat, Bool.cond_eq_ite]

/-- No field is lost in the word. -/
theorem wordFields_word (c o : Nat) (f : Fields) : wordFields (f.word c o) = f := by
  obtain ⟨-, -, hge, hpred, hpn, hmod, hd, ha, hb, hc, himm⟩ := bits_word c o f
  cases f
  exact (Fields.mk.injEq ..).mpr ⟨getLsbD_of_bits_one hge, BitVec.eq_of_toNat_eq hpred, getLsbD_of_bits_one hpn, BitVec.eq_of_toNat_eq hmod,
    BitVec.eq_of_toNat_eq hd, BitVec.eq_of_toNat_eq ha, BitVec.eq_of_toNat_eq hb, BitVec.eq_of_toNat_eq hc, BitVec.eq_of_toNat_eq himm⟩

/-- No bit of a word is outside its fields: they are cuts that lie side by side, so joined they are one cut, of the whole word. -/
theorem word_wordFields (w : BitVec 128) : (wordFields w).word (wordClass w) (wordOp w) = w := by
  apply BitVec.eq_of_toNat_eq
  simp only [toNat_word, wordFields, wordClass, wordOp, ← extractLsb'_one, BitVec.ofNat_toNat, BitVec.setWidth_eq, -Nat.reduceAdd]
  simp (disch := decide) only [BitVec.extractLsb'_append_extractLsb'_eq_extractLsb', -Nat.reduceAdd]
  exact congrArg BitVec.toNat BitVec.extractLsb'_eq_self

/-! ## Bytes of a number -/

theorem ofLe_lt (l : List Byte) : ofLe l < 256 ^ l.length := by
  induction l with
  | nil => decide
  | cons b l ih =>
    have hb : b.toNat < 256 := b.isLt
    rw [ofLe, List.length_cons, Nat.pow_succ]
    omega

theorem bits_ofLe_cons_zero (b : Byte) (l : List Byte) : bits (ofLe (b :: l)) 0 8 = b.toNat := by
  have hb : b.toNat < 256 := b.isLt
  rw [bits, ofLe, Nat.shiftRight_zero]
  omega

theorem bits_ofLe_cons_add (b : Byte) (l : List Byte) (lo k : Nat) : bits (ofLe (b :: l)) (8 + lo) k = bits (ofLe l) lo k := by
  have hb : b.toNat < 256 := b.isLt
  have htail : ofLe (b :: l) >>> 8 = ofLe l := by
    rw [ofLe, Nat.shiftRight_eq_div_pow]
    omega
  rw [bits, Nat.shiftRight_add, htail, bits]

/-- Byte `k` of the number that bytes spell is the byte at place `k`. -/
theorem toLe_bits_ofLe {l : List Byte} {k : Nat} (hk : k < l.length) : toLe 1 (bits (ofLe l) (8 * k) 8) = (l.drop k).take 1 := by
  induction l generalizing k with
  | nil => cases hk
  | cons b l ih =>
    cases k with
    | zero => simp [bits_ofLe_cons_zero, toLe]
    | succ k => rw [Nat.mul_succ, Nat.add_comm, bits_ofLe_cons_add, ih (Nat.lt_of_succ_lt_succ hk), List.drop_succ_cons]

/-! ## The fetch -/

@[simp] theorem length_readBytes (m : Sparse Byte) (a n : Nat) : (readBytes m a n).length = n := by
  induction n generalizing a with
  | zero => rfl
  | succ n ih => rw [readBytes, List.length_cons, ih]

@[simp] theorem length_hbmRead (s : State) (p a len : Nat) : (s.hbmRead p a len).length = len := by
  unfold State.hbmRead
  split
  · split
    · exact length_readBytes _ _ _
    · exact List.length_replicate
  · rw [List.length_map, List.length_range]

/-- A word that the cache does not hold is the number that the 16 bytes of program text at PC spell. -/
theorem toNat_fetchWord {s : State} {n : Nat} (h : (s.arr n).cached = none) :
    (s.fetchWord n).toNat = ofLe (s.hbmRead (s.ident n).part (s.arr n).pc 16) := by
  have hlt := ofLe_lt (s.hbmRead (s.ident n).part (s.arr n).pc 16)
  rw [length_hbmRead] at hlt
  rw [State.fetchWord, h]
  exact Nat.mod_eq_of_lt hlt

/-! ## The statement -/

/-- Settles O7.  The places of the fields and the two round trips are those of the word; a fetched byte is the byte of program text at its
place. -/
theorem instructionWord : Obligations.InstructionWord := by
  unfold Obligations.InstructionWord
  refine ⟨fun c o f hc ho => ?_, word_wordFields, fun s n k hk hcached _ => ?_⟩
  · have hplaces := bits_word c o f
    rw [Nat.mod_eq_of_lt hc, Nat.mod_eq_of_lt ho] at hplaces
    obtain ⟨hclass, hop, hge, hpred, hpn, hmod, hd, ha, hb, hc', himm⟩ := hplaces
    exact ⟨hclass, hop, hge, hpred, hpn, hmod, hd, ha, hb, hc', himm, hclass, hop, wordFields_word c o f⟩
  · rw [toNat_fetchWord hcached]
    exact toLe_bits_ofLe ((length_hbmRead s _ _ 16).symm ▸ hk)

end Sys2Proof.Machine
end
